-- ==== Sys2Proof/Word.lean ====
section
/-!
DEFINITION. The word types of the module: 64-bit registers (R40) and bytes (R14).
-/
namespace Sys2Proof

/-- A register, and any 64-bit integer field (R40). -/
abbrev Word := BitVec 64

/-- One byte of a descriptor, a frame or a host transfer. -/
abbrev Byte := BitVec 8

/-- A byte string, byte 0 first (R14). -/
abbrev Bytes := List Byte

end Sys2Proof
end

