-- ==== Sys2Proof/Syntax.lean ====
section
/-!
DEFINITION. The commands of the module: one constructor of `Instr` for each row of the table of operations
and events, with its operands. A command is either an access or an act of a party outside the module (a host
port, a custodian card, the supply, a pin) or an event of one of the module's own engines, timers or detectors.
-/
namespace Sys2Proof

/-- A host port (R59). -/
inductive Port | a | b
deriving DecidableEq, Repr

/-- A party that accesses registers and holds semaphores: Port A, Port B or the warden (R44, R56). -/
inductive Party | portA | portB | warden
deriving DecidableEq, Repr

/-- The address space of an access: BAR0 of PF0 (R49), BAR2 of PF1 (R54), BAR4 and configuration space of either function (R59,
R60). -/
inductive Bar | bar0 | bar2 | pf0Bar4 | pf1Bar4 | pf0Config | pf1Config
deriving DecidableEq, Repr

/-- A compute die (R19). -/
inductive Die | d0 | d1
deriving DecidableEq, Repr

/-- Where a Levee detector senses: the always-on domain, the base die's main domain, or a compute die (R450, R456). -/
inductive Site | alwaysOn | base | die0 | die1
deriving DecidableEq, Repr

/-- An error arriving at a page, as R47 captures it. -/
structure ErrIn where
  cause  : Nat
  source : Nat
  addr   : Nat
  tag    : Nat := 0
  slice  : Option Nat := none
deriving DecidableEq, Repr

/-- One access of a host port to BAR0. -/
structure HostAccess where
  write : Bool
  addr  : Nat
  size  : Nat
  data  : Word
deriving DecidableEq, Repr

/-- What the host answers at parsing for one step of a chain: the bytes of its scatter list (`none` where the
read failed) and the bytes of its input segments that parsing reads (a ceremony parameter block, R321). -/
structure HostRead where
  list  : Option Bytes
  block : Option Bytes
deriving DecidableEq, Repr

/-- One access to the shared SRAM (R396): its bank port, the core that makes it where one does, its address and length, and the
bytes of a store. -/
structure SramAccess where
  port  : Nat
  core  : Option Nat
  addr  : Nat
  len   : Nat
  store : Option (List Byte)
deriving DecidableEq, Repr

/-- One flit of an internal transfer (R410): its destination address, its transfer tag, 1 to 64 data bytes and its integrity code,
as they arrive. -/
structure Flit where
  addr : BitVec 64
  tag  : BitVec 32
  data : List Byte
  code : BitVec 16
deriving DecidableEq, Repr

/-- What the sensing circuit reads of one fuse word from now on: each copy at margin-low, nominal and margin-high
(R477, R479). -/
structure FuseRead where
  word : Nat
  aLow : BitVec 32
  aNom : BitVec 32
  aHigh : BitVec 32
  bLow : BitVec 32
  bNom : BitVec 32
  bHigh : BitVec 32
deriving DecidableEq, Repr

/-- What the hardware shows a cold or warm start (Table 2 of the start chapter): its duration in ms without resumed wipes and
burns, the base-die temperature in 1/16 °C, the lockstep check, the detectors that fail their self-test, the fuse readings
that differ from before, the vault regions that fail their CRC, whether each compute die passes its checks of steps 5 to 11,
the SRAM rows that fail (die × 64 + bank, row), the MRAM sectors that fail the scan of a cold start (die, sector), and whether the 16 checks of the test channel pass. -/
structure StartReport where
  ms        : Nat
  temp      : Int
  lockstep  : Bool
  detectors : List (Nat × Bool)
  fuses     : List FuseRead
  secretBad : Bool
  keptBad   : Bool
  die0      : Bool
  die1      : Bool
  rows      : List (Nat × Nat)
  sectors   : List (Nat × Nat)
  channel   : Bool
deriving DecidableEq, Repr

/-- The commands: one constructor for each row of the table of operations and events. -/
inductive Instr where
  /-- REGISTER_WRITE (R42): A write to a register field that has no behaviour of its own takes effect by its access type, after the size, alignment, guard and reserved-offset checks. -/
  | registerWrite (who : Party) (bar : Bar) (addr size : Nat) (data : Word) (also : Option HostAccess)
  /-- RC_FIELD_READ (R42): A read of a register holding an RC field returns the value and clears the field, in the port order of R44. -/
  | rcFieldRead (who : Party) (bar : Bar) (addr size : Nat) (also : Option HostAccess)
  /-- PG_IRQ_STAT_CLEAR (R45): A W1C write to PG_IRQ_STAT clears bits, the set winning over the clear, and resends the MSI-X if pending stays true. -/
  | pgIrqStatClear (who : Party) (bar : Bar) (page : Nat) (data setNow : Word)
  /-- PG_IRQ_EN_WRITE (R45): A write to PG_IRQ_EN changes the enables and sends the page MSI-X if pending becomes true. -/
  | pgIrqEnWrite (who : Party) (bar : Bar) (page : Nat) (data : Word)
  /-- PG_IRQ_FORCE_WRITE (R45): A write to PG_IRQ_FORCE sets status bits and sends the MSI-X if pending becomes true. -/
  | pgIrqForceWrite (who : Party) (bar : Bar) (page : Nat) (data : Word)
  /-- ERR_REARM (R47): Writing PG_CTL.err_rearm clears the first-error capture registers and rearms capture. -/
  | errRearm (who : Party) (bar : Bar) (page : Nat) (data : Word) (sameCycle : Option ErrIn)
  /-- ALIAS_ACCESS_HELD (R51): An access to an alias arriving during a switchover gap is held, up to 64 per port, with flow-control credit withheld when full. -/
  | aliasAccessHeld (port : Port) (acc : HostAccess)
  /-- FORWARDED_ACCESS_TIMEOUT (R51): An access forwarded to the old active die that gets no answer within 1 µs returns zero or is discarded with cause 0x0005. -/
  | forwardedAccessTimeout (port : Port) (acc : HostAccess)
  /-- SLICE_DRAIN (R81): Writing SLC_CTL.drain starts a drain reset of the slice in which admitted work runs to commit. -/
  | sliceDrain (port : Port) (slice : Nat) (ctl : Word)
  /-- SLICE_SQUASH (R81): Writing SLC_CTL.squash starts a squash reset that ends every uncommitted request with ST_SLICE_RESET. -/
  | sliceSquash (port : Port) (slice : Nat) (ctl : Word)
  /-- SLICE_HOLD_WRITE (R65): Writing SLC_CTL.hold sets the post-reset state, and writing 0 in QUIESCED returns the slice to ACTIVE. -/
  | sliceHoldWrite (port : Port) (slice : Nat) (ctl : Word)
  /-- SLICE_RESET_END (R81): When owed completions and status blocks are written, pairs are disabled, SLC_RESET_INFO is set and the slice enters ACTIVE or QUIESCED with reset_done. -/
  | sliceResetEnd (slice : Nat)
  /-- RING_ENABLE (R73): Writing SLC_RING_CTL_n.enable from 0 to 1 zeroes the counters and runs the pair on its home port or places it, unless refused. -/
  | ringEnable (port : Port) (slice pair : Nat) (ctl : Word)
  /-- RING_DISABLE (R73): Writing enable from 1 to 0 stops fetching; the pair becomes disabled once no admitted request remains. -/
  | ringDisable (port : Port) (slice pair : Nat) (ctl : Word)
  /-- RING_HOME_WRITE (R78): Writing the home field moves the pair to the new port at the next completion-batch boundary. -/
  | ringHomeWrite (port : Port) (slice pair : Nat) (ctl : Word)
  /-- RING_CONFIG_WRITE (R72): A write of ring bases, status address or size_code is applied only while the pair is disabled, otherwise captured. -/
  | ringConfigWrite (port : Port) (slice pair reg : Nat) (value : Word)
  /-- SQ_DOORBELL (R74): A write to SLC_SQ_DB_n replaces sq_tail, or raises a ring error, or is discarded, and during a gap is recorded for the new active die. -/
  | sqDoorbell (port : Port) (slice pair : Nat) (value : Word)
  /-- CQ_DOORBELL (R74): A write to SLC_CQ_DB_n advances cq_head, or is discarded and captured when beyond cq_tail. -/
  | cqDoorbell (port : Port) (slice pair : Nat) (value : Word)
  /-- PORT_EVACUATE_WRITE (R79): Writing PTx_CTL.evacuate 1 moves or holds every pair on that port, and writing 0 returns pairs homed there. -/
  | portEvacuateWrite (who : Party) (port : Port) (ctl : Word)
  /-- PTX_SLICE_RESET_DRAIN (R81): A management write of PTx_SLICE_RESET with kind drain starts a drain reset of the named slice. -/
  | ptxSliceResetDrain (who : Party) (port : Port) (value : Word)
  /-- PTX_SLICE_RESET_SQUASH (R81): A management write of PTx_SLICE_RESET with kind squash starts a squash reset of the named slice. -/
  | ptxSliceResetSquash (who : Party) (port : Port) (value : Word)
  /-- PORT_LINK_DOWN (R79): Loss of a port's link, PERST# low or D3hot moves each pair it carries to the other bound port within 10 µs or holds it, and releases the port's semaphores. -/
  | portLinkDown (port : Port)
  /-- PORT_LINK_UP (R79): A port's link coming up releases held pairs onto it, writing their owed completions, and returns pairs homed there when home is written. -/
  | portLinkUp (port : Port) (speed width : Nat)
  /-- FLR_PF1 (R82): Function Level Reset of PF1 squashes every slice the port carries a pair for and places or discards owed completions, completing within 1 ms. -/
  | flrPf1 (port : Port)
  /-- FLR_PF0 (R82): Function Level Reset of PF0 resets its configuration and MSI-X table and releases every semaphore the port holds. -/
  | flrPf0 (port : Port)
  /-- SEM_TAKE (R84): A take write grants a free semaphore to the writing port, or renews it for the holder, or changes nothing. -/
  | semTake (port : Port) (n : Nat)
  /-- SEM_RELEASE (R85): A release write by the holder frees the semaphore, passing semaphore 0 to a waiting warden. -/
  | semRelease (who : Party) (n : Nat)
  /-- SEM_RENEW (R85): A renew write by the holder restarts the lease. -/
  | semRenew (port : Port) (n : Nat)
  /-- SEM_LEASE_EXPIRY (R85): A lease running out releases the semaphore, increments SEM_EXPIRED and is journalled. -/
  | semLeaseExpiry (n : Nat)
  /-- WARDEN_SEM_TAKE (R86): The warden takes semaphore 0 for ceremony or life-cycle work, or sets warden_waiting and receives it at the next release. -/
  | wardenSemTake
  /-- DESCRIPTOR_FETCH (R331): Weir reads a ring head, one descriptor or a whole chain, into the ring's fetch slot once the slot is empty, descriptors wait and the completion ring has room. -/
  | descriptorFetch (slice pair : Nat) (descs : List (List Byte))
  /-- DESCRIPTOR_PARSE (R114): An arriving descriptor or chain is parsed in the fetch slot, with the scatter list read, and a failure is consumed with its status. -/
  | descriptorParse (slice pair : Nat) (reads : List HostRead)
  /-- DESCRIPTOR_READ_ERROR (R75): A descriptor read completed with an error puts the ring into error and increments fetch_faults. -/
  | descriptorReadError (slice pair : Nat)
  /-- ADMISSION_DECISION (R332): Weir makes one deficit round-robin admission decision, admitting a fitting head, consuming a failing one or leaving it back-pressured, and sends the ADMIT record. -/
  | admissionDecision
  /-- BUCKET_CREDIT (R329): At each whole microsecond of NT every rate and owed bucket is credited, scaled by capacity, governor and Levee throttle. -/
  | bucketCredit
  /-- CORE_HANDOVER (R336): Confluence hands the head of the most urgent ready list to a core's executing or prefetch slot, taking or deferring an Eddy entry. -/
  | coreHandover
  /-- INPUT_SEGMENT_READ_DONE (R94): The read of a step's input segments from host memory completes or fails with ST_DATA_FETCH. -/
  | inputSegmentReadDone (k : Nat) (data : Option (List Byte))
  /-- KEY_CACHE_ENTRY_FREED (R249): A binding waiting for a key-cache entry proceeds when an entry is released. -/
  | keyCacheEntryFreed (k : Nat)
  /-- BOUNDARY_END (R81): A step marked to end by squash, withdrawal, execution limit or Levee clear ends at its next instruction or engine-job boundary. -/
  | boundaryEnd (k : Nat)
  /-- EXEC_LIMIT_EXPIRY (R106): A step not ready to commit 10 ms after activation is marked to end with ST_EXEC_LIMIT. -/
  | execLimitExpiry (k : Nat)
  /-- STEP_READY (R33): A step finishes its function and becomes ready to commit, entering HELD, ORDER or COMMIT and sending its commit record when allowed. -/
  | stepReady (k : Nat)
  /-- EDDY_CONFIRM (R360): A step that ran ahead confirms at the later of readiness and its guard's commit, re-checking every bound record. -/
  | eddyConfirm (k : Nat)
  /-- EDDY_SCRUB_DONE (R362): A scrub of an Eddy entry completes within 256 core cycles, the entry becomes FREE and the step commits without output. -/
  | eddyScrubDone (core entry : Nat)
  /-- ADMIT_ACK_RECEIVED (R33): The standby die's acknowledgement of an admission record arrives, satisfying condition (a). -/
  | admitAckReceived (seq : Nat)
  /-- COMMIT_ACK_RECEIVED (R33): The acknowledgement of a commit record arrives and the completion write is issued. -/
  | commitAckReceived (seq : Nat)
  /-- COMPLETION_BATCH_WRITE (R71): A batch of completions and output segments is written to a completion ring, followed by the status block, releasing contexts and cells. -/
  | completionBatchWrite (slice pair : Nat)
  /-- COALESCE_TIMER_EXPIRY (R77): coal_time elapsing since the first unsignalled completion sends the pair's interrupt. -/
  | coalesceTimerExpiry (slice pair : Nat)
  /-- BNL_JOB_START (R338): An idle BNL engine takes the head of the most urgent BNL ready list, after scrubbing for a new owner. -/
  | bnlJobStart (engine : Nat)
  /-- BNL_JOB_DONE (R268): A BNL job ends and its result is returned to firmware for the checks of R269. -/
  | bnlJobDone (engine : Nat) (checkOk : Bool)
  /-- STEP_YIELD (R337): A step waiting on a BNL or pipeline job saves its state to a yield area and frees its core. -/
  | stepYield (k : Nat)
  /-- STEP_RESUME (R337): When its job ends a yielded step's resume item enters the head of its level's ready list. -/
  | stepResume (k : Nat)
  /-- DATA_PASS_ACCEPT (R228): A pipeline accepts a data pass within the port's 4 ms byte budget, suspending a less urgent pass. -/
  | dataPassAccept (pipe : Nat)
  /-- DATA_PASS_DONE (R227): A committed data pass finishes writing its destination and its completion is written. -/
  | dataPassDone (pipe : Nat) (data : Option (List Byte))
  /-- DATA_PASS_ABANDON (R229): A data pass unfinished 10 ms after activation, or meeting a host failure, withdrawal or squash, is abandoned with its status completion. -/
  | dataPassAbandon (k : Nat)
  /-- DATA_PASS_PORT_LOSS (R228): The port of a running pass losing its link restarts the pass from its first byte on the pair's new port. -/
  | dataPassPortLoss (pipe : Nat)
  /-- SEAL_JOB (R369): A seal or open job of one frame runs on a pipeline for 240 engine cycles, suspending bulk work. -/
  | sealJob (pipe : Nat)
  /-- BTC_SWEEP (R218): At each whole millisecond of NT, cached buffer-table pages filled before that instant are marked invalid. -/
  | btcSweep
  /-- STREAM_IDLE_CLOSE (R225): A stream closes 60 s of NT after its last committed segment. -/
  | streamIdleClose (stream : Nat)
  /-- KEY_TXN_FRAMES_WRITTEN (R259): Both dies acknowledge a key transaction's new frames and the commit record with directory words is sent. -/
  | keyTxnFramesWritten (mark : Nat)
  /-- KEY_TXN_FLIP (R259): After the commit acknowledgement one vault write sets the mark FLIPPED and the transaction commits. -/
  | keyTxnFlip (mark : Nat)
  /-- KEY_TXN_LOG_WRITTEN (R259): The log entry and head are written on both dies, old frames zeroised and the mark cleared. -/
  | keyTxnLogWritten (mark : Nat)
  /-- KEY_CUTOVER (R250): NT reaching activate_at under trusted time makes a pending record current in one internal commit. -/
  | keyCutover (slot : Nat)
  /-- RESET_EXPIRY_ERASE (R245): The key-store controller erases an expire_at_reset record from an earlier epoch in the background. -/
  | resetExpiryErase (slot : Nat)
  /-- SHADOW_HOMING (R262): With fewer than a quarter of shadow frames free, a current shadow record is copied home under an internal key transaction. -/
  | shadowHoming (slot : Nat)
  /-- WITHDRAWAL_END (R248): Material of an immediately erased slot is zeroised within 2 µs of the last squash and the slot becomes empty. -/
  | withdrawalEnd (slot : Nat)
  /-- OLD_MATERIAL_ZEROISE (R247): Old-generation material is zeroised once no step holding it still needs it. -/
  | oldMaterialZeroise (slot gen : Nat)
  /-- FRAME_TAG_FAIL (R235): A frame read fails its tag and the standby copy is requested. -/
  | frameTagFail (slot : Nat) (pend : Bool)
  /-- FRAME_REPAIR_REPLY (R235): The standby die's copy arrives and either repairs the frame or marks the slot damaged. -/
  | frameRepairReply (slot : Nat) (verifies : Bool)
  /-- NOP (R111): Commits with ST_OK after exactly 1,000 core cycles and changes nothing. -/
  | nop (k : Nat)
  /-- PIN_TRANSLATE (R135): Translates a PIN block between formats and keys under the translation matrix. -/
  | pinTranslate (k : Nat)
  /-- PIN_VERIFY_OFFSET (R137): Verifies a PIN against an offset by the offset method. -/
  | pinVerifyOffset (k : Nat)
  /-- PIN_VERIFY_VALUE (R140): Verifies a PIN against a PVV. -/
  | pinVerifyValue (k : Nat)
  /-- PIN_GENERATE (R139): Generates a natural or random PIN and returns it enciphered with its offset. -/
  | pinGenerate (k : Nat)
  /-- PIN_OFFSET_DERIVE (R138): Derives the offset of a PIN after screening it. -/
  | pinOffsetDerive (k : Nat)
  /-- PIN_SCREEN (R142): Screens a PIN against the rules and weak-PIN list. -/
  | pinScreen (k : Nat)
  /-- PIN_CHANGE_SCRIPT (R143): Builds the enciphered PIN data of an issuer-script PIN change. -/
  | pinChangeScript (k : Nat)
  /-- PIN_VALUE_DERIVE (R140): Derives the PVV of a PIN. -/
  | pinValueDerive (k : Nat)
  /-- ARQC_VERIFY (R162): Verifies an application cryptogram under an issuer profile. -/
  | arqcVerify (k : Nat)
  /-- ARPC_GENERATE (R165): Computes a response cryptogram without verifying the ARQC. -/
  | arpcGenerate (k : Nat)
  /-- ARQC_VERIFY_ARPC (R165): Verifies an ARQC and, on success, computes the ARPC under the same session key. -/
  | arqcVerifyArpc (k : Nat)
  /-- SCRIPT_MAC (R167): Computes the MAC of an issuer-script command. -/
  | scriptMac (k : Nat)
  /-- SCRIPT_ENCRYPT (R168): Enciphers issuer-script data in CBC mode under the confidentiality session key. -/
  | scriptEncrypt (k : Nat)
  /-- CVC_GENERATE (R170): Generates a static card verification code. -/
  | cvcGenerate (k : Nat)
  /-- CVC_VERIFY (R170): Verifies a static card verification code. -/
  | cvcVerify (k : Nat)
  /-- DCVC_GENERATE (R171): Generates a dynamic card verification code. -/
  | dcvcGenerate (k : Nat)
  /-- DCVC_VERIFY (R171): Verifies a dynamic card verification code. -/
  | dcvcVerify (k : Nat)
  /-- DUKPT_PIN_TRANSLATE (R189): Derives a DUKPT PIN working key and translates the PIN block. -/
  | dukptPinTranslate (k : Nat)
  /-- DUKPT_MAC_VERIFY (R190): Derives a DUKPT MAC working key and verifies a message MAC. -/
  | dukptMacVerify (k : Nat)
  /-- DUKPT_DECRYPT_DATA (R191): Derives a DUKPT data key and deciphers data in CBC mode. -/
  | dukptDecryptData (k : Nat)
  /-- DUKPT_INITIAL_KEY (R192): Originates an initial key from the BDK's originating counter and returns it as a key block. -/
  | dukptInitialKey (k : Nat)
  /-- MAC_GENERATE (R195): Generates a block-cipher MAC over a message. -/
  | macGenerate (k : Nat)
  /-- MAC_VERIFY (R199): Verifies a block-cipher MAC in constant time. -/
  | macVerify (k : Nat)
  /-- HMAC_GENERATE (R197): Generates an HMAC over a message on a digest engine. -/
  | hmacGenerate (k : Nat)
  /-- HMAC_VERIFY (R197): Verifies an HMAC over a message. -/
  | hmacVerify (k : Nat)
  /-- TOKEN_ENCODE (R209): Tokenises a digit string with FF1 under a token domain. -/
  | tokenEncode (k : Nat)
  /-- TOKEN_DECODE (R210): Recovers a digit string from its FF1 token. -/
  | tokenDecode (k : Nat)
  /-- BULK_OPEN (R221): Opens a bulk stream, drawing a nonce in mode 0x01. -/
  | bulkOpen (k : Nat)
  /-- BULK_SEGMENT (R223): Advances a stream by one segment and obtains acceptance of its data pass. -/
  | bulkSegment (k : Nat)
  /-- BULK_CLOSE (R225): Closes a stream and returns its final position. -/
  | bulkClose (k : Nat)
  /-- BULK_TK7 (R226): Runs one self-contained TK7 bulk request in mode 0x03 or 0x04. -/
  | bulkTk7 (k : Nat)
  /-- KEY_GENERATE (R252): Generates a secret key into an empty target slot. -/
  | keyGenerate (k : Nat)
  /-- KEY_IMPORT_BLOCK (R255): Imports an ANSI X9.143 key block into an empty target slot. -/
  | keyImportBlock (k : Nat)
  /-- KEY_EXPORT_BLOCK (R255): Exports a key as an ANSI X9.143 key block. -/
  | keyExportBlock (k : Nat)
  /-- KEY_REWRITE (R254): Replaces a key's material or narrows its attributes, immediately or as a pending record. -/
  | keyRewrite (k : Nat)
  /-- KEY_ERASE (R248): Erases a key in deferred or immediate-withdrawal mode, or erases and retires a damaged slot. -/
  | keyErase (k : Nat)
  /-- KEY_READ_ATTR (R252): Returns a key record's attributes. -/
  | keyReadAttr (k : Nat)
  /-- KEY_ACTIVATE_AT (R251): Reschedules, discards or immediately cuts over a pending record. -/
  | keyActivateAt (k : Nat)
  /-- KEY_CHECK_VALUE (R253): Returns the check value of a TDES or AES key. -/
  | keyCheckValue (k : Nat)
  /-- KEY_TXN_QUERY (R258): Reports whether a key transaction with a given client_seq is in the slice's log. -/
  | keyTxnQuery (k : Nat)
  /-- KEY_BLOCK_VERIFY (R255): Checks a key block's framing and MAC only. -/
  | keyBlockVerify (k : Nat)
  /-- PK_SIGN (R274): Signs a digest or message with a private key. -/
  | pkSign (k : Nat)
  /-- PK_VERIFY (R275): Verifies a signature under a public key. -/
  | pkVerify (k : Nat)
  /-- PK_DECRYPT (R277): Decrypts RSAES-OAEP ciphertext. -/
  | pkDecrypt (k : Nat)
  /-- PK_ENCRYPT (R277): Encrypts with RSAES-OAEP. -/
  | pkEncrypt (k : Nat)
  /-- KEY_PAIR_GENERATE (R281): Generates a key pair into target slots in one key transaction. -/
  | keyPairGenerate (k : Nat)
  /-- ECDH_DERIVE (R279): Derives a target key from an ECDH shared secret. -/
  | ecdhDerive (k : Nat)
  /-- KEM_ENCAPS (R280): Encapsulates to an ML-KEM key and creates the target from the shared secret. -/
  | kemEncaps (k : Nat)
  /-- KEM_DECAPS (R280): Decapsulates an ML-KEM ciphertext and creates the target from the shared secret. -/
  | kemDecaps (k : Nat)
  /-- TR34_IMPORT (R285): Imports a key from a TR-34 token with the module as KRD. -/
  | tr34Import (k : Nat)
  /-- TR34_EXPORT (R286): Exports a key in a TR-34 token with the module as KDH. -/
  | tr34Export (k : Nat)
  /-- TRANSPORT_HYBRID_SEAL (R289): Seals a key in a Sundien hybrid transport block. -/
  | transportHybridSeal (k : Nat)
  /-- TRANSPORT_HYBRID_OPEN (R290): Opens a hybrid transport block into a target slot. -/
  | transportHybridOpen (k : Nat)
  /-- ATTEST_KEY (R293): Returns a signed attestation statement for a key. -/
  | attestKey (k : Nat)
  /-- ATTEST_MODULE (R293): Returns a signed attestation statement for the module. -/
  | attestModule (k : Nat)
  /-- DIGEST_BLOCKS (R376): Hashes host-supplied whole blocks, optionally resuming a state and extending a measurement register. -/
  | digestBlocks (k : Nat)
  /-- RANDOM_GET (R391): Returns bytes from the slice's DRBG instance. -/
  | randomGet (k : Nat)
  /-- MEASURE_EXTEND (R380): Claims and/or extends a measurement register at commit. -/
  | measureExtend (k : Nat)
  /-- MEASURE_READ (R381): Reads a measurement register at commit, optionally releasing it. -/
  | measureRead (k : Nat)
  /-- BTC_INVAL (R219): Removes one or all of the slice's pages from the buffer translation cache at commit. -/
  | btcInval (k : Nat)
  /-- CEREMONY_OPEN (R308): Creates a ceremony with id, nonce, expiry and ceremony key. -/
  | ceremonyOpen (k : Nat)
  /-- CEREMONY_APPROVE (R313): Checks a remote token or held card result and records an approval. -/
  | ceremonyApprove (k : Nat)
  /-- COMPONENT_ENTER (R316): Unwraps and accepts one key component as an approval. -/
  | componentEnter (k : Nat)
  /-- CEREMONY_CLOSE (R309): Moves a QUORATE ceremony to APPLYING and applies its action. -/
  | ceremonyClose (k : Nat)
  /-- CEREMONY_CANCEL (R309): Cancels an open or quorate ceremony. -/
  | ceremonyCancel (k : Nat)
  /-- CEREMONY_STATUS (R321): Returns the state and outcome of a ceremony. -/
  | ceremonyStatus (k : Nat)
  /-- REPLAY_RUN (R521): Re-runs one captured step and extends the session register with its result digest. -/
  | replayRun (k : Nat)
  /-- REPLAY_STATUS (R522): Returns the state of the slice's replay session. -/
  | replayStatus (k : Nat)
  /-- TAKE_OWNERSHIP (R318): At close, generates the owner root and splits it into shares to be written to every custodian card. -/
  | takeOwnership (k : Nat)
  /-- RESTORE (R320): At close, reconstructs the owner root from M shares and checks owner_fp and the roster. -/
  | restore (k : Nat)
  /-- BACKUP (R319): At close, resplits the owner root and writes new shares to card custodians. -/
  | backup (k : Nat)
  /-- ROSTER_CHANGE (R305): At close, replaces a domain's roster. -/
  | rosterChange (k : Nat)
  /-- SLICE_CREATE (R65): At close, creates a slice and its domain, leaving it ACTIVE with rings disabled and default policy. -/
  | sliceCreate (k : Nat)
  /-- SLICE_DELETE (R305): At close, erases every slot of a quiesced slice and removes it and its domain. -/
  | sliceDelete (k : Nat)
  /-- SLICE_REBIND (R63): At close, replaces a quiesced slice's port binding. -/
  | sliceRebind (k : Nat)
  /-- POLICY_GRANT (R328): At close, replaces a slice's policy record, refusing one whose minimum rates cannot be kept. -/
  | policyGrant (k : Nat)
  /-- COMPONENT_ENTRY (R317): At close, combines the accepted components into a new key in the target slot. -/
  | componentEntry (k : Nat)
  /-- OBJECT_ENTRY (R305): At close, writes an object of usage 61 to 64 into the target slot. -/
  | objectEntry (k : Nat)
  /-- FIRMWARE_ACTIVATE (R499): At close, one vault write sets every die's new slot in trial and starts rollout. -/
  | firmwareActivate (k : Nat)
  /-- LIFECYCLE_CHANGE (R472): At close, checks the authorisation, writes the life-cycle mark and runs the transition to ANALYSIS or SCRAP. -/
  | lifecycleChange (k : Nat)
  /-- RAW_SAMPLING (R392): At close, puts the named standby-die source into RAW and captures samples into the raw buffer. -/
  | rawSampling (k : Nat)
  /-- REPLAY (R520): At close, opens the module's replay session for the slice. -/
  | replay (k : Nat)
  /-- CEREMONY_EXPIRY (R310): NT reaching expires_nt commits the ceremony as EXPIRED, or discards an unwritten owner root. -/
  | ceremonyExpiry (ceremony : Nat)
  /-- CARD_SESSION_APPROVE (R315): A CUS_SESSION write with op 1 runs a card session of SELECT, GET_KEY and SIGN. -/
  | cardSessionApprove (who : Party) (port ceremony : Nat)
  /-- CARD_SESSION_COMPONENT (R315): A CUS_SESSION write with op 2 runs a card session that fetches a wrapped component. -/
  | cardSessionComponent (who : Party) (port ceremony : Nat)
  /-- CARD_SESSION_PUT_SHARE (R318): A CUS_SESSION write with op 3 writes a wrapped share to the card, recorded as an internal commit on success. -/
  | cardSessionPutShare (who : Party) (port ceremony : Nat)
  /-- CARD_SESSION_GET_SHARE (R320): A CUS_SESSION write with op 4 fetches a wrapped share from the card. -/
  | cardSessionGetShare (who : Party) (port ceremony : Nat)
  /-- CARD_SESSION_DONE (R315): A card session finishes and holds its sealed result at the port, or fails. -/
  | cardSessionDone (port cause : Nat) (point sig wrapped : List Byte)
  /-- CARD_SESSION_TIMEOUT (R315): A card session not finished within 2 s fails. -/
  | cardSessionTimeout (port : Nat)
  /-- CARD_RESULT_EXPIRY (R315): A held card result unconsumed for 60 s is discarded. -/
  | cardResultExpiry (port : Nat)
  /-- CARD_INSERTED (R530): C_PRES going low reports a card present and sets card_inserted. -/
  | cardInserted (port : Nat)
  /-- CARD_REMOVED (R530): C_PRES going high reports the card removed, failing any running session. -/
  | cardRemoved (port : Nat)
  /-- ADMIT_RECORD_APPLY (R429): The standby die applies an ADMIT record in mirror order and acknowledges it. -/
  | admitRecordApply
  /-- FRAME_RECORD_APPLY (R429): The standby die writes a FRAME record to its MRAM and acknowledges it. -/
  | frameRecordApply
  /-- COMMIT_RECORD_APPLY (R429): The standby die applies a COMMIT record in commit order, committing the request, and acknowledges it. -/
  | commitRecordApply
  /-- DELIVERED_RECORD_APPLY (R440): The standby die applies a DELIVERED record, covering the completions named in it. -/
  | deliveredRecordApply
  /-- JOURNAL_RECORD_APPLY (R506): A die writes a JOURNAL mirror record to its MRAM and acknowledges it. -/
  | journalRecordApply
  /-- CATCHUP_RECORD_APPLY (R31): A joining die applies a CATCHUP record and joins as standby when its commit sequence matches. -/
  | catchupRecordApply
  /-- MIRROR_RESEND (R427): A record unacknowledged 2 µs after sending on a half since faulty is resent on the other half. -/
  | mirrorResend (seq : Nat)
  /-- MIRROR_HALF_DOWN (R431): Loss of a mirror half is a path fault; loss of both takes the standby die out of service. -/
  | mirrorHalfDown (half : Nat) (lost : List Nat)
  /-- MIRROR_CREDIT_REQUEST (R444): Simultaneous receive-credit requests between the dies are granted to the token holder first. -/
  | mirrorCreditRequest (holder other : Bool)
  /-- HEARTBEAT (R432): An arbiter half receives a die's heartbeat on path P or Q, ending its run of misses or acting on a fatal state. -/
  | heartbeat (die : Die) (half : Nat) (pathQ : Bool) (count state : Nat)
  /-- HEARTBEAT_SLOT_MISS (R433): A 250 ns slot without a valid heartbeat counts a miss, and four on both paths declare the die silent. -/
  | heartbeatSlotMiss (die : Die) (half : Nat) (pathQ : Bool)
  /-- DIE_FATAL_DECLARED (R435): A die declares itself fatal by heartbeat state, leading to switchover or loss of the standby die. -/
  | dieFatalDeclared (die : Die)
  /-- SWITCHOVER_DECLARE (R438): The arbiter moves the token to the standby die, fences the old die and starts the gap. -/
  | switchoverDeclare
  /-- GAP_END (R439): The new active die finishes the gap steps, delivers owed completions and resumes fetching. -/
  | gapEnd (cycles : Nat)
  /-- SWO_PLANNED (R445): Writing SWO_CTL.planned makes the active die yield and send its final journal marker. -/
  | swoPlanned (who : Party)
  /-- PLANNED_MARKER (R445): The final marker arrives, or 20 µs pass, and the planned switchover is declared. -/
  | plannedMarker (timeout : Bool)
  /-- SWO_FORCE (R434): Writing SWO_CTL.force in HOLD and duplex forces a switchover. -/
  | swoForce (who : Party)
  /-- SWO_REJOIN (R443): Writing SWO_CTL.rejoin starts a further rejoin attempt of an out-of-service die. -/
  | swoRejoin (who : Party)
  /-- TEST_CHANNEL_CHECK (R436): Every 10 ms the arbiter checks both halves against a synthetic stream, entering HOLD on any fault. -/
  | testChannelCheck (shadowOk missedA missedB early : Bool)
  /-- DIE_START (R443): The warden restarts one compute die, which joins as standby if it passes its checks. -/
  | dieStart (die : Die) (ok : Bool) (ms : Nat)
  /-- NT_REF_CHECK (R416): Every 1 ms NT_REF's frequency is measured and its acceptance decided, making trust UNTRUSTED on loss. -/
  | ntRefCheck (accepted : Bool)
  /-- PPS_EDGE (R418): An accepted NT_PPS edge is timestamped and applied, counted as outlier, stepped or ignored. -/
  | ppsEdge (nt : Nat)
  /-- NTU_NEXT_PULSE (R417): Writing NTU_NEXT_PULSE arms a label for the first accepted edge at least 10 ms later. -/
  | ntuNextPulse (who : Party) (value : Word)
  /-- NTU_DISTRUST (R420): Writing NTU_CTL.distrust makes trust UNTRUSTED. -/
  | ntuDistrust (who : Party) (ctl : Word)
  /-- TRUST_TIMER_EXPIRY (R420): 1.5 s without an edge, 64 s without a label, the bound passing 50 µs or 24 h in HOLDOVER changes trust. -/
  | trustTimerExpiry (cause : Nat)
  /-- NT_FLOOR_WRITE (R425): At every whole second of NT the NTU writes NT to the vault floor. -/
  | ntFloorWrite
  /-- HAZARD_REPORT (R451): A Levee detector reports a hazard, confirmed by its partner or by a degraded pair. -/
  | hazardReport (hazard : Nat) (site : Site) (a b : Bool) (nets : Nat)
  /-- DETECTOR_FAULT (R451): A report without its partner within the confirmation time is a detector fault, journalled and not counted. -/
  | detectorFault (pair : Nat)
  /-- PAIR_DEGRADED (R452): One detector reporting alone for 1 ms degrades the pair and confirms the occurrence. -/
  | pairDegraded (hazard : Nat) (site : Site)
  /-- DETECTOR_SELFTEST (R453): Every 60 s of NT each detector is tested with a stimulus, failures degrading the pair. -/
  | detectorSelftest (failed : List (Nat × Bool))
  /-- HAZARD_RESPONSE (R454): An immediate hazard at confirmation, or a counted hazard reaching its window threshold, responds at its tier. -/
  | hazardResponse
  /-- THROTTLE_END (R459): throttle_ms after the latest response the Levee throttle ends. -/
  | throttleEnd
  /-- BROWN_OUT (R456): An undervoltage on a main-domain rail ends service as VIN loss and masks main-domain hazards. -/
  | brownOut
  /-- LEVEE_CONFIG_WRITE (R466): A write to LEV_CTL or LEV_HAZ_h is clamped and, in OWNED, discarded whole if it loosens anything. -/
  | leveeConfigWrite (who : Party) (inst off : Nat) (data : Word)
  /-- AO_FLAG_CLEAR (R467): The warden clears an always-on flag once its journal record is held on both MRAM dies. -/
  | aoFlagClear (hazard : Nat)
  /-- NOISE_BLOCK_FAIL (R385): A health-test failure discards the block and restarts the source or makes it FATAL on the fourth within 1 s. -/
  | noiseBlockFail (die : Die) (source : Nat) (rct apt : Bool)
  /-- SOURCE_RESTART_EXPIRY (R385): The 10 µs hold-off ends and the source enters STARTUP. -/
  | sourceRestartExpiry (die : Die) (source : Nat)
  /-- SOURCE_STARTUP_DONE (R385): A source's start-up test over 1,024 samples passes and it becomes RUNNING. -/
  | sourceStartupDone (die : Die) (source : Nat)
  /-- SEED_CONDITIONED (R387): The conditioner hashes 1,024 debiased bits into a seed for the die's buffer. -/
  | seedConditioned (die : Die) (blocks : List (List Byte))
  /-- SEED_WAIT_TIMEOUT (R390): A generate call waiting 50 µs for a seed ends its step with ST_RNG_UNAVAILABLE. -/
  | seedWaitTimeout (k : Nat)
  /-- RNG_DIE_CTL_WRITE (R386): A write to RNG_DIE_CTL takes effect at the next block boundary and empties the seed buffer. -/
  | rngDieCtlWrite (who : Party) (die : Die) (value : Word)
  /-- RNG_RAW_DATA_READ (R393): A read of RNG_RAW_DATA returns the next 64 samples and ends sampling at the last word. -/
  | rngRawDataRead (who : Party) (die : Die)
  /-- RAW_SAMPLING_END (R393): 600 s after ready, a switchover or a start, raw sampling ends, zeroising the buffer. -/
  | rawSamplingEnd (die : Die)
  /-- SRAM_UNCORRECTABLE (R400): An uncorrectable SRAM word is handled according to its region. -/
  | sramUncorrectable (die : Die) (addr owner : Nat) (bothCopies : Bool)
  /-- SRAM_PATROL_FORCED (R399): A bank without a free cycle for 1 µs gives the patrol a cycle on port 1. -/
  | sramPatrolForced (die : Die) (bank : Nat) (accesses : List SramAccess)
  /-- ROW_REPLACE (R401): A marked row is copied into a spare row of its group and remapped. -/
  | rowReplace (die : Die) (bank row : Nat)
  /-- POOL_UNCORRECTABLE (R345): An uncorrectable Pool cell error is repaired, dropped or restored from the standby die. -/
  | poolUncorrectable (die : Die) (addr : Nat)
  /-- MPU_PRECISE_TRAP (R407): A refused load, refused unbuffered store or unaligned access traps precisely and ends the request. -/
  | mpuPreciseTrap (k kind addr pc : Nat)
  /-- MPU_BUFFERED_STORE_REFUSED (R408): A buffered store refused as it drains is discarded and the request ends at its next boundary. -/
  | mpuBufferedStoreRefused (k : Nat) (stores : List (Nat × List Byte))
  /-- INTEGRITY_MISMATCH (R412): A flit failing its integrity code is discarded and requested again. -/
  | integrityMismatch (die : Die) (flit retry : Flit)
  /-- INTEGRITY_SECOND_MISMATCH (R413): A second mismatch on one flit has the outcome of Table 8 for its transfer. -/
  | integritySecondMismatch (die : Die) (flit : Flit) (kind index : Nat) (who : Party)
  /-- POL_QREAD0_READ (R349): A read of POL_QREAD0 removes the head item of a queue and latches its words. -/
  | polQread0Read (who : Party) (die : Die)
  /-- POL_FLUSH (R349): Writing POL_FLUSH empties the selected overwrite-oldest queue and counts lost items. -/
  | polFlush (who : Party) (die : Die)
  /-- UNIT_SELFTEST (R447): A unit's self-test in the rolling 60 s cycle ends, passing or failing. -/
  | unitSelftest (die : Die) (kind inst : Nat) (pass last : Bool)
  /-- UNIT_FAILED (R448): A unit failing leaves service, its step is re-executed and a spare is substituted at the quiescent point. -/
  | unitFailed (die : Die) (kind inst : Nat)
  /-- SPARE_SUBSTITUTED (R448): A spare replaces a failed unit and the health report is updated. -/
  | spareSubstituted (die : Die) (kind : Nat)
  /-- GOVERNOR_SAMPLE (R542): Every 1 ms the governor samples lids, junctions and power and applies or removes throttle steps. -/
  | governorSample (lid0 lid1 temp : Int) (power : Nat)
  /-- GOVERNOR_STEP_REMOVAL (R542): After the cap lifts, remaining steps are removed one every 10 ms. -/
  | governorStepRemoval
  /-- VIN_ARRIVAL (R533): VIN within rating with the always-on domain started brings up the main rails and starts a cold start. -/
  | vinArrival
  /-- VIN_LOSS (R534): VIN out of range for 2 µs ends service as R27 and powers down the main domain. -/
  | vinLoss
  /-- POWER_DOWN_DONE (R534): A main-domain power-down ends within 5 ms. -/
  | powerDownDone
  /-- VAUX_LOSS (R535): VAUX below 3.0 V for 2 µs changes the always-on domain to VBAT and ends service. -/
  | vauxLoss
  /-- VAUX_RETURN (R425): VAUX within rating for 5 ms starts the always-on domain, resumes NT at the floor and makes trust UNTRUSTED. -/
  | vauxReturn
  /-- ALWAYS_ON_POWER_LOST (R536): VBAT falling below rating with VAUX absent zeroises the secret region and loses the kept region. -/
  | alwaysOnPowerLost
  /-- COLD_START (R486): The full start sequence runs from VIN arrival to service. -/
  | coldStart (report : StartReport)
  /-- WARM_START (R486): A warm start, after quiesce where required, runs the start sequence without the SRAM test and MRAM scan. -/
  | warmStart (report : StartReport)
  /-- QUIESCE_END (R485): 10 ms after quiesce begins, uncommitted requests end with ST_SLICE_RESET and the start proceeds. -/
  | quiesceEnd
  /-- START_FAILED (R491): A failed start is recorded and retried by a warm start, or enters recovery mode on the third within 600 s. -/
  | startFailed (lockstep : Bool)
  /-- WDN_WARM (R485): Writing WDN_CTL.warm requests a warm start with quiesce. -/
  | wdnWarm (who : Party)
  /-- WDN_RECOVER (R493): Writing WDN_CTL.recover in recovery mode requests a warm start into the named slots. -/
  | wdnRecover (who : Party) (slot0 slot1 : Bool)
  /-- WDN_CONFIRM (R501): Writing WDN_CTL.confirm in the window clears the trial flag and sets the anti-rollback burn phase. -/
  | wdnConfirm (who : Party)
  /-- CONFIRM_WINDOW_EXPIRY (R501): NT reaching the activation NT plus 600 s without confirmation rolls the firmware back. -/
  | confirmWindowExpiry
  /-- TRIAL_BOOT_FAILED (R500): A trial boot not reaching service is counted, and a second failure rolls back. -/
  | trialBootFailed
  /-- ANTI_ROLLBACK_BURN (R502): In phase BURN the warden burns and verifies the next anti-rollback word. -/
  | antiRollbackBurn (ok : Bool)
  /-- FWU_DL_OPEN (R497): Writing FWU_DL_CTL.open empties the inactive slot and starts a download of the given length. -/
  | fwuDlOpen (who : Party) (die : Die) (length : Nat)
  /-- FWU_DL_DATA (R497): An 8-byte write to FWU_DL_DATA appends the next bytes of the image. -/
  | fwuDlData (who : Party) (die : Die) (data : Word)
  /-- FWU_DL_CLOSE (R496): Writing FWU_DL_CTL.close ends the download and stages a complete slot. -/
  | fwuDlClose (who : Party) (die : Die)
  /-- FWU_DL_VERIFY (R498): Writing FWU_DL_CTL.verify starts verification of a STAGED slot. -/
  | fwuDlVerify (who : Party) (die : Die)
  /-- FWU_VERIFY_DONE (R498): Verification ends and the slot becomes VERIFIED or REFUSED. -/
  | fwuVerifyDone (die : Die)
  /-- LCC_AUTH_RESET (R471): Writing LCC_AUTH_CTL.reset empties the authorisation staging buffer. -/
  | lccAuthReset (who : Party)
  /-- LCC_AUTH_DATA (R471): A write to LCC_AUTH_DATA appends 8 bytes of the authorisation. -/
  | lccAuthData (who : Party) (data : Word)
  /-- LCC_TOKEN_WRITE (R473): A write to LCC_TOKEN_n stages 8 bytes of a test token. -/
  | lccTokenWrite (who : Party) (n : Nat) (data : Word)
  /-- LCC_TRANSITION (R471): Writing LCC_TRANSITION requests a life-cycle transition, checked by the warden. -/
  | lccTransition (who : Party) (data : Word)
  /-- LCC_CHECK_DONE (R471): The warden finishes checking the request within 50 ms, setting LCC_RESULT and running the transition if accepted. -/
  | lccCheckDone (ok spareOk : Bool)
  /-- TRANSITION_PHASE (R475): A transition runs its WIPE, BURN, ROOT and clear phases under its life-cycle mark, then a warm start. -/
  | transitionPhase (ok spareOk : Bool)
  /-- FUS_POLICY_BURN (R484): Writing FUS_POLICY_BURN burns the lowest blank policy word in FACTORY or SHIPPED. -/
  | fusPolicyBurn (who : Party) (forbid : Word)
  /-- FUSE_TEMP_SENSE (R481): Every 100 ms the warden re-senses the fuses if temperature moved over 20 °C, warm-starting on a changed restrictive meaning. -/
  | fuseTempSense (temp : Int) (done : Bool) (reads : List FuseRead)
  /-- FUSE_SPARE_REWRITE (R482): A marginal or ambiguous restrictive word is rewritten into its spare under a fuse mark. -/
  | fuseSpareRewrite (done ok : Bool)
  /-- JOURNAL_EVENT (R507): An event is staged, merged into the continuation or summarised for the journal. -/
  | journalEvent (code severity source : Nat) (slice : Option Nat) (detail : List Byte)
  /-- JOURNAL_WRITE_DONE (R506): A journal record write ends on both MRAM dies and the next record is chosen. -/
  | journalWriteDone
  /-- EPOCH_CLOSE (R512): At each epoch multiple or NT step the histogram banks swap and epoch and carry records are written. -/
  | epochClose
  /-- TEMPERATURE_SECOND (R513): Every second of elapsed NT with VIN present adds one second to a time-at-temperature bin. -/
  | temperatureSecond (temp : Int) (vinMv vauxMv vbatMv : Nat)
  /-- REPLAY_SESSION_END (R520): A replay session ends after run_limit runs, 3,600 s, deletion of its slice or a start. -/
  | replaySessionEnd
  /-- BATTERY_LOW (R535): VBAT falling below 2.7 V while VAUX is present raises the battery_low event on LEV instance 3 without any hazard response. -/
  | batteryLow (vbatMv : Nat)
  /-- RAW_SAMPLES_CAPTURED (R393): When count samples have been captured, RNG_RAW_STAT.state becomes ready, raw_ready is set and the 600 s read window begins. -/
  | rawSamplesCaptured (die : Die) (blocks : List (List Byte))
  /-- PATROL_PASS (R399): The SRAM and Pool patrol reads, corrects and rewrites words in free bank cycles, completing a pass every 100 ms, counting corrections and passes and marking rows for replacement. -/
  | patrolPass (die : Die) (fixes : List (Nat × Bool))
  /-- MSI_X_VECTOR_UNMASK (R45): Unmasking an MSI-X vector whose pending bit is set sends the held page or ring message, as PCIe defines. -/
  | msiXVectorUnmask (port : Port) (fn vector : Nat)
deriving DecidableEq, Repr

end Sys2Proof
end

