-- ==== Sys2Proof/Config.lean ====
section
/-!
DEFINITION. What an implementation fixes and the specification leaves open: constants and functions without a body.
A claim is true whatever they are.
-/
namespace Sys2Proof.Config

/-- The n-th free value of a run: the specification states no value there (log entry 2). -/
opaque freeValue : Nat → Nat

/-- Bytes that a port carries in 4 ms at a trained speed and width (R228): the manual gives no exact figure (log entry 29). -/
opaque portCarries (speed width : Nat) : Nat

/-- The protection rule of a step's yield area, of a slice's stream states, and the rules 12 to 15 of the firmware
constants: the manual gives no addresses (log entry 27). -/
opaque yieldRule (k : Nat) : Word
opaque streamRule (slice : Nat) : Word
opaque constantRule (i : Nat) : Word

/-- The exportability character in the header of the key block that DUKPT_INITIAL_KEY returns (log entry 21). -/
opaque initialKeyExport : Byte
/-- What the header and key bytes of an X9.143 block name where they carry an asymmetric key: algorithm code, class
and material in the form of Table 4 of the key-store chapter (log entry 22). -/
opaque asymBlock (header key : Bytes) : Option (Nat × Nat × Bytes)
/-- The charge in work units of a BNL row whose handle names no key that Table 7 of the request chapter lists
(log entry 10). -/
opaque bnlChargeUnknown (op : Nat) : Nat

/-! TR-34 tokens and X.509 certificates, whose encodings the manual names by their standards (log entry 23). -/

/-- The parts of an X.509 certificate: what its issuer signs, the scheme, hash code and bytes of the signature (schemes of
Table 6 of the public-key chapter), the subject's public key, and notBefore and notAfter as NT. -/
structure Cert where
  signed    : Bytes
  scheme    : Nat
  hash      : Nat
  signature : Bytes
  alg       : Nat
  key       : Bytes
  notBefore : Nat
  notAfter  : Nat
deriving DecidableEq, Repr

/-- The parts of a TR-34 token: its KDH certificate; the signed attributes, with the random number of a two-pass token and the
signing time of a one-pass one (NT); the content that their digest covers, and that digest; the signature's scheme and bytes; the
transported content-encryption key; the algorithm code, initial value and cipher text of the enveloped content. -/
structure Token where
  cert      : Cert
  attrs     : Bytes
  random    : Bytes
  time      : Nat
  content   : Bytes
  digest    : Bytes
  scheme    : Nat
  signature : Bytes
  wrapped   : Bytes
  cipher    : Nat
  iv        : Bytes
  body      : Bytes
deriving DecidableEq, Repr

/-- The parts that a certificate's or a token's encoding holds. -/
opaque certOf (cert : Bytes) : Option Cert
opaque tokenOf (token : Bytes) : Option Token
/-- The key block header, optional blocks and key that a deciphered content holds, with the header that its signed attributes
repeat. -/
opaque contentOf (content attrs : Bytes) : Option (Bytes × List (Bytes × Bytes) × Bytes)
/-- The encodings that TR34_EXPORT builds: the content from header fields, key and drawn padding, and the initial value of its CBC,
for which the manual names no draw; the enveloped content from the recipient's key,
transported key, initial value and cipher text; the signed attributes from the digest of that, header fields, auth fields and NT;
the token from the certificate, the enveloped content, the attributes and the signature. -/
opaque contentBytes (fields key cert padding : Bytes) : Bytes
opaque contentIv (drawn : Bytes) : Bytes
opaque envelopeBytes (krd wrapped iv body : Bytes) : Bytes
opaque attrBytes (digest fields auth : Bytes) (nt : Nat) : Bytes
opaque tokenBytes (cert envelope attrs signature : Bytes) : Bytes
/-- The public keys of the Sundien life-cycle authority, which the warden ROM holds (R470): a P-384 point and an
ML-DSA-65 key. The manual does not give them (log entry 24). -/
opaque lifeAuthorityEc : Bytes
opaque lifeAuthorityDsa : Bytes
/-- The public keys of the firmware signer (R495), a P-384 point and an ML-DSA-87 key (log entry 24). -/
opaque firmwareSignerEc : Bytes
opaque firmwareSignerDsa : Bytes

/-- The seven check bits that a fuse copy carries over its bits [24:0] (R477). The manual names a SECDED code and not its
matrix (log entry 30). -/
opaque fuseCheck (v : Nat) : BitVec 7

/-- The eight check bits of a 64-bit word of the SRAM (R344, R398): the manual names a SECDED code and not its matrix. -/
opaque checkBits (v : BitVec 64) : BitVec 8

/-- Bytes 16 to 47 of a staged journal event's Pool item, by code and NT, which the manual leaves to the queue's owner (R346). -/
opaque stagedTail (code nt : Nat) : List (BitVec 8)

/-- First slot and number of slots of the key range of slice 0, which no ceremony of the manual sets (log entry 31). -/
opaque sliceZeroBase : Nat
opaque sliceZeroCount : Nat

/-- SHA-384 of the warden ROM (R490; log entry 32). -/
opaque romDigest : Bytes

end Sys2Proof.Config
end

