-- ==== Sys2Proof/Machine/Bits.lean ====
section
/-!
DEFINITION. Bit fields of registers, and the two byte orders of R14 (little-endian) and R15 (big-endian).
-/
namespace Sys2Proof.Machine

/-- The field of `n` bits at bit `lo` of a word, as a number. -/
def getF (w : Word) (lo n : Nat) : Nat := (w.toNat >>> lo) % 2 ^ n

/-- The word with the field of `n` bits at bit `lo` replaced by `v` (cut to `n` bits). -/
def setF (w : Word) (lo n v : Nat) : Word :=
  (w &&& ~~~(BitVec.ofNat 64 ((2 ^ n - 1) <<< lo))) ||| BitVec.ofNat 64 ((v % 2 ^ n) <<< lo)

/-- A word holding one field. -/
def fld (lo n v : Nat) : Word := BitVec.ofNat 64 ((v % 2 ^ n) <<< lo)

/-- A word holding one flag bit. -/
def flag (lo : Nat) (b : Bool) : Word := if b then BitVec.ofNat 64 (1 <<< lo) else 0

/-- Bit `i` of a word. -/
def bitOf (w : Word) (i : Nat) : Bool := w.getLsbD i

/-- A mask of the bits `lo` to `lo + n - 1`. -/
def mask (lo n : Nat) : Word := BitVec.ofNat 64 ((2 ^ n - 1) <<< lo)

/-- The field raised by `k`, stopping at its largest value. -/
def bumpF (w : Word) (lo n k : Nat) : Word := setF w lo n (min (getF w lo n + k) (2 ^ n - 1))

/-- `n` bytes of a number, least significant first (R14). -/
def leBytes (n v : Nat) : Bytes :=
  match n with
  | 0 => []
  | m + 1 => BitVec.ofNat 8 v :: leBytes m (v / 256)

/-- The number that bytes spell, least significant first (R14). -/
def ofLe (bs : Bytes) : Nat :=
  match bs with
  | [] => 0
  | b :: r => b.toNat + 256 * ofLe r

/-- `n` bytes of a number, most significant first (R15). -/
def beBytes (n v : Nat) : Bytes := (leBytes n v).reverse

/-- The number that bytes spell, most significant first (R15). -/
def ofBe (bs : Bytes) : Nat := bs.foldl (fun a b => a * 256 + b.toNat) 0

/-- Bytes `lo` to `lo + n - 1` of a string (fewer where it ends sooner). -/
def cut (bs : Bytes) (lo n : Nat) : Bytes := (bs.drop lo).take n

/-- Byte `i` of a string as a number; 0 beyond its end. -/
def byteAt (bs : Bytes) (i : Nat) : Nat := (bs.getD i 0).toNat

/-- `n` zero bytes. -/
def zeros (n : Nat) : Bytes := List.replicate n 0

/-- A string cut or filled with zero bytes to `n` bytes. -/
def padTo (n : Nat) (bs : Bytes) : Bytes := (bs ++ zeros n).take n

/-- The little-endian integer at bytes `lo` to `lo + n - 1`. -/
def leAt (bs : Bytes) (lo n : Nat) : Nat := ofLe (cut bs lo n)

/-- The big-endian integer at bytes `lo` to `lo + n - 1`. -/
def beAt (bs : Bytes) (lo n : Nat) : Nat := ofBe (cut bs lo n)

/-- The bytes of an ASCII string. -/
def ascii (t : String) : Bytes := t.toList.map (fun c => BitVec.ofNat 8 c.toNat)

/-- Bytewise exclusive or, as long as the shorter string. -/
def xorB (a b : Bytes) : Bytes := List.zipWith (fun x y => x ^^^ y) a b

/-- All bytes are zero. -/
def allZero (bs : Bytes) : Bool := bs.all (fun b => b == 0)

/-- `a` divided by `b`, rounded up. -/
def ceilDiv (a b : Nat) : Nat := (a + b - 1) / b

/-- A string cut into pieces of `n` bytes; the last may be shorter. -/
def chunksOf (n : Nat) (fuel : Nat) (bs : Bytes) : List Bytes :=
  match fuel with
  | 0 => []
  | f + 1 => if bs.isEmpty then [] else bs.take n :: chunksOf n f (bs.drop n)

/-- A string cut into pieces of `n` bytes. -/
def chunks (n : Nat) (bs : Bytes) : List Bytes := chunksOf n (bs.length + 1) bs

/-- CRC-32C, reflected, initial value and final exclusive-OR of all ones. -/
def crc32c (bs : Bytes) : Nat :=
  Nat.xor 0xFFFFFFFF (bs.foldl (fun c b =>
    (List.range 8).foldl (fun x _ => if x % 2 = 1 then Nat.xor (x / 2) 0x82F63B78 else x / 2) (Nat.xor c b.toNat)) 0xFFFFFFFF)

/-- The numbers of a list in ascending order, each once. -/
def ascending (l : List Nat) : List Nat :=
  l.foldl (fun a x => a.filter (fun y => decide (y < x)) ++ [x] ++ a.filter (fun y => decide (x < y))) []

/-- A list without repeats: the first of each. -/
def distinct (l : List Nat) : List Nat := l.foldl (fun a x => if a.contains x then a else a ++ [x]) []

end Sys2Proof.Machine
end

