-- ==== Sys2Proof/Machine/Cipher.lean ====
section
/-!
DEFINITION. The block ciphers of the cipher lanes and pipelines (R364, R365, R368): AES of FIPS 197, DES and TDES,
and the modes that firmware composes from them: ECB, CBC, CTR, CMAC of SP 800-38B, the keyed check values of
ISO/IEC 9797-1, and AES key wrap. The manual names these ciphers; their definitions are the standards' (log entry 6).
-/
namespace Sys2Proof.Machine

/-! ### AES -/

/-- The S-box, byte i at bits 8i to 8i + 7. -/
def aesSbox : Nat :=
  0x16bb54b00f2d99416842e6bf0d89a18cdf2855cee9871e9b948ed9691198f8e19e1dc186b95735610ef6034866b53e708a8bbd4b1f74dde8c6b4a61c2e2578ba08ae7a65eaf4566ca94ed58d6d37c8e779e4959162acd3c25c2406490a3a32e0db0b5ede14b8ee4688902a22dc4f816073195d643d7ea7c41744975fec130ccdd2f3ff1021dab6bcf5389d928f40a351a89f3c507f02f94585334d43fbaaefd0cf584c4a39becb6a5bb1fc20ed00d153842fe329b3d63b52a05a6e1b1a2c830975b227ebe28012079a059618c323c7041531d871f1e5a534ccf73f362693fdb7c072a49cafa2d4adf04759fa7dc982ca76abd7fe2b670130c56f6bf27b777c63

/-- The inverse S-box. -/
def aesInvSbox : Nat :=
  0x7d0c2155631469e126d677ba7e042b17619953833cbbebc8b0f52aae4d3be0a0ef9cc9939f7ae52d0d4ab519a97f51605fec8027591012b131c7078833a8dd1ff45acd78fec0db9a2079d2c64b3e56fc1bbe18aa0e62b76f89c5291d711af1476edf751ce837f9e28535ade72274ac9673e6b4f0cecff297eadc674f4111913a6b8a130103bdafc1020f3fca8f1e2cd00645b3b80558e4f70ad3bc8c00abd890849d8da75746155edab9edfd5048706c92b6655dcc5ca4d41698688664f6f87225d18b6d49a25b76b224d92866a12e084ec3fa420b954cee3d23c2a632947b54cbe9dec444438e3487ff2f9b8239e37cfbd7f3819ea340bf38a53630d56a0952

def subB (t : Nat) (b : Byte) : Byte := BitVec.ofNat 8 (t >>> (8 * b.toNat))

/-- Multiplication by x in GF(2^8). -/
def xtime (b : Byte) : Byte := (b <<< 1) ^^^ (if b.getLsbD 7 then 0x1B else 0)

/-- Multiplication in GF(2^8) by a constant of at most `n` bits. -/
def gfMul (n : Nat) (c : Nat) (b : Byte) : Byte :=
  match n with
  | 0 => 0
  | m + 1 => (if c % 2 = 1 then b else 0) ^^^ gfMul m (c / 2) (xtime b)

/-- One column times a circulant row of MixColumns. -/
def mixCol (c0 c1 c2 c3 : Nat) (col : Bytes) : Bytes :=
  match col with
  | [a, b, c, d] =>
    [gfMul 4 c0 a ^^^ gfMul 4 c1 b ^^^ gfMul 4 c2 c ^^^ gfMul 4 c3 d,
     gfMul 4 c3 a ^^^ gfMul 4 c0 b ^^^ gfMul 4 c1 c ^^^ gfMul 4 c2 d,
     gfMul 4 c2 a ^^^ gfMul 4 c3 b ^^^ gfMul 4 c0 c ^^^ gfMul 4 c1 d,
     gfMul 4 c1 a ^^^ gfMul 4 c2 b ^^^ gfMul 4 c3 c ^^^ gfMul 4 c0 d]
  | _ => col

def mixColumns (b : Bytes) : Bytes := ((chunks 4 b).map (mixCol 2 3 1 1)).flatten
def invMixColumns (b : Bytes) : Bytes := ((chunks 4 b).map (mixCol 14 11 13 9)).flatten

/-- Bytes of a block taken in the order of a list of positions. -/
def pick (pos : List Nat) (b : Bytes) : Bytes := pos.map (fun i => b.getD i 0)

def shiftRows (b : Bytes) : Bytes := pick [0, 5, 10, 15, 4, 9, 14, 3, 8, 13, 2, 7, 12, 1, 6, 11] b
def invShiftRows (b : Bytes) : Bytes := pick [0, 13, 10, 7, 4, 1, 14, 11, 8, 5, 2, 15, 12, 9, 6, 3] b

/-- The next `fuel` words of the key schedule; `acc` holds the words so far, newest first. -/
def aesExpand (nk i : Nat) (rcon : Byte) (acc : List Bytes) (fuel : Nat) : List Bytes :=
  match fuel with
  | 0 => acc.reverse
  | f + 1 =>
    let t := acc.headD []
    let t' :=
      if i % nk = 0 then
        let r := (pick [1, 2, 3, 0] t).map (subB aesSbox)
        xorB r (rcon :: zeros 3)
      else if nk = 8 ∧ i % nk = 4 then t.map (subB aesSbox)
      else t
    let w := xorB (acc.getD (nk - 1) []) t'
    aesExpand nk (i + 1) (if i % nk = 0 then xtime rcon else rcon) (w :: acc) f

/-- The round keys of an AES key of 16, 24 or 32 bytes. -/
def aesRoundKeys (key : Bytes) : List Bytes :=
  let nk := key.length / 4
  (chunks 16 (aesExpand nk nk 1 (chunks 4 key).reverse (4 * (nk + 7) - nk)).flatten)

def aesEncRounds (ks : List Bytes) (b : Bytes) : Bytes :=
  match ks with
  | [] => b
  | [k] => xorB (shiftRows (b.map (subB aesSbox))) k
  | k :: r => aesEncRounds r (xorB (mixColumns (shiftRows (b.map (subB aesSbox)))) k)

/-- AES enciphers one block. -/
def aesEnc (key b : Bytes) : Bytes :=
  match aesRoundKeys key with
  | [] => b
  | k :: r => aesEncRounds r (xorB b k)

def aesDecRounds (ks : List Bytes) (b : Bytes) : Bytes :=
  match ks with
  | [] => b
  | [k] => xorB ((invShiftRows b).map (subB aesInvSbox)) k
  | k :: r => aesDecRounds r (invMixColumns (xorB ((invShiftRows b).map (subB aesInvSbox)) k))

/-- AES deciphers one block. -/
def aesDec (key b : Bytes) : Bytes :=
  match (aesRoundKeys key).reverse with
  | [] => b
  | k :: r => aesDecRounds r (xorB b k)

/-! ### DES and TDES -/

/-- Bits of a `w`-bit number taken in the order of a table, bit 1 the most significant. -/
def permute (tab : List Nat) (w v : Nat) : Nat := tab.foldl (fun a p => a * 2 + (v >>> (w - p)) % 2) 0

def desIp : List Nat :=
  [58, 50, 42, 34, 26, 18, 10, 2, 60, 52, 44, 36, 28, 20, 12, 4]
  ++ [62, 54, 46, 38, 30, 22, 14, 6, 64, 56, 48, 40, 32, 24, 16, 8]
  ++ [57, 49, 41, 33, 25, 17, 9, 1, 59, 51, 43, 35, 27, 19, 11, 3]
  ++ [61, 53, 45, 37, 29, 21, 13, 5, 63, 55, 47, 39, 31, 23, 15, 7]

def desFp : List Nat :=
  [40, 8, 48, 16, 56, 24, 64, 32, 39, 7, 47, 15, 55, 23, 63, 31]
  ++ [38, 6, 46, 14, 54, 22, 62, 30, 37, 5, 45, 13, 53, 21, 61, 29]
  ++ [36, 4, 44, 12, 52, 20, 60, 28, 35, 3, 43, 11, 51, 19, 59, 27]
  ++ [34, 2, 42, 10, 50, 18, 58, 26, 33, 1, 41, 9, 49, 17, 57, 25]

def desE : List Nat :=
  [32, 1, 2, 3, 4, 5, 4, 5, 6, 7, 8, 9, 8, 9, 10, 11]
  ++ [12, 13, 12, 13, 14, 15, 16, 17, 16, 17, 18, 19, 20, 21, 20, 21]
  ++ [22, 23, 24, 25, 24, 25, 26, 27, 28, 29, 28, 29, 30, 31, 32, 1]

def desP : List Nat :=
  [16, 7, 20, 21, 29, 12, 28, 17, 1, 15, 23, 26, 5, 18, 31, 10]
  ++ [2, 8, 24, 14, 32, 27, 3, 9, 19, 13, 30, 6, 22, 11, 4, 25]

def desPc1 : List Nat :=
  [57, 49, 41, 33, 25, 17, 9, 1, 58, 50, 42, 34, 26, 18]
  ++ [10, 2, 59, 51, 43, 35, 27, 19, 11, 3, 60, 52, 44, 36]
  ++ [63, 55, 47, 39, 31, 23, 15, 7, 62, 54, 46, 38, 30, 22]
  ++ [14, 6, 61, 53, 45, 37, 29, 21, 13, 5, 28, 20, 12, 4]

def desPc2 : List Nat :=
  [14, 17, 11, 24, 1, 5, 3, 28, 15, 6, 21, 10, 23, 19, 12, 4]
  ++ [26, 8, 16, 7, 27, 20, 13, 2, 41, 52, 31, 37, 47, 55, 30, 40]
  ++ [51, 45, 33, 48, 44, 49, 39, 56, 34, 53, 46, 42, 50, 36, 29, 32]

/-- The S-boxes, row by row; entry i at bits 4i to 4i + 3. -/
def desS : List Nat :=
  [0xd60ae3b5719428cf05a379cfb26d8e148359bc6a1d2e47f07095c6a38bf21d4e,
   0x9e50c76b24f31a8df2396c851d4ab7e05b96a10ce82f74d3a50cd27943b6e81f,
   0xc25b3ef478960da17ea5c21b03f8946d1fbce582a643907d824b7cd15f36e90a,
   0xe27cb5498d1a60f34825e31fd7bc096a9ea1c27430f65b8df4cb5821a9603ed7,
   0x354a90f6d2e17c8be0365c9f87dab1246893af051d74c2be9e0df3586ba714c2,
   0xd80671ebaf59c2346bd1a4073c825fe983b0ed1659c724fab57e43d08629fa1c,
   0xc32ef0597a418db6295086fae73cdb4168f2c53ea1947b0d16a579c3d80fe2b4,
   0xb65309cfd8a47e12853fda602ec914b729e0b65c473a8df17c05e39a1bf6482d]

/-- S-box `n` on six bits. -/
def desSbox (n x : Nat) : Nat :=
  let row := (x >>> 5) % 2 * 2 + x % 2
  let col := (x >>> 1) % 16
  (desS.getD n 0 >>> (4 * (16 * row + col))) % 16

/-- The round function. -/
def desF (r k : Nat) : Nat :=
  let x := Nat.xor (permute desE 32 r) k
  permute desP 32 ((List.range 8).foldl (fun a i => a * 16 + desSbox i ((x >>> (42 - 6 * i)) % 64)) 0)

def rot28 (v n : Nat) : Nat := (v <<< n ||| v >>> (28 - n)) % 2 ^ 28

/-- The sixteen round keys. -/
def desKeys (c d : Nat) (shifts : List Nat) : List Nat :=
  match shifts with
  | [] => []
  | n :: r =>
    let c := rot28 c n
    let d := rot28 d n
    permute desPc2 56 (c <<< 28 ||| d) :: desKeys c d r

def desSchedule (key : Bytes) : List Nat :=
  let k := permute desPc1 64 (ofBe key)
  desKeys (k >>> 28) (k % 2 ^ 28) [1, 1, 2, 2, 2, 2, 2, 2, 1, 2, 2, 2, 2, 2, 2, 1]

def desRounds (ks : List Nat) (l r : Nat) : Nat :=
  match ks with
  | [] => r <<< 32 ||| l
  | k :: t => desRounds t r (Nat.xor l (desF r k))

def desBlock (ks : List Nat) (b : Bytes) : Bytes :=
  let x := permute desIp 64 (ofBe b)
  beBytes 8 (permute desFp 64 (desRounds ks (x >>> 32) (x % 2 ^ 32)))

/-- Single DES on one block. -/
def desEnc (key b : Bytes) : Bytes := desBlock (desSchedule key) b
def desDec (key b : Bytes) : Bytes := desBlock (desSchedule key).reverse b

/-- TDES with a key of 16 or 24 bytes: K1, K2 and, for 24 bytes, K3, else K1 again. -/
def tdesK3 (key : Bytes) : Bytes := if key.length = 24 then cut key 16 8 else cut key 0 8
def tdesEnc (key b : Bytes) : Bytes := desEnc (tdesK3 key) (desDec (cut key 8 8) (desEnc (cut key 0 8) b))
def tdesDec (key b : Bytes) : Bytes := desDec (cut key 0 8) (desEnc (cut key 8 8) (desDec (tdesK3 key) b))

/-- A key's bytes with odd parity (bit 0 of each byte). -/
def oddParity (key : Bytes) : Bytes :=
  key.map (fun b =>
    let ones := ((List.range 7).filter (fun i => b.getLsbD (i + 1))).length
    (b &&& 0xFE) ||| (if ones % 2 = 0 then 1 else 0))

/-- Every byte has odd parity. -/
def parityOk (key : Bytes) : Bool := oddParity key == key

/-! ### Ciphers and modes -/

/-- A block cipher with its key. -/
inductive Cipher where
  | aes (key : Bytes)
  | des (key : Bytes)
  | tdes (key : Bytes)
deriving DecidableEq, Repr

/-- Block length in bytes. -/
def blockLen : Cipher → Nat
  | .aes _ => 16
  | .des _ => 8
  | .tdes _ => 8

/-- One block enciphered. -/
def enc (c : Cipher) (b : Bytes) : Bytes :=
  match c with
  | .aes k => aesEnc k b
  | .des k => desEnc k b
  | .tdes k => tdesEnc k b

/-- One block deciphered. -/
def dec (c : Cipher) (b : Bytes) : Bytes :=
  match c with
  | .aes k => aesDec k b
  | .des k => desDec k b
  | .tdes k => tdesDec k b

/-- ECB over whole blocks. -/
def ecbEnc (c : Cipher) (bs : Bytes) : Bytes := ((chunks (blockLen c) bs).map (enc c)).flatten
def ecbDec (c : Cipher) (bs : Bytes) : Bytes := ((chunks (blockLen c) bs).map (dec c)).flatten

def cbcEncBlocks (c : Cipher) (iv : Bytes) (bs : List Bytes) : Bytes :=
  match bs with
  | [] => []
  | b :: r => let y := enc c (xorB b iv); y ++ cbcEncBlocks c y r

/-- CBC encipherment of whole blocks. -/
def cbcEnc (c : Cipher) (iv bs : Bytes) : Bytes := cbcEncBlocks c iv (chunks (blockLen c) bs)

def cbcDecBlocks (c : Cipher) (iv : Bytes) (bs : List Bytes) : Bytes :=
  match bs with
  | [] => []
  | b :: r => xorB (dec c b) iv ++ cbcDecBlocks c b r

/-- CBC decipherment of whole blocks. -/
def cbcDec (c : Cipher) (iv bs : Bytes) : Bytes := cbcDecBlocks c iv (chunks (blockLen c) bs)

/-- The last block of a CBC chain: a keyed check value of ISO/IEC 9797-1 algorithm 1 over padded blocks. -/
def cbcMac (c : Cipher) (bs : Bytes) : Bytes :=
  (chunks (blockLen c) bs).foldl (fun y b => enc c (xorB y b)) (zeros (blockLen c))

/-- ISO/IEC 9797-1 algorithm 3 over padded blocks under a two-key TDES key (R365). -/
def retailMac (key bs : Bytes) : Bytes :=
  let y := cbcMac (.des (cut key 0 8)) bs
  desEnc (cut key 0 8) (desDec (cut key 8 8) y)

def ctrBlocks (k : Bytes) (ctr : Nat) (bs : List Bytes) : Bytes :=
  match bs with
  | [] => []
  | b :: r => xorB b (aesEnc k (beBytes 16 ctr)) ++ ctrBlocks k ((ctr + 1) % 2 ^ 128) r

/-- AES in CTR mode from a 16-byte counter block, incremented modulo 2^128; a last partial block is cut. -/
def ctrCrypt (key ctr bs : Bytes) : Bytes := ctrBlocks key (ofBe ctr) (chunks 16 bs)

/-- A string shifted left by one bit. -/
def shl1 (bs : Bytes) : Bytes := beBytes bs.length (ofBe bs * 2 % 2 ^ (8 * bs.length))

/-- Doubling in GF(2^64) or GF(2^128), for CMAC subkeys. -/
def cmacDbl (b : Bytes) : Bytes :=
  let r : Nat := if b.length = 16 then 0x87 else 0x1B
  let s := shl1 b
  if (b.headD 0).getLsbD 7 then xorB s (beBytes b.length r) else s

/-- CMAC of SP 800-38B, the full block. -/
def cmac (c : Cipher) (msg : Bytes) : Bytes :=
  let n := blockLen c
  let k1 := cmacDbl (enc c (zeros n))
  let k2 := cmacDbl k1
  let full := msg.length / n * n
  let headLen := if msg.length = full ∧ 0 < full then full - n else full
  let tail := msg.drop headLen
  let last := if tail.length = n then xorB tail k1 else xorB (padTo n (tail ++ [0x80])) k2
  enc c (xorB (cbcMac c (msg.take headLen)) last)

/-- ISO/IEC 9797-1 padding method 1: zeros to a whole block, one block when empty. -/
def pad1 (n : Nat) (msg : Bytes) : Bytes :=
  if msg.isEmpty then zeros n else msg ++ zeros ((n - msg.length % n) % n)

/-- ISO/IEC 9797-1 padding method 2: 0x80, then zeros to a whole block. -/
def pad2 (n : Nat) (msg : Bytes) : Bytes :=
  let m := msg ++ [0x80]
  m ++ zeros ((n - m.length % n) % n)

/-- One pass of AES key wrap (RFC 3394) over the blocks, `t` counting. -/
def kwPass (key a : Bytes) (t : Nat) (rs : List Bytes) (done : List Bytes) : Bytes × List Bytes :=
  match rs with
  | [] => (a, done.reverse)
  | r :: rest =>
    let b := aesEnc key (a ++ r)
    kwPass key (xorB (cut b 0 8) (beBytes 8 t)) (t + 1) rest (cut b 8 8 :: done)

def kwRounds (key a : Bytes) (t : Nat) (rs : List Bytes) (n : Nat) : Bytes :=
  match n with
  | 0 => a ++ rs.flatten
  | m + 1 => let (a', rs') := kwPass key a t rs []; kwRounds key a' (t + rs.length) rs' m

/-- AES key wrap of SP 800-38F KW. -/
def aesWrap (key pt : Bytes) : Bytes := kwRounds key (List.replicate 8 0xA6) 1 (chunks 8 pt) 6

/-- One pass of AES key unwrap, from the last block to the first. -/
def kuPass (key a : Bytes) (t : Nat) (rs : List Bytes) (done : List Bytes) : Bytes × List Bytes :=
  match rs with
  | [] => (a, done)
  | r :: rest =>
    let b := aesDec key (xorB a (beBytes 8 t) ++ r)
    kuPass key (cut b 0 8) (t - 1) rest (cut b 8 8 :: done)

def kuRounds (key a : Bytes) (t : Nat) (rs : List Bytes) (n : Nat) : Bytes × List Bytes :=
  match n with
  | 0 => (a, rs)
  | m + 1 => let (a', rs') := kuPass key a t rs.reverse []; kuRounds key a' (t - rs.length) rs' m

/-- AES key unwrap; none when the check value is wrong. -/
def aesUnwrap (key ct : Bytes) : Option Bytes :=
  let rs := chunks 8 (ct.drop 8)
  if ct.length % 8 = 0 ∧ 24 ≤ ct.length then
    let (a, out) := kuRounds key (cut ct 0 8) (6 * rs.length) rs 6
    if a = List.replicate 8 0xA6 then some out.flatten else none
  else none

end Sys2Proof.Machine
end

