-- ==== Sys2Proof/Machine/Digest.lean ====
section
/-!
DEFINITION. The digest engines' functions (R371): SHA-256, SHA-384 and SHA-512 of FIPS 180-4, SHA3-256, SHA3-384 and
SHA3-512 of FIPS 202, the padding that firmware applies (R374), HMAC, the checksums of R410 and R504, and the key
derivations and DRBG built on them. The definitions are the named standards' (log entry 6).
-/
namespace Sys2Proof.Machine

/-! ### SHA-2 -/

/-- The 80 round constants of SHA-512; those of SHA-256 are the upper halves of the first 64. -/
def shaK : List Nat :=
  [0x428a2f98d728ae22, 0x7137449123ef65cd, 0xb5c0fbcfec4d3b2f, 0xe9b5dba58189dbbc]
  ++ [0x3956c25bf348b538, 0x59f111f1b605d019, 0x923f82a4af194f9b, 0xab1c5ed5da6d8118]
  ++ [0xd807aa98a3030242, 0x12835b0145706fbe, 0x243185be4ee4b28c, 0x550c7dc3d5ffb4e2]
  ++ [0x72be5d74f27b896f, 0x80deb1fe3b1696b1, 0x9bdc06a725c71235, 0xc19bf174cf692694]
  ++ [0xe49b69c19ef14ad2, 0xefbe4786384f25e3, 0x0fc19dc68b8cd5b5, 0x240ca1cc77ac9c65]
  ++ [0x2de92c6f592b0275, 0x4a7484aa6ea6e483, 0x5cb0a9dcbd41fbd4, 0x76f988da831153b5]
  ++ [0x983e5152ee66dfab, 0xa831c66d2db43210, 0xb00327c898fb213f, 0xbf597fc7beef0ee4]
  ++ [0xc6e00bf33da88fc2, 0xd5a79147930aa725, 0x06ca6351e003826f, 0x142929670a0e6e70]
  ++ [0x27b70a8546d22ffc, 0x2e1b21385c26c926, 0x4d2c6dfc5ac42aed, 0x53380d139d95b3df]
  ++ [0x650a73548baf63de, 0x766a0abb3c77b2a8, 0x81c2c92e47edaee6, 0x92722c851482353b]
  ++ [0xa2bfe8a14cf10364, 0xa81a664bbc423001, 0xc24b8b70d0f89791, 0xc76c51a30654be30]
  ++ [0xd192e819d6ef5218, 0xd69906245565a910, 0xf40e35855771202a, 0x106aa07032bbd1b8]
  ++ [0x19a4c116b8d2d0c8, 0x1e376c085141ab53, 0x2748774cdf8eeb99, 0x34b0bcb5e19b48a8]
  ++ [0x391c0cb3c5c95a63, 0x4ed8aa4ae3418acb, 0x5b9cca4f7763e373, 0x682e6ff3d6b2b8a3]
  ++ [0x748f82ee5defb2fc, 0x78a5636f43172f60, 0x84c87814a1f0ab72, 0x8cc702081a6439ec]
  ++ [0x90befffa23631e28, 0xa4506cebde82bde9, 0xbef9a3f7b2c67915, 0xc67178f2e372532b]
  ++ [0xca273eceea26619c, 0xd186b8c721c0c207, 0xeada7dd6cde0eb1e, 0xf57d4f7fee6ed178]
  ++ [0x06f067aa72176fba, 0x0a637dc5a2c898a6, 0x113f9804bef90dae, 0x1b710b35131c471b]
  ++ [0x28db77f523047d84, 0x32caab7b40c72493, 0x3c9ebe0a15c9bebc, 0x431d67c49c100d4c]
  ++ [0x4cc5d4becb3e42b6, 0x597f299cfc657e2a, 0x5fcb6fab3ad6faec, 0x6c44198c4a475817]

/-- Square-root constants: the initial value of SHA-512 (and, upper halves, SHA-256), then that of SHA-384. -/
def shaIv : List Nat :=
  [0x6a09e667f3bcc908, 0xbb67ae8584caa73b, 0x3c6ef372fe94f82b, 0xa54ff53a5f1d36f1]
  ++ [0x510e527fade682d1, 0x9b05688c2b3e6c1f, 0x1f83d9abfb41bd6b, 0x5be0cd19137e2179]
  ++ [0xcbbb9d5dc1059ed8, 0x629a292a367cd507, 0x9159015a3070dd17, 0x152fecd8f70e5939]
  ++ [0x67332667ffc00b31, 0x8eb44a8768581511, 0xdb0c2e0d64f98fa7, 0x47b5481dbefa4fa4]

/-- Parameters of the two word sizes: word bits, rounds, the rotations of Σ0, Σ1, σ0 and σ1. -/
structure ShaKind where
  w  : Nat
  rounds : Nat
  big0 : Nat × Nat × Nat
  big1 : Nat × Nat × Nat
  sm0  : Nat × Nat × Nat
  sm1  : Nat × Nat × Nat

def sha32 : ShaKind := ⟨32, 64, (2, 13, 22), (6, 11, 25), (7, 18, 3), (17, 19, 10)⟩
def sha64 : ShaKind := ⟨64, 80, (28, 34, 39), (14, 18, 41), (1, 8, 7), (19, 61, 6)⟩

def rotr (w x n : Nat) : Nat := (x >>> n ||| x <<< (w - n)) % 2 ^ w

def bigSig (w : Nat) (r : Nat × Nat × Nat) (x : Nat) : Nat :=
  Nat.xor (Nat.xor (rotr w x r.1) (rotr w x r.2.1)) (rotr w x r.2.2)

def smallSig (w : Nat) (r : Nat × Nat × Nat) (x : Nat) : Nat :=
  Nat.xor (Nat.xor (rotr w x r.1) (rotr w x r.2.1)) (x >>> r.2.2)

/-- The rest of the message schedule; `acc` holds the words so far, newest first. -/
def shaSched (p : ShaKind) (acc : List Nat) (fuel : Nat) : List Nat :=
  match fuel with
  | 0 => acc.reverse
  | f + 1 =>
    let w := (smallSig p.w p.sm1 (acc.getD 1 0) + acc.getD 6 0 + smallSig p.w p.sm0 (acc.getD 14 0) + acc.getD 15 0) % 2 ^ p.w
    shaSched p (w :: acc) f

def shaRound (p : ShaKind) (st : List Nat) (k w : Nat) : List Nat :=
  match st with
  | [a, b, c, d, e, f, g, h] =>
    let ch := Nat.xor (Nat.land e f) (Nat.land (2 ^ p.w - 1 - e) g)
    let t1 := h + bigSig p.w p.big1 e + ch + k + w
    let maj := Nat.xor (Nat.xor (Nat.land a b) (Nat.land a c)) (Nat.land b c)
    let t2 := bigSig p.w p.big0 a + maj
    [(t1 + t2) % 2 ^ p.w, a, b, c, (d + t1) % 2 ^ p.w, e, f, g]
  | _ => st

def shaRounds (p : ShaKind) (st : List Nat) (ks ws : List Nat) : List Nat :=
  match ks, ws with
  | k :: ks, w :: ws => shaRounds p (shaRound p st k w) ks ws
  | _, _ => st

/-- One block into the chaining words. -/
def shaBlock (p : ShaKind) (st : List Nat) (block : Bytes) : List Nat :=
  let ws := (chunks (p.w / 8) block).map ofBe
  let ks := if p.w = 32 then (shaK.take 64).map (fun x => x >>> 32) else shaK
  List.zipWith (fun a b => (a + b) % 2 ^ p.w) st (shaRounds p st ks (shaSched p ws.reverse (p.rounds - 16)))

/-! ### Keccak -/

/-- Round constants of Keccak-f[1600]. -/
def keccakRc : List Nat :=
  [0x0000000000000001, 0x0000000000008082, 0x800000000000808a, 0x8000000080008000]
  ++ [0x000000000000808b, 0x0000000080000001, 0x8000000080008081, 0x8000000000008009]
  ++ [0x000000000000008a, 0x0000000000000088, 0x0000000080008009, 0x000000008000000a]
  ++ [0x000000008000808b, 0x800000000000008b, 0x8000000000008089, 0x8000000000008003]
  ++ [0x8000000000008002, 0x8000000000000080, 0x000000000000800a, 0x800000008000000a]
  ++ [0x8000000080008081, 0x8000000000008080, 0x0000000080000001, 0x8000000080008008]

/-- Rotation offsets, lane x + 5y. -/
def keccakRot : List Nat :=
  [0, 1, 62, 28, 27, 36, 44, 6, 55, 20, 3, 10, 43, 25, 39, 41, 45, 15, 21, 8, 18, 2, 61, 56, 14]

def rotl64 (x n : Nat) : Nat := (x <<< n ||| x >>> (64 - n)) % 2 ^ 64

def keccakRound (a : List Nat) (rc : Nat) : List Nat :=
  let l := fun i => a.getD i 0
  let c := (List.range 5).map (fun x => Nat.xor (Nat.xor (Nat.xor (Nat.xor (l x) (l (x + 5))) (l (x + 10))) (l (x + 15))) (l (x + 20)))
  let d := (List.range 5).map (fun x => Nat.xor (c.getD ((x + 4) % 5) 0) (rotl64 (c.getD ((x + 1) % 5) 0) 1))
  let t := (List.range 25).map (fun i => Nat.xor (l i) (d.getD (i % 5) 0))
  -- ρ and π: lane (x, y) of the result comes from lane (x + 3y, x) of the input.
  let b := (List.range 25).map (fun i =>
    let x := i % 5
    let y := i / 5
    let j := (x + 3 * y) % 5 + 5 * x
    rotl64 (t.getD j 0) (keccakRot.getD j 0))
  let e := (List.range 25).map (fun i =>
    let y := i / 5 * 5
    Nat.xor (b.getD i 0) (Nat.land (2 ^ 64 - 1 - b.getD (y + (i + 1) % 5) 0) (b.getD (y + (i + 2) % 5) 0)))
  match e with
  | x :: r => Nat.xor x rc :: r
  | [] => []

/-- Keccak-f[1600] on a 200-byte state. -/
def keccakF (st : Bytes) : Bytes :=
  let a := (chunks 8 st).map ofLe
  ((keccakRc.foldl keccakRound a).map (leBytes 8)).flatten

/-! ### The six functions -/

/-- The hash functions of R371. -/
inductive Hash | sha256 | sha384 | sha512 | sha3x256 | sha3x384 | sha3x512
deriving DecidableEq, Repr

/-- The hash code of the request fields. -/
def hashOf : Nat → Option Hash
  | 0x01 => some .sha256
  | 0x02 => some .sha384
  | 0x03 => some .sha512
  | 0x11 => some .sha3x256
  | 0x12 => some .sha3x384
  | 0x13 => some .sha3x512
  | _ => none

/-- Digest length in bytes. -/
def hashLen : Hash → Nat
  | .sha256 => 32 | .sha384 => 48 | .sha512 => 64 | .sha3x256 => 32 | .sha3x384 => 48 | .sha3x512 => 64

/-- Block length in bytes (Table 7 of the cipher chapter). -/
def hashBlock : Hash → Nat
  | .sha256 => 64 | .sha384 => 128 | .sha512 => 128 | .sha3x256 => 136 | .sha3x384 => 104 | .sha3x512 => 72

/-- State length in bytes (R376). -/
def hashStateLen : Hash → Nat
  | .sha256 => 32 | .sha384 => 64 | .sha512 => 64 | _ => 200

/-- Core cycles of one block in a slot (Table 7 of the cipher chapter). -/
def hashCycles : Hash → Nat
  | .sha256 | .sha384 | .sha512 => 80
  | _ => 40

/-- The state a function starts from (R376). -/
def hashInit : Hash → Bytes
  | .sha256 => ((shaIv.take 8).map (fun x => beBytes 4 (x >>> 32))).flatten
  | .sha384 => ((shaIv.drop 8).map (beBytes 8)).flatten
  | .sha512 => ((shaIv.take 8).map (beBytes 8)).flatten
  | _ => zeros 200

/-- One whole block into a state (R371, R376). -/
def hashFeed (h : Hash) (st block : Bytes) : Bytes :=
  match h with
  | .sha256 => ((shaBlock sha32 ((chunks 4 st).map ofBe) block).map (beBytes 4)).flatten
  | .sha384 | .sha512 => ((shaBlock sha64 ((chunks 8 st).map ofBe) block).map (beBytes 8)).flatten
  | _ => keccakF (xorB st (padTo 200 block))

/-- Whole blocks into a state. -/
def hashBlocks (h : Hash) (st bs : Bytes) : Bytes := (chunks (hashBlock h) bs).foldl (hashFeed h) st

/-- The padding of FIPS 180-4 or FIPS 202. -/
def hashPad (h : Hash) (msg : Bytes) : Bytes :=
  let n := hashBlock h
  let l := msg.length
  match h with
  | .sha256 => msg ++ [0x80] ++ zeros ((n - (l + 9) % n) % n) ++ beBytes 8 (8 * l)
  | .sha384 | .sha512 => msg ++ [0x80] ++ zeros ((n - (l + 17) % n) % n) ++ beBytes 16 (8 * l)
  | _ =>
    let m := n - l % n
    if m = 1 then msg ++ [0x86] else msg ++ [0x06] ++ zeros (m - 2) ++ [0x80]

/-- The digest of a message. -/
def hash (h : Hash) (msg : Bytes) : Bytes := (hashBlocks h (hashInit h) (hashPad h msg)).take (hashLen h)

/-- HMAC of FIPS 198-1. -/
def hmac (h : Hash) (key msg : Bytes) : Bytes :=
  let n := hashBlock h
  let k := padTo n (if n < key.length then hash h key else key)
  hash h (k.map (fun b => b ^^^ 0x5C) ++ hash h (k.map (fun b => b ^^^ 0x36) ++ msg))

/-- Blocks that an HMAC feeds, and the state that its last one leaves. -/
def hmacWork (h : Hash) (key msg : Bytes) : Nat × Bytes :=
  let n := hashBlock h
  let k := padTo n (if n < key.length then hash h key else key)
  let inner := hashPad h (k.map (fun b => b ^^^ 0x36) ++ msg)
  let outer := hashPad h (k.map (fun b => b ^^^ 0x5C) ++ (hashBlocks h (hashInit h) inner).take (hashLen h))
  ((inner.length + outer.length + (if n < key.length then (hashPad h key).length else 0)) / n, hashBlocks h (hashInit h) outer)

/-- MGF1 of PKCS #1 over a hash. -/
def mgf1 (h : Hash) (seed : Bytes) (n : Nat) : Bytes :=
  (((List.range (ceilDiv n (hashLen h))).map (fun i => hash h (seed ++ beBytes 4 i))).flatten).take n

/-! ### Checksums -/

/-- CRC-16 with polynomial 0x1021, initial value 0xFFFF, no reflection (R410). -/
def crc16 (bs : Bytes) : Nat :=
  bs.foldl (fun c b =>
    (List.range 8).foldl (fun x _ => (if x % 65536 ≥ 32768 then Nat.xor (x * 2) 0x1021 else x * 2) % 65536)
      (Nat.xor c (b.toNat * 256))) 0xFFFF

/-! ### CTR_DRBG of SP 800-90A: AES-256, no derivation function (R388, R389) -/

/-- V incremented modulo 2^128. -/
def vInc (v : Bytes) : Bytes := beBytes 16 ((ofBe v + 1) % 2 ^ 128)

/-- `n` output blocks from (key, V), with the V that follows. -/
def drbgBlocks (key v : Bytes) (n : Nat) : Bytes × Bytes :=
  match n with
  | 0 => ([], v)
  | m + 1 =>
    let v' := vInc v
    let (r, w) := drbgBlocks key v' m
    (aesEnc key v' ++ r, w)

/-- The update function with 48 bytes of provided data. -/
def drbgUpdate (key v data : Bytes) : Bytes × Bytes :=
  let (t, _) := drbgBlocks key v 3
  let t := xorB t data
  (cut t 0 32, cut t 32 16)

/-- One generate call of `n` bytes: output, and the key and V that follow. -/
def drbgGenerate (key v : Bytes) (n : Nat) : Bytes × Bytes × Bytes :=
  let (t, v') := drbgBlocks key v (ceilDiv n 16)
  let (k2, v2) := drbgUpdate key v' (zeros 48)
  (t.take n, k2, v2)

/-! ### Shamir sharing over GF(2^8) (polynomial 0x11B) -/

/-- Multiplication in GF(2^8). -/
def gf256Mul (a b : Byte) : Byte := gfMul 8 a.toNat b

/-- `a` to the power 254, its inverse. -/
def gf256Inv (a : Byte) : Byte :=
  let a2 := gf256Mul a a
  let a4 := gf256Mul a2 a2
  let a8 := gf256Mul a4 a4
  let a16 := gf256Mul a8 a8
  let a32 := gf256Mul a16 a16
  let a64 := gf256Mul a32 a32
  let a128 := gf256Mul a64 a64
  gf256Mul a2 (gf256Mul a4 (gf256Mul a8 (gf256Mul a16 (gf256Mul a32 (gf256Mul a64 a128)))))

/-- A polynomial, constant term first, evaluated at x. -/
def gf256Eval (cs : List Byte) (x : Byte) : Byte := cs.foldr (fun c a => c ^^^ gf256Mul a x) 0

/-- Lagrange interpolation at zero of one byte position. -/
def gf256Interp (pts : List (Byte × Byte)) : Byte :=
  pts.foldl (fun a p =>
    let w := pts.foldl (fun m q => if q.1 = p.1 then m else gf256Mul m (gf256Mul q.1 (gf256Inv (q.1 ^^^ p.1)))) 1
    a ^^^ gf256Mul w p.2) 0

end Sys2Proof.Machine
end

