-- ==== Sys2Proof/Machine/Lattice.lean ====
section
/-!
DEFINITION. The lattice algorithms of the BNL engines (R267, R280, R282): ML-KEM of FIPS 203 and ML-DSA of FIPS 204. The
definitions are the named standards' (log entry 6). A polynomial is the list of its 256 coefficients, each below the modulus.
-/
namespace Sys2Proof.Machine

/-! ### SHAKE -/

/-- The sponge state after a message, with the domain bits of SHAKE: rate 168 for SHAKE128, 136 for SHAKE256. -/
def shakeAbsorb (rate : Nat) (msg : Bytes) : Bytes :=
  let gap := rate - msg.length % rate
  let tail : Bytes := if gap = 1 then [0x9F] else 0x1F :: zeros (gap - 2) ++ [0x80]
  (chunks rate (msg ++ tail)).foldl (fun st b => keccakF (xorB st (padTo 200 b))) (zeros 200)

/-- `n` whole blocks of output. -/
def shakeBlocks (rate n : Nat) (st : Bytes) : Bytes :=
  match n with
  | 0 => []
  | m + 1 => st.take rate ++ shakeBlocks rate m (keccakF st)

/-- `n` bytes of SHAKE output. -/
def shake (rate n : Nat) (msg : Bytes) : Bytes := (shakeBlocks rate (ceilDiv n rate) (shakeAbsorb rate msg)).take n

def shake256 (n : Nat) (msg : Bytes) : Bytes := shake 136 n msg

/-- The first `want` values that a parser finds in the output blocks of a sponge, at most `fuel` of them. -/
def shakeValues (fuel rate want : Nat) (parse : Bytes → List Nat) (st : Bytes) (got : List Nat) : List Nat :=
  match fuel with
  | 0 => (got ++ List.replicate want 0).take want
  | f + 1 =>
    if want ≤ got.length then got.take want
    else shakeValues f rate want parse (keccakF st) (got ++ parse (st.take rate))

/-! ### Rings -/

/-- A ring of polynomials modulo X^256 + 1 over the integers modulo `q`, with a root of unity and the layers of its transform. -/
structure PolyRing where
  q      : Nat
  root   : Nat
  layers : Nat

def kemRing : PolyRing := ⟨3329, 17, 7⟩
def dsaRing : PolyRing := ⟨8380417, 1753, 8⟩

/-- The lowest `n` bits of a number in the opposite order. -/
def bitRev (n x : Nat) : Nat :=
  match n with
  | 0 => 0
  | m + 1 => x % 2 * 2 ^ m + bitRev m (x / 2)

/-- Modular power of a small base. -/
def ringPow (q b e : Nat) : Nat := (List.range 24).foldl
  (fun (acc : Nat × Nat) i => (if e.testBit i then acc.1 * acc.2 % q else acc.1, acc.2 * acc.2 % q)) (1, b) |>.1

/-- The factor at a node of the transform; node 1 is its root, and node i has the children 2i and 2i + 1. -/
def ringZeta (r : PolyRing) (node : Nat) : Nat := ringPow r.q r.root (bitRev r.layers node)

def polyAdd (r : PolyRing) (a b : List Nat) : List Nat := List.zipWith (fun x y => (x + y) % r.q) a b
def polySub (r : PolyRing) (a b : List Nat) : List Nat := List.zipWith (fun x y => (x + r.q - y) % r.q) a b
def polyScale (r : PolyRing) (k : Nat) (a : List Nat) : List Nat := a.map (fun x => k * x % r.q)
def polyZero : List Nat := List.replicate 256 0

/-- The transform of the half below a node, `depth` layers deep. -/
def nttFrom (r : PolyRing) (depth node : Nat) (f : List Nat) : List Nat :=
  match depth with
  | 0 => f
  | d + 1 =>
    let lo := f.take (f.length / 2)
    let hi := polyScale r (ringZeta r node) (f.drop (f.length / 2))
    nttFrom r d (2 * node) (polyAdd r lo hi) ++ nttFrom r d (2 * node + 1) (polySub r lo hi)

/-- The inverse of `nttFrom`. -/
def nttBack (r : PolyRing) (depth node : Nat) (f : List Nat) : List Nat :=
  match depth with
  | 0 => f
  | d + 1 =>
    let a := nttBack r d (2 * node) (f.take (f.length / 2))
    let b := nttBack r d (2 * node + 1) (f.drop (f.length / 2))
    let half := (r.q + 1) / 2
    let inv := ringPow r.q (ringZeta r node) (r.q - 2)
    polyScale r half (polyAdd r a b) ++ polyScale r (half * inv % r.q) (polySub r a b)

def ntt (r : PolyRing) (f : List Nat) : List Nat := nttFrom r r.layers 1 f
def nttInv (r : PolyRing) (f : List Nat) : List Nat := nttBack r r.layers 1 f

/-- The product of two transforms of ML-KEM, whose leaves have degree 1: pair `i` of them modulo X² − ζ^(2·rev(i)+1). -/
def kemLeaves (i : Nat) (a b : List Nat) : List Nat :=
  match a, b with
  | a0 :: a1 :: ar, b0 :: b1 :: br =>
    let g := ringPow 3329 17 (2 * bitRev 7 i + 1)
    (a0 * b0 + a1 * b1 % 3329 * g) % 3329 :: (a0 * b1 + a1 * b0) % 3329 :: kemLeaves (i + 1) ar br
  | _, _ => []

/-- The product of two transforms. -/
def nttMul (r : PolyRing) (a b : List Nat) : List Nat :=
  if r.layers = 7 then kemLeaves 0 a b else List.zipWith (fun x y => x * y % r.q) a b

/-- The inner product of two vectors of transforms. -/
def nttDot (r : PolyRing) (a b : List (List Nat)) : List Nat := (List.zipWith (nttMul r) a b).foldl (polyAdd r) polyZero

/-- A matrix of transforms, as its rows, times a vector. -/
def nttApply (r : PolyRing) (m : List (List (List Nat))) (v : List (List Nat)) : List (List Nat) := m.map (fun row => nttDot r row v)

/-! ### Packing -/

/-- Numbers of `d` bits packed into bytes, least significant bit first. -/
def packBits (d : Nat) (l : List Nat) : Bytes := leBytes (ceilDiv (d * l.length) 8) (l.foldr (fun x a => x + a * 2 ^ d) 0)

/-- The first `n` numbers of `d` bits that bytes hold. -/
def unpackBits (d n : Nat) (bs : Bytes) : List Nat :=
  let v := ofLe bs
  (List.range n).map (fun i => v / 2 ^ (d * i) % 2 ^ d)

/-- A string cut into `k` pieces of `n` bytes. -/
def pieces (k n : Nat) (bs : Bytes) : List Bytes := (List.range k).map (fun i => cut bs (n * i) n)

/-- Values below `q` among the numbers of three bytes: two of 12 bits each for ML-KEM, one of 23 bits for ML-DSA. -/
def uniformKem (bs : Bytes) : List Nat :=
  ((chunks 3 bs).map (fun t => [leAt t 0 2 % 4096, leAt t 1 2 / 16])).flatten.filter (fun x => decide (x < 3329))
def uniformDsa (bs : Bytes) : List Nat := ((chunks 3 bs).map (fun t => ofLe t % 2 ^ 23)).filter (fun x => decide (x < 8380417))

/-! ### ML-KEM -/

/-- The parameters of an ML-KEM set: rank, width of the first noise, and the bits of the two parts of a ciphertext. -/
structure KemSet where
  k    : Nat
  eta1 : Nat
  du   : Nat
  dv   : Nat

/-- The set of an algorithm code. -/
def kemSet : Nat → KemSet
  | 0x60 => ⟨2, 3, 10, 4⟩
  | 0x61 => ⟨3, 2, 10, 4⟩
  | _ => ⟨4, 2, 11, 5⟩

/-- Noise of width η from 64η bytes: differences of sums of η bits. -/
def kemNoise (eta : Nat) (bs : Bytes) : List Nat :=
  let weight := fun x => (List.range eta).foldl (fun a j => a + x / 2 ^ j % 2) 0
  (unpackBits (2 * eta) 256 bs).map (fun x => (weight (x % 2 ^ eta) + 3329 - weight (x / 2 ^ eta)) % 3329)

/-- Noise polynomials `lo` to `lo + n − 1` of a seed. -/
def kemNoises (eta : Nat) (seed : Bytes) (lo n : Nat) : List (List Nat) :=
  (List.range n).map (fun i => kemNoise eta (shake256 (64 * eta) (seed ++ [BitVec.ofNat 8 (lo + i)])))

/-- The entry of the public matrix at a row and a column. -/
def kemEntry (rho : Bytes) (row col : Nat) : List Nat :=
  shakeValues 200 168 256 uniformKem (shakeAbsorb 168 (rho ++ [BitVec.ofNat 8 col, BitVec.ofNat 8 row])) []

/-- The public matrix by rows, or its transpose. -/
def kemMatrix (k : Nat) (rho : Bytes) (transposed : Bool) : List (List (List Nat)) :=
  (List.range k).map (fun i => (List.range k).map (fun j => if transposed then kemEntry rho j i else kemEntry rho i j))

/-- Rounding to and from `d` bits. -/
def kemRound (d x : Nat) : Nat := (2 ^ (d + 1) * x + 3329) / 6658 % 2 ^ d
def kemUnround (d y : Nat) : Nat := (2 * 3329 * y + 2 ^ d) / 2 ^ (d + 1)

/-- The keys of the seed d: encapsulation key, and the transform of the secret vector. -/
def kemKeys (set : Nat) (seed : Bytes) : Bytes × List (List Nat) :=
  let x := kemSet set
  let g := hash .sha3x512 (seed.take 32 ++ [BitVec.ofNat 8 x.k])
  let rho := g.take 32
  let sec := (kemNoises x.eta1 (g.drop 32) 0 x.k).map (ntt kemRing)
  let err := (kemNoises x.eta1 (g.drop 32) x.k x.k).map (ntt kemRing)
  let t := List.zipWith (polyAdd kemRing) (nttApply kemRing (kemMatrix x.k rho false) sec) err
  ((t.map (packBits 12)).flatten ++ rho, sec)

/-- The encapsulation key of the seed d, z. -/
def mlKemPublic (set : Nat) (seed : Bytes) : Bytes := (kemKeys set seed).1

/-- The type and modulus checks on an encapsulation key. -/
def mlKemKeyOk (set : Nat) (ek : Bytes) : Bool :=
  let k := (kemSet set).k
  decide (ek.length = 384 * k + 32) && (unpackBits 12 (256 * k) (ek.take (384 * k))).all (fun x => decide (x < 3329))

/-- Encipherment of a 32-byte message with the 32 random bytes `r`. -/
def kemEncipher (set : Nat) (ek m r : Bytes) : Bytes :=
  let x := kemSet set
  let t := (pieces x.k 384 ek).map (fun b => (unpackBits 12 256 b).map (fun v => v % 3329))
  let y := (kemNoises x.eta1 r 0 x.k).map (ntt kemRing)
  let e1 := kemNoises 2 r x.k x.k
  let e2 := kemNoise 2 (shake256 128 (r ++ [BitVec.ofNat 8 (2 * x.k)]))
  let u := List.zipWith (polyAdd kemRing) ((nttApply kemRing (kemMatrix x.k (ek.drop (384 * x.k)) true) y).map (nttInv kemRing)) e1
  let mu := (unpackBits 1 256 m).map (kemUnround 1)
  let v := polyAdd kemRing (polyAdd kemRing (nttInv kemRing (nttDot kemRing t y)) e2) mu
  (u.map (fun p => packBits x.du (p.map (kemRound x.du)))).flatten ++ packBits x.dv (v.map (kemRound x.dv))

/-- Decipherment with the secret vector. -/
def kemDecipher (set : Nat) (sec : List (List Nat)) (ct : Bytes) : Bytes :=
  let x := kemSet set
  let u := (pieces x.k (32 * x.du) ct).map (fun b => ntt kemRing ((unpackBits x.du 256 b).map (kemUnround x.du)))
  let v := (unpackBits x.dv 256 (ct.drop (32 * x.du * x.k))).map (kemUnround x.dv)
  packBits 1 ((polySub kemRing v (nttInv kemRing (nttDot kemRing sec u))).map (kemRound 1))

/-- Shared secret and random bytes of a message under an encapsulation key. -/
def kemShare (ek m : Bytes) : Bytes := hash .sha3x512 (m ++ hash .sha3x256 ek)

/-- Encapsulation with the message m: the shared secret, and the ciphertext. -/
def mlKemSecret (ek m : Bytes) : Bytes := (kemShare ek m).take 32
def mlKemCipher (set : Nat) (ek m : Bytes) : Bytes := kemEncipher set ek m ((kemShare ek m).drop 32)

/-- Decapsulation with implicit rejection, from the seed d, z. -/
def mlKemDecaps (set : Nat) (seed ct : Bytes) : Bytes :=
  let (ek, sec) := kemKeys set seed
  let m := kemDecipher set sec ct
  if mlKemCipher set ek m = ct then mlKemSecret ek m else shake256 32 (cut seed 32 32 ++ ct)

/-! ### ML-DSA -/

/-- The parameters of an ML-DSA set. -/
structure DsaSet where
  k      : Nat
  l      : Nat
  eta    : Nat
  tau    : Nat
  omega  : Nat
  gamma1 : Nat
  gamma2 : Nat
  hashed : Nat

/-- The set of an algorithm code. -/
def dsaSet : Nat → DsaSet
  | 0x68 => ⟨4, 4, 2, 39, 80, 2 ^ 17, 95232, 32⟩
  | 0x69 => ⟨6, 5, 4, 49, 55, 2 ^ 19, 261888, 48⟩
  | _ => ⟨8, 7, 2, 60, 75, 2 ^ 19, 261888, 64⟩

/-- Distance of a coefficient from zero. -/
def dsaAbs (x : Nat) : Nat := min x (8380417 - x)

/-- No coefficient of a vector is as far from zero as a bound. -/
def dsaSmall (bound : Nat) (v : List (List Nat)) : Bool := v.all (fun p => p.all (fun x => decide (dsaAbs x < bound)))

/-- The public matrix by rows. -/
def dsaMatrix (x : DsaSet) (rho : Bytes) : List (List (List Nat)) :=
  (List.range x.k).map (fun i => (List.range x.l).map (fun j =>
    shakeValues 200 168 256 uniformDsa (shakeAbsorb 168 (rho ++ [BitVec.ofNat 8 j, BitVec.ofNat 8 i])) []))

/-- Small coefficients among the nibbles of bytes. -/
def dsaNibbles (eta : Nat) (bs : Bytes) : List Nat :=
  ((unpackBits 4 (2 * bs.length) bs).filter (fun z => decide (z < (if eta = 2 then 15 else 9)))).map
    (fun z => (8380417 + eta - (if eta = 2 then z % 5 else z)) % 8380417)

/-- Secret polynomials `lo` to `lo + n − 1` of a seed. -/
def dsaSecrets (eta : Nat) (seed : Bytes) (lo n : Nat) : List (List Nat) :=
  (List.range n).map (fun i => shakeValues 200 136 256 (dsaNibbles eta) (shakeAbsorb 136 (seed ++ leBytes 2 (lo + i))) [])

/-- The high part of a coefficient of t, without its 13 low bits, which lie around zero. -/
def dsaHigh13 (x : Nat) : Nat := (x + 4095) / 8192

/-- High and low part of a coefficient around multiples of 2·γ2; the low part modulo q. -/
def dsaSplit (g2 x : Nat) : Nat × Nat :=
  let hi := (x + g2 - 1) / (2 * g2)
  let lo := (x + 8380417 - 2 * g2 * hi) % 8380417
  if 2 * g2 * hi = 8380416 then (0, (lo + 8380416) % 8380417) else (hi, lo)

/-- What a seed ξ makes: public seed, secret vectors, t, and the key of hedged signing. -/
structure DsaKeys where
  rho : Bytes
  key : Bytes
  s1  : List (List Nat)
  s2  : List (List Nat)
  t   : List (List Nat)

def dsaKeys (set : Nat) (seed : Bytes) : DsaKeys :=
  let x := dsaSet set
  let h := shake256 128 (seed ++ [BitVec.ofNat 8 x.k, BitVec.ofNat 8 x.l])
  let s1 := dsaSecrets x.eta (cut h 32 64) 0 x.l
  let s2 := dsaSecrets x.eta (cut h 32 64) x.l x.k
  let a := nttApply dsaRing (dsaMatrix x (h.take 32)) (s1.map (ntt dsaRing))
  { rho := h.take 32, key := h.drop 96, s1 := s1, s2 := s2
    t := List.zipWith (polyAdd dsaRing) (a.map (nttInv dsaRing)) s2 }

def dsaPubBytes (y : DsaKeys) : Bytes := y.rho ++ (y.t.map (fun p => packBits 10 (p.map dsaHigh13))).flatten

/-- The public key of a seed ξ. -/
def mlDsaPublic (set : Nat) (seed : Bytes) : Bytes := dsaPubBytes (dsaKeys set seed)

/-- The digest that a signature binds: public key, context and message. -/
def dsaBind (pub ctx msg : Bytes) : Bytes := shake256 64 (shake256 64 pub ++ [0, BitVec.ofNat 8 ctx.length] ++ ctx ++ msg)

/-- Bits of a mask coefficient. -/
def dsaMaskBits (x : DsaSet) : Nat := if x.gamma1 = 2 ^ 17 then 18 else 20

/-- A mask vector, and the coefficients of a signature's z, as `dsaMaskBits` bits each: γ1 minus the value. -/
def dsaFromMask (x : DsaSet) (bs : Bytes) : List Nat :=
  (unpackBits (dsaMaskBits x) 256 bs).map (fun v => (x.gamma1 + 8380417 - v) % 8380417)
def dsaIntoMask (x : DsaSet) (p : List Nat) : Bytes :=
  packBits (dsaMaskBits x) (p.map (fun v => (x.gamma1 + 8380417 - v) % 8380417))

/-- The high parts of a vector, packed. -/
def dsaPackHigh (x : DsaSet) (v : List (List Nat)) : Bytes := (v.map (packBits (if x.gamma2 = 95232 then 6 else 4))).flatten

/-- One byte of the ball's stream: where it does not pass position `i`, the value there moves up and a sign takes its place. -/
def dsaBallStep (tau signs : Nat) (acc : Nat × List Nat) (b : Byte) : Nat × List Nat :=
  let (i, c) := acc
  if i < 256 ∧ b.toNat ≤ i then
    (i + 1, (c.set i (c.getD b.toNat 0)).set b.toNat (if signs.testBit (i + tau - 256) then 8380416 else 1))
  else acc

/-- The challenge polynomial of a commitment hash: τ coefficients of 1 or −1. -/
def dsaBall (tau : Nat) (c : Bytes) : List Nat :=
  let bs := shakeBlocks 136 8 (shakeAbsorb 136 c)
  ((bs.drop 8).foldl (dsaBallStep tau (leAt bs 0 8)) (256 - tau, polyZero)).2

/-- The hint of a polynomial: the positions whose high part the correction changes. -/
def dsaHint (g2 : Nat) (r fix : List Nat) : List Nat :=
  (List.range 256).filter (fun i =>
    (dsaSplit g2 (r.getD i 0)).1 != (dsaSplit g2 ((r.getD i 0 + fix.getD i 0) % 8380417)).1)

/-- The bytes of a hint: positions in order, then after each polynomial how many there are so far. -/
def dsaPackHint (x : DsaSet) (h : List (List Nat)) : Bytes :=
  padTo x.omega (h.flatten.map (BitVec.ofNat 8)) ++
    (List.range x.k).map (fun i => BitVec.ofNat 8 ((h.take (i + 1)).flatten.length))

/-- A list rises strictly. -/
def rises : List Nat → Bool
  | a :: b :: r => decide (a < b) && rises (b :: r)
  | _ => true

/-- The hint that bytes hold; none where they are malformed. -/
def dsaUnpackHint (x : DsaSet) (bs : Bytes) : Option (List (List Nat)) :=
  let ends := (bs.drop x.omega).map (·.toNat)
  let from_ := fun i => if i = 0 then 0 else ends.getD (i - 1) 0
  let h := (List.range x.k).map (fun i => ((bs.take (ends.getD i 0)).drop (from_ i)).map (·.toNat))
  if (List.range x.k).all (fun i => decide (from_ i ≤ ends.getD i 0) && decide (ends.getD i 0 ≤ x.omega)) && h.all rises &&
      allZero ((bs.take x.omega).drop (ends.getD (x.k - 1) 0)) then some h
  else none

/-- One attempt of a signature with the mask at `kappa`; none where it is rejected. -/
def dsaAttempt (x : DsaSet) (y : DsaKeys) (a : List (List (List Nat))) (mu seed : Bytes) (kappa : Nat) : Option Bytes :=
  let msk := (List.range x.l).map (fun i => dsaFromMask x (shake256 (32 * dsaMaskBits x) (seed ++ leBytes 2 (kappa + i))))
  let w := (nttApply dsaRing a (msk.map (ntt dsaRing))).map (nttInv dsaRing)
  let c := shake256 x.hashed (mu ++ dsaPackHigh x (w.map (fun p => p.map (fun v => (dsaSplit x.gamma2 v).1))))
  let ch := ntt dsaRing (dsaBall x.tau c)
  let times := fun p => nttInv dsaRing (nttMul dsaRing ch (ntt dsaRing p))
  let z := List.zipWith (polyAdd dsaRing) msk (y.s1.map times)
  let r := List.zipWith (polySub dsaRing) w (y.s2.map times)
  let low := r.map (fun p => p.map (fun v => (dsaSplit x.gamma2 v).2))
  let t0 := y.t.map (fun p => p.map (fun v => (v + 8380417 - 8192 * dsaHigh13 v % 8380417) % 8380417))
  let ct0 := t0.map times
  let beta := x.tau * x.eta
  let h := List.zipWith (fun p e => dsaHint x.gamma2 (polyAdd dsaRing p e) (e.map (fun v => (8380417 - v) % 8380417))) r ct0
  if dsaSmall (x.gamma1 - beta) z && dsaSmall (x.gamma2 - beta) low && dsaSmall x.gamma2 ct0 && decide (h.flatten.length ≤ x.omega) then
    some (c ++ (z.map (dsaIntoMask x)).flatten ++ dsaPackHint x h)
  else none

/-- Attempts from `kappa` on until one stands. -/
def dsaAttempts (fuel : Nat) (x : DsaSet) (y : DsaKeys) (a : List (List (List Nat))) (mu seed : Bytes) (kappa : Nat) : Bytes :=
  match fuel with
  | 0 => []
  | f + 1 => match dsaAttempt x y a mu seed kappa with
    | some sg => sg
    | none => dsaAttempts f x y a mu seed (kappa + x.l)

/-- Hedged signing with the 32-byte value rnd. -/
def mlDsaSign (set : Nat) (seed ctx msg rnd : Bytes) : Bytes :=
  let x := dsaSet set
  let y := dsaKeys set seed
  let mu := dsaBind (dsaPubBytes y) ctx msg
  dsaAttempts 8192 x y (dsaMatrix x y.rho) mu (shake256 64 (y.key ++ rnd ++ mu)) 0

/-- The high part of a coefficient after its hint. -/
def dsaUseHint (g2 : Nat) (hinted : Bool) (v : Nat) : Nat :=
  let m := 8380416 / (2 * g2)
  let (hi, lo) := dsaSplit g2 v
  if !hinted then hi else if lo ≠ 0 ∧ lo ≤ 4190208 then (hi + 1) % m else (hi + m - 1) % m

/-- Verification. -/
def mlDsaVerify (set : Nat) (pub ctx msg sg : Bytes) : Bool :=
  let x := dsaSet set
  let n := 32 * dsaMaskBits x
  let c := sg.take x.hashed
  let z := (pieces x.l n (sg.drop x.hashed)).map (dsaFromMask x)
  match dsaUnpackHint x (sg.drop (x.hashed + n * x.l)) with
  | none => false
  | some h =>
    let ch := ntt dsaRing (dsaBall x.tau c)
    let t1 := (pieces x.k 320 (pub.drop 32)).map (fun b => ntt dsaRing ((unpackBits 10 256 b).map (fun v => 8192 * v % 8380417)))
    let az := nttApply dsaRing (dsaMatrix x (pub.take 32)) (z.map (ntt dsaRing))
    let w := List.zipWith (fun p t => nttInv dsaRing (polySub dsaRing p (nttMul dsaRing ch t))) az t1
    let w1 := List.zipWith (fun p hp => (List.range 256).map (fun i => dsaUseHint x.gamma2 (hp.contains i) (p.getD i 0))) w h
    decide (pub.length = 32 + 320 * x.k ∧ sg.length = x.hashed + n * x.l + x.omega + x.k) && dsaSmall (x.gamma1 - x.tau * x.eta) z &&
      decide (shake256 x.hashed (dsaBind pub ctx msg ++ dsaPackHigh x w1) = c)

end Sys2Proof.Machine
end

