-- ==== Sys2Proof/Machine/PublicKey.lean ====
section
/-!
DEFINITION. What the BNL engines compute (R267): RSA with the paddings of PKCS #1, ECDSA and ECDH on P-256, P-384 and
P-521, Ed25519, and the lengths of the lattice algorithms.
-/
namespace Sys2Proof.Machine

/-! ### Modular arithmetic -/

/-- `acc × b^e mod m`, square and multiply over at most `fuel` bits of the exponent. -/
def powModGo (fuel b e m acc : Nat) : Nat :=
  match fuel with
  | 0 => acc
  | f + 1 => powModGo f (b * b % m) (e / 2) m (if e % 2 = 1 then acc * b % m else acc)

/-- `b^e mod m`. -/
def powMod (b e m : Nat) : Nat := powModGo (e.log2 + 1) (b % m) e m (1 % m)

/-- Extended Euclid on (r0, r1) with Bézout coefficients of the second input. -/
def egcdGo (fuel : Nat) (r0 r1 : Nat) (t0 t1 : Int) : Nat × Int :=
  match fuel with
  | 0 => (r0, t0)
  | f + 1 => if r1 = 0 then (r0, t0) else egcdGo f r1 (r0 % r1) t1 (t0 - (r0 / r1 : Nat) * t1)

/-- The inverse of `a` modulo `m`; 0 where there is none. -/
def invMod (a m : Nat) : Nat :=
  let (g, t) := egcdGo (2 * (m.log2 + 2)) m (a % m) 0 1
  if g = 1 then (t % (m : Int)).toNat else 0

/-! ### RSA -/

/-- Modulus length in bytes of an RSA algorithm code. -/
def rsaLen : Nat → Nat
  | 0x40 => 256
  | 0x41 => 384
  | 0x42 => 512
  | _ => 0

/-- A private RSA key: p, q and e from its material (Table 4 of the key-store chapter). -/
structure RsaKey where
  p : Nat
  q : Nat
  e : Nat

def rsaKeyOf (alg : Nat) (mat : Bytes) : RsaKey :=
  let h := rsaLen alg / 2
  ⟨beAt mat 0 h, beAt mat h h, beAt mat (2 * h) 4⟩

/-- A public RSA key: n and e from its material. -/
def rsaPubOf (alg : Nat) (mat : Bytes) : Nat × Nat := (beAt mat 0 (rsaLen alg), beAt mat (rsaLen alg) 4)

/-- R269: a private result raised to the public exponent gives the input back. -/
def rsaHolds (k : RsaKey) (x y : Nat) : Bool := decide (powMod y k.e (k.p * k.q) = x % (k.p * k.q))

/-- The private operation. -/
def rsaPriv (k : RsaKey) (x : Nat) : Nat := powMod x (invMod k.e ((k.p - 1) * (k.q - 1))) (k.p * k.q)

/-- DER prefix of DigestInfo for a hash. -/
def digestInfo (h : Hash) : Bytes :=
  let code : Byte := match h with
    | .sha256 => 1 | .sha384 => 2 | .sha512 => 3 | .sha3x256 => 8 | .sha3x384 => 9 | .sha3x512 => 10
  let n := BitVec.ofNat 8 (hashLen h)
  [0x30, 0x11 + n, 0x30, 0x0D, 0x06, 0x09, 0x60, 0x86, 0x48, 0x01, 0x65, 0x03, 0x04, 0x02, code, 0x05, 0x00, 0x04, n]

/-- EMSA-PKCS1-v1_5 of a digest. -/
def emsaPkcs (h : Hash) (digest : Bytes) (k : Nat) : Bytes :=
  let t := digestInfo h ++ digest
  [0x00, 0x01] ++ List.replicate (k - 3 - t.length) 0xFF ++ [0x00] ++ t

/-- EMSA-PSS of a digest with a salt; the modulus has 8k bits. -/
def emsaPss (h : Hash) (digest salt : Bytes) (k : Nat) : Bytes :=
  let hh := hash h (zeros 8 ++ digest ++ salt)
  let dbLen := k - hashLen h - 1
  let db := zeros (dbLen - salt.length - 1) ++ [0x01] ++ salt
  let masked := xorB db (mgf1 h hh dbLen)
  (match masked with
   | b :: r => (b &&& 0x7F) :: r
   | [] => []) ++ hh ++ [0xBC]

/-- EMSA-PSS verification, salt length equal to the hash length. -/
def pssOk (h : Hash) (digest em : Bytes) : Bool :=
  let k := em.length
  let dbLen := k - hashLen h - 1
  let masked := em.take dbLen
  let hh := cut em dbLen (hashLen h)
  let db := match xorB masked (mgf1 h hh dbLen) with
    | b :: r => (b &&& 0x7F) :: r
    | [] => []
  let salt := db.drop (dbLen - hashLen h)
  decide (2 * hashLen h + 2 ≤ k) && decide (byteAt em (k - 1) = 0xBC) && decide (byteAt em 0 < 128) &&
    decide (db.take (dbLen - hashLen h) = zeros (dbLen - hashLen h - 1) ++ [0x01]) &&
    decide (hash h (zeros 8 ++ digest ++ salt) = hh)

/-- EME-OAEP with SHA-256, MGF1-SHA-256 and an empty label. -/
def oaepEncode (msg seed : Bytes) (k : Nat) : Bytes :=
  let db := hash .sha256 [] ++ zeros (k - msg.length - 66) ++ [0x01] ++ msg
  let mdb := xorB db (mgf1 .sha256 seed (k - 33))
  [0x00] ++ xorB seed (mgf1 .sha256 mdb 32) ++ mdb

/-- EME-OAEP decoding; none where it fails. -/
def oaepDecode (em : Bytes) : Option Bytes :=
  let k := em.length
  let mdb := em.drop 33
  let seed := xorB (cut em 1 32) (mgf1 .sha256 mdb 32)
  let db := xorB mdb (mgf1 .sha256 seed (k - 33))
  let rest := (db.drop 32).dropWhile (fun b => b == 0)
  match rest with
  | m :: msg => if 66 ≤ k ∧ byteAt em 0 = 0 ∧ db.take 32 = hash .sha256 [] ∧ m = 0x01 then some msg else none
  | [] => none

/-! ### Elliptic curves -/

/-- A short Weierstrass curve with a = −3. -/
structure Curve where
  p   : Nat
  b   : Nat
  n   : Nat
  gx  : Nat
  gy  : Nat
  len : Nat

def p256 : Curve :=
  { p := 0xFFFFFFFF00000001000000000000000000000000FFFFFFFFFFFFFFFFFFFFFFFF
    b := 0x5AC635D8AA3A93E7B3EBBD55769886BC651D06B0CC53B0F63BCE3C3E27D2604B
    n := 0xFFFFFFFF00000000FFFFFFFFFFFFFFFFBCE6FAADA7179E84F3B9CAC2FC632551
    gx := 0x6B17D1F2E12C4247F8BCE6E563A440F277037D812DEB33A0F4A13945D898C296
    gy := 0x4FE342E2FE1A7F9B8EE7EB4A7C0F9E162BCE33576B315ECECBB6406837BF51F5
    len := 32 }

def p384 : Curve :=
  { p := 2 ^ 384 - 2 ^ 128 - 2 ^ 96 + 2 ^ 32 - 1
    b := 0xB3312FA7E23EE7E4988E056BE3F82D19181D9C6EFE8141120314088F5013875AC656398D8A2ED19D2A85C8EDD3EC2AEF
    n := 0xFFFFFFFFFFFFFFFFFFFFFFFFFFFFFFFFFFFFFFFFFFFFFFFFC7634D81F4372DDF581A0DB248B0A77AECEC196ACCC52973
    gx := 0xAA87CA22BE8B05378EB1C71EF320AD746E1D3B628BA79B9859F741E082542A385502F25DBF55296C3A545E3872760AB7
    gy := 0x3617DE4A96262C6F5D9E98BF9292DC29F8F41DBD289A147CE9DA3113B5F0B8C00A60B1CE1D7E819D7A431D7C90EA0E5F
    len := 48 }

def p521 : Curve :=
  { p := 2 ^ 521 - 1
    b := 0x0051953EB9618E1C9A1F929A21A0B68540EEA2DA725B99B315F3B8B489918EF109E156193951EC7E937B1652C0BD3BB1BF073573DF883D2C34F1EF451FD46B503F00
    n := 2 ^ 521 - 2 ^ 260 + 0xA51868783BF2F966B7FCC0148F709A5D03BB5C9B8899C47AEBB6FB71E91386409
    gx := 0x00C6858E06B70404E9CD9E3ECB662395B4429C648139053FB521F828AF606B4D3DBAA14B5E77EFE75928FE1DC127A2FFA8DE3348B3C1856A429BF97E7E31C2E5BD66
    gy := 0x011839296A789A3BC0045C8A5FB42C7D1BD998F54449579B446817AFBD17273E662C97EE72995EF42640C550B9013FAD0761353C7086A272C24088BE94769FD16650
    len := 66 }

/-- The curve of an algorithm code. -/
def curveOf : Nat → Option Curve
  | 0x50 => some p256
  | 0x51 => some p384
  | 0x52 => some p521
  | _ => none

/-- A point; none is the point at infinity. -/
abbrev Pt := Option (Nat × Nat)

def ptAdd (c : Curve) (s t : Pt) : Pt :=
  match s, t with
  | none, q => q
  | p, none => p
  | some (x1, y1), some (x2, y2) =>
    if x1 = x2 ∧ (y1 + y2) % c.p = 0 then none
    else
      let l := if x1 = x2 then (3 * x1 * x1 + 3 * c.p - 3) % c.p * invMod (2 * y1) c.p % c.p
        else (y2 + c.p - y1) % c.p * invMod (x2 + c.p - x1) c.p % c.p
      let x3 := (l * l + 2 * c.p - x1 - x2) % c.p
      some (x3, (l * (x1 + c.p - x3) + c.p - y1) % c.p)

def ptMulGo (c : Curve) (fuel k : Nat) (s acc : Pt) : Pt :=
  match fuel with
  | 0 => acc
  | f + 1 => ptMulGo c f (k / 2) (ptAdd c s s) (if k % 2 = 1 then ptAdd c acc s else acc)

/-- Scalar multiplication. -/
def ptMul (c : Curve) (k : Nat) (s : Pt) : Pt := ptMulGo c (k.log2 + 1) k s none

def basePt (c : Curve) : Pt := some (c.gx, c.gy)

/-- The affine point lies on the curve with coordinates in range. The curves have cofactor 1, so this is the full
public-key validation of SP 800-56A. -/
def onCurve (c : Curve) (x y : Nat) : Bool :=
  decide (x < c.p) && decide (y < c.p) && decide (y * y % c.p = (x * x * x + 3 * (c.p - x) + c.b) % c.p)

/-- The uncompressed point 0x04, x, y. -/
def ptBytes (c : Curve) (s : Pt) : Bytes :=
  match s with
  | some (x, y) => [0x04] ++ beBytes c.len x ++ beBytes c.len y
  | none => [0x00]

/-- An uncompressed point that passes validation. -/
def ptOfBytes (c : Curve) (bs : Bytes) : Option (Nat × Nat) :=
  let x := beAt bs 1 c.len
  let y := beAt bs (1 + c.len) c.len
  if bs.length = 1 + 2 * c.len ∧ byteAt bs 0 = 4 ∧ onCurve c x y = true then some (x, y) else none

/-- The leftmost bits of a digest, as ECDSA takes them. -/
def ecdsaE (c : Curve) (digest : Bytes) : Nat :=
  let nb := c.n.log2 + 1
  let l := 8 * digest.length
  if nb < l then ofBe digest >>> (l - nb) else ofBe digest

/-- An ECDSA signature r, s with the per-message secret k. -/
def ecdsaSign (c : Curve) (d k : Nat) (digest : Bytes) : Nat × Nat :=
  match ptMul c k (basePt c) with
  | some (x, _) =>
    let r := x % c.n
    (r, invMod k c.n * (ecdsaE c digest + r * d) % c.n)
  | none => (0, 0)

/-- R269: kG lies on the curve, and s·k = e + r·d modulo n. -/
def ecdsaHolds (c : Curve) (d k : Nat) (digest : Bytes) (r s : Nat) : Bool :=
  (match ptMul c k (basePt c) with | some (x, y) => onCurve c x y | none => false) &&
    decide (s * k % c.n = (ecdsaE c digest + r * d) % c.n)

/-- The shared secret of ECDH with its check (R269): the point lies on the curve and is not the point at infinity. -/
def ecdhZ (c : Curve) (d : Nat) (q : Nat × Nat) : Option Bytes :=
  match ptMul c d (some q) with
  | some (x, y) => if onCurve c x y then some (beBytes c.len x) else none
  | none => none

/-- ECDSA verification. -/
def ecdsaOk (c : Curve) (pub : Nat × Nat) (digest : Bytes) (r s : Nat) : Bool :=
  if 0 < r ∧ r < c.n ∧ 0 < s ∧ s < c.n then
    let w := invMod s c.n
    let u1 := ecdsaE c digest * w % c.n
    let u2 := r * w % c.n
    match ptAdd c (ptMul c u1 (basePt c)) (ptMul c u2 (some pub)) with
    | some (x, _) => decide (x % c.n = r)
    | none => false
  else false

/-! ### Ed25519 -/

def edP : Nat := 2 ^ 255 - 19
def edL : Nat := 2 ^ 252 + 27742317777372353535851937790883648493
def edD : Nat := 37095705934669439343138083508754565189542113879843219016388785533085940283555
def edB : Nat × Nat := (15112221349535400772501151409588531511454012693041857206046113283949847762202,
  46316835694926478169428394003475163141307993866256225615783033603165251855960)

def edAdd (s t : Nat × Nat) : Nat × Nat :=
  let m := edD * (s.1 * t.1 % edP) % edP * (s.2 * t.2 % edP) % edP
  ((s.1 * t.2 + t.1 * s.2) * invMod (1 + m) edP % edP, (s.2 * t.2 + s.1 * t.1) * invMod (1 + edP - m) edP % edP)

def edMulGo (fuel k : Nat) (s acc : Nat × Nat) : Nat × Nat :=
  match fuel with
  | 0 => acc
  | f + 1 => edMulGo f (k / 2) (edAdd s s) (if k % 2 = 1 then edAdd acc s else acc)

def edMul (k : Nat) (s : Nat × Nat) : Nat × Nat := edMulGo (k.log2 + 1) k s (0, 1)

def edEncode (s : Nat × Nat) : Bytes := leBytes 32 (s.2 + s.1 % 2 * 2 ^ 255)

/-- Point decompression of RFC 8032; none where it fails. -/
def edDecode (bs : Bytes) : Option (Nat × Nat) :=
  let v := ofLe bs
  let y := v % 2 ^ 255
  let sign := v / 2 ^ 255
  let u := (y * y + edP - 1) % edP
  let w := (edD * (y * y % edP) + 1) % edP
  let x2 := u * invMod w edP % edP
  let x0 := powMod x2 ((edP + 3) / 8) edP
  let x := if x0 * x0 % edP = x2 then x0 else x0 * powMod 2 ((edP - 1) / 4) edP % edP
  if bs.length = 32 ∧ y < edP ∧ x * x % edP = x2 ∧ ¬(x = 0 ∧ sign = 1) then
    some (if x % 2 = sign then x else edP - x, y)
  else none

/-- The secret scalar and the prefix of a seed. -/
def edExpand (seed : Bytes) : Nat × Bytes :=
  let h := hash .sha512 seed
  let a := ofLe (h.take 32)
  (a % 2 ^ 254 / 8 * 8 + 2 ^ 254, h.drop 32)

def edPublic (seed : Bytes) : Bytes := edEncode (edMul (edExpand seed).1 edB)

/-- A pure Ed25519 signature. -/
def edSign (seed msg : Bytes) : Bytes :=
  let (a, pre) := edExpand seed
  let pub := edEncode (edMul a edB)
  let r := ofLe (hash .sha512 (pre ++ msg)) % edL
  let rr := edEncode (edMul r edB)
  let k := ofLe (hash .sha512 (rr ++ pub ++ msg)) % edL
  rr ++ leBytes 32 ((r + k * a) % edL)

/-- R269: R lies on the curve, and S = r + h·a modulo ℓ. -/
def edHolds (seed msg sg : Bytes) : Bool :=
  let (a, pre) := edExpand seed
  let r := ofLe (hash .sha512 (pre ++ msg)) % edL
  let h := ofLe (hash .sha512 (sg.take 32 ++ edEncode (edMul a edB) ++ msg)) % edL
  (edDecode (sg.take 32)).isSome && decide (ofLe (sg.drop 32) = (r + h * a) % edL)

/-- Pure Ed25519 verification. -/
def edOk (pub msg sig : Bytes) : Bool :=
  match edDecode pub, edDecode (sig.take 32) with
  | some a, some r =>
    let s := ofLe (sig.drop 32)
    let k := ofLe (hash .sha512 (sig.take 32 ++ pub ++ msg)) % edL
    decide (sig.length = 64) && decide (s < edL) && decide (edMul s edB = edAdd r (edMul k a))
  | _, _ => false

/-! ### Lattice lengths -/

/-- Length of an ML-KEM encapsulation key and of its ciphertexts. -/
def kemKeyLen : Nat → Nat
  | 0x60 => 800
  | 0x61 => 1184
  | 0x62 => 1568
  | _ => 0
def kemCtLen : Nat → Nat
  | 0x60 => 768
  | 0x61 => 1088
  | 0x62 => 1568
  | _ => 0

/-- The parameter set of an encapsulation key's length (R280). -/
def kemOfLen (n : Nat) : Option Nat :=
  if n = 800 then some 0x60 else if n = 1184 then some 0x61 else if n = 1568 then some 0x62 else none

/-- Length of an ML-DSA public key and signature. -/
def dsaKeyLen : Nat → Nat
  | 0x68 => 1312
  | 0x69 => 1952
  | 0x6A => 2592
  | _ => 0
def dsaSigLen : Nat → Nat
  | 0x68 => 2420
  | 0x69 => 3309
  | 0x6A => 4627
  | _ => 0

/-- The public form of a private key's material (Table 4 of the key-store chapter). -/
def publicForm (alg : Nat) (mat : Bytes) : Bytes :=
  if rsaLen alg ≠ 0 then
    let k := rsaKeyOf alg mat
    beBytes (rsaLen alg) (k.p * k.q) ++ beBytes 4 k.e
  else match curveOf alg with
    | some c => (ptBytes c (ptMul c (ofBe mat) (basePt c))).drop 1
    | none =>
      if alg = 0x58 then edPublic mat
      else if kemKeyLen alg ≠ 0 then mlKemPublic alg mat
      else if dsaKeyLen alg ≠ 0 then mlDsaPublic alg mat
      else []

end Sys2Proof.Machine
end

