-- ==== Sys2Proof/Machine/Flags.lean ====
section
/-!
DEFINITION. Status values (R116) and journal event codes (R505).
-/
namespace Sys2Proof.Machine

/-- Status values, Table 10 of the request chapter. -/
abbrev Status := BitVec 16

def stOk : Status := 0x0000
def stFormat : Status := 0x0101
def stLength : Status := 0x0102
def stOpcode : Status := 0x0103
def stDataFetch : Status := 0x0104
def stKeyNotFound : Status := 0x0201
def stKeyGeneration : Status := 0x0202
def stKeyWithdrawn : Status := 0x0203
def stKeyUsage : Status := 0x0204
def stKeyExpired : Status := 0x0205
def stKeyNotYetActive : Status := 0x0206
def stCounterExhausted : Status := 0x0207
def stUseLimit : Status := 0x0208
def stKeySlotBusy : Status := 0x0209
def stPolicyTranslation : Status := 0x0301
def stWeakPin : Status := 0x0302
def stPolicyExport : Status := 0x0303
def stPolicyDenied : Status := 0x0304
def stQuotaNever : Status := 0x0401
def stPriorityDenied : Status := 0x0402
def stDeadline : Status := 0x0501
def stTimeUntrusted : Status := 0x0502
def stDeadlineRange : Status := 0x0503
def stVerifyFail : Status := 0x0601
def stPkeInput : Status := 0x0701
def stSliceReset : Status := 0x0801
def stGuardFailed : Status := 0x0802
def stChainHalted : Status := 0x0803
def stProtection : Status := 0x0901
def stRngUnavailable : Status := 0x0902
def stIntegrity : Status := 0x0903
def stExecLimit : Status := 0x0904
def stCeremonyState : Status := 0x0A01
def stCeremonyTimeout : Status := 0x0A02
def stApprovalInvalid : Status := 0x0A03
def stLifecycle : Status := 0x0A04
def stReplayNotCaptured : Status := 0x0A05

/-- The status is of class 0x09: a fault inside the module (R116). -/
def isFaultClass (st : Status) : Bool := st.toNat / 256 == 0x09

end Sys2Proof.Machine
end

