-- ==== Sys2Proof/Machine/Sparse.lean ====
section
/-!
DEFINITION. Sparse tables in one canonical form: a list of key and value pairs, keys strictly rising.
`mget`, `mput` and `mdel` hold a table whose absent keys have no value; `sget` and `sset` hold one
whose absent keys have a default value, and no listed entry equals that default.
-/
namespace Sys2Proof.Machine

variable {β : Type}

/-- The value at key `k`, if the table lists one. -/
def mget (m : List (Nat × β)) (k : Nat) : Option β :=
  match m with
  | [] => none
  | (a, v) :: r => if a = k then some v else mget r k

/-- The table with `v` at key `k`. -/
def mput (m : List (Nat × β)) (k : Nat) (v : β) : List (Nat × β) :=
  match m with
  | [] => [(k, v)]
  | (a, w) :: r =>
    if k < a then (k, v) :: (a, w) :: r
    else if k = a then (k, v) :: r
    else (a, w) :: mput r k v

/-- The table without key `k`. -/
def mdel (m : List (Nat × β)) (k : Nat) : List (Nat × β) :=
  match m with
  | [] => []
  | (a, w) :: r => if a = k then mdel r k else (a, w) :: mdel r k

/-- Every key of the table is at least `lo` and the keys rise strictly. -/
def mwfFrom (lo : Nat) (m : List (Nat × β)) : Bool :=
  match m with
  | [] => true
  | (a, _) :: r => decide (lo ≤ a) && mwfFrom (a + 1) r

/-- The keys of the table rise strictly. -/
def mwf (m : List (Nat × β)) : Bool := mwfFrom 0 m

/-- The value at key `k`, or the default there. -/
def sget (d : Nat → β) (m : List (Nat × β)) (k : Nat) : β := (mget m k).getD (d k)

/-- The table with `v` at key `k`: an entry equal to its default is not listed. -/
def sset [DecidableEq β] (d : Nat → β) (m : List (Nat × β)) (k : Nat) (v : β) : List (Nat × β) :=
  if v = d k then mdel m k else mput m k v

/-- The canonical form of a table with defaults: keys rise strictly and no entry equals its default. -/
def swf [DecidableEq β] (d : Nat → β) (m : List (Nat × β)) : Bool :=
  mwf m && m.all (fun e => !decide (e.2 = d e.1))

/-- The table in canonical form, with the same value at every key. -/
def mcanon (m : List (Nat × β)) : List (Nat × β) := m.foldr (fun e r => mput r e.1 e.2) []

/-- The table with defaults in canonical form, with the same value at every key. -/
def scanon [DecidableEq β] (d : Nat → β) (m : List (Nat × β)) : List (Nat × β) := m.foldr (fun e r => sset d r e.1 e.2) []

/-- Every value of the table changed by `f`, keys kept. -/
def mmap {γ : Type} (f : Nat → β → γ) (m : List (Nat × β)) : List (Nat × γ) :=
  m.map (fun e => (e.1, f e.1 e.2))

/-- The value at key `k` changed by `f`, where the table lists one. -/
def mmod (m : List (Nat × β)) (k : Nat) (f : β → β) : List (Nat × β) :=
  match mget m k with
  | some v => mput m k (f v)
  | none => m

/-- The keys whose values satisfy `p`, rising. -/
def mkeys (m : List (Nat × β)) (p : Nat → β → Bool) : List Nat :=
  (m.filter (fun e => p e.1 e.2)).map (·.1)

/-- The smallest key at or above `lo` below `lo + fuel` that `p` accepts. -/
def firstKey (p : Nat → Bool) (lo fuel : Nat) : Option Nat :=
  match fuel with
  | 0 => none
  | n + 1 => if p lo then some lo else firstKey p (lo + 1) n

end Sys2Proof.Machine
end

