-- ==== Sys2Proof/Machine/Types.lean ====
section
/-!
DEFINITION. The kinds of state the module holds, part by part, as plain data. `Machine/State.lean` puts them
together.
-/
namespace Sys2Proof.Machine

/-! ### What leaves the module -/

/-- One thing that leaves the module for a host, in the order in which it leaves. -/
inductive HostOut where
  /-- The data of a completed register read. -/
  | readData (who : Party) (value : Word)
  /-- A read completed with Unsupported Request (R41). -/
  | readUr (who : Party)
  /-- An MSI-X message of function `fn` (0 for PF0, 1 for PF1): the address and data of its vector's entry. -/
  | msix (port : Port) (fn vector : Nat) (addr : Word) (data : BitVec 32)
  /-- A memory write of PF1 with the slice's PASID (R61). -/
  | memWrite (port : Port) (pasid : BitVec 20) (addr : Nat) (bytes : Bytes)
  /-- A memory read of PF1; `ro` is the Relaxed Ordering attribute (R62). -/
  | memRead (port : Port) (pasid : BitVec 20) (addr len : Nat) (ro : Bool)
  /-- The completion of a function level reset (R82). -/
  | flrDone (port : Port) (fn : Nat)
  /-- A PUT_SHARE to a custodian card (R314): the ceremony point, the ceremony and the wrapped share. -/
  | cardPut (slot ceremony : Nat) (point wrapped : Bytes)
  /-- Any other command to a custodian card (R314, Table 5): CLA, INS, P1, P2 and the data. -/
  | cardCommand (slot : Nat) (head data : Bytes)
deriving DecidableEq, Repr

/-! ### Ports, slices and rings -/

/-- One entry of an MSI-X table, with its pending bit (R45, R59). -/
structure MsixEntry where
  addr    : Word := 0
  data    : BitVec 32 := 0
  masked  : Bool := true
  pending : Bool := false
deriving DecidableEq, Repr

/-- One host port (R59 to R62, R79, R82). -/
structure PortState where
  linkUp   : Bool := false
  speed    : Nat := 0
  width    : Nat := 0
  /-- The link has been up since the cold start, and how often it has come up again (PTx_LINK.retrains). -/
  trained  : Bool := false
  retrains : Nat := 0
  /-- The Enable Relaxed Ordering bit of PF1 (R62). -/
  roEnable : Bool := true
  /-- Functions in D3hot (R60), 0 for PF0 and 1 for PF1. -/
  d3       : List Nat := []
  /-- Written registers of configuration space, by function × 0x1000 + offset (R59, R60; log entry 58). -/
  cfg      : List (Nat × BitVec 32) := []
  /-- PF1 is between an FLR request and its end (R82). -/
  flr      : Bool := false
  /-- Slices whose squash the FLR waits for. -/
  flrWait  : List Nat := []
  /-- MSI-X entries: PF0 vector v at v, PF1 vector v at 128 + v. -/
  msix     : List (Nat × MsixEntry) := []
deriving DecidableEq, Repr

/-- Slice states (R65, Table 3). -/
inductive SliceMode | absent | active | draining | squashing | quiesced
deriving DecidableEq, Repr

/-- The slice policy record (R327), with the default policy of a new slice. -/
structure Policy where
  prioHigh      : Nat := 7
  prioLow       : Nat := 7
  exportGrant   : Bool := false
  replayCapture : Bool := false
  pinGrants     : Nat := 0
  pinScreenMin  : Nat := 0
  weight        : Nat := 1
  ctxQuota      : Nat := 8
  cellQuota     : Nat := 64
  depth         : Nat := 1024
  rate          : Nat := 1000
  minRate       : Nat := 0
  /-- Grant words of classes 0x00 to 0x09: bit b of word c grants opcode c × 0x100 + b. -/
  grants        : List Word := [1, 0, 0, 0, 0, 0, 0, 0, 0, 0]
deriving DecidableEq, Repr

/-- One slice (R63, R65, R230, R322 to R333). Buckets are kept in units of 2^−20 WU (R329). -/
structure Slice where
  mode       : SliceMode := .absent
  portA      : Bool := false
  portB      : Bool := false
  pasidA     : BitVec 20 := 0
  pasidB     : BitVec 20 := 0
  hold       : Bool := false
  squashed   : Nat := 0
  unwritten  : Nat := 0
  keyBase    : Nat := 0
  keyCount   : Nat := 0
  policy     : Policy := {}
  contexts   : Nat := 0
  cells      : Nat := 0
  rateLevel  : Nat := 0
  owedLevel  : Nat := 0
  rateFrac   : Nat := 0
  owedFrac   : Nat := 0
  deficit    : Nat := 0
  /-- The pair the rotation of R333 starts at. -/
  nextPair   : Nat := 0
  waitRings  : Nat := 0
  waitCtx    : Bool := false
  waitCells  : Bool := false
  waitReserve : Bool := false
  waitRate   : Bool := false
  /-- The pair whose head waits for the rate bucket and so has first claim on it (R333). -/
  claim      : Option Nat := none
deriving DecidableEq, Repr

/-- Ring states (Table 8 of the slice page). -/
inductive RingMode | disabled | running | error | held
deriving DecidableEq, Repr

/-- One scatter-list entry (R93): the length field 0 is held as 16,777,216. -/
structure SgEntry where
  addr : Nat
  len  : Nat
  out  : Bool
deriving DecidableEq, Repr

/-- A head in a ring's fetch slot: the descriptors read so far, and, once parsed, what parsing decided. -/
structure FetchSlot where
  descs   : List Bytes
  parsed  : Bool := false
  sg      : List (List SgEntry) := []
  blocks  : List Bytes := []
  charge  : Nat := 0
  /-- The charge of each step, fixed at parsing (R111). -/
  charges : List Nat := []
  /-- The port through which the head is read. -/
  port    : Port := .a
deriving DecidableEq, Repr

/-- One completion owed to a ring, in commit order (R71). `entry` is its completion-ring position. -/
structure Owed where
  seq      : Nat
  bytes    : Bytes
  ext      : Bytes
  segs     : List SgEntry
  signal   : Bool
  /-- The step whose cells and context its writing releases; none for a refused chain. -/
  step     : Option Nat
  entry    : Nat
  /-- Delivered again after a switchover: its position was already counted (R440). -/
  again    : Bool := false
deriving DecidableEq, Repr

/-- One ring pair (R66 to R79). -/
structure Ring where
  enable    : Bool := false
  sizeCode  : Nat := 0
  home      : Nat := 0
  irqEn     : Bool := false
  vector    : Nat := 0
  coalCount : Nat := 0
  coalTime  : Nat := 0
  mode      : RingMode := .disabled
  /-- The port carrying the pair: 0 none, 1 Port A, 2 Port B. -/
  portNow   : Nat := 0
  /-- The port that carried the pair before it was held, and whether it was in error then (R79). -/
  lastPort  : Nat := 0
  heldError : Bool := false
  sqBase    : Word := 0
  cqBase    : Word := 0
  stsAddr   : Word := 0
  sqHead    : BitVec 32 := 0
  sqTail    : BitVec 32 := 0
  cqTail    : BitVec 32 := 0
  cqHead    : BitVec 32 := 0
  /-- The completion-ring position of the next commit of this pair (R428: each COMMIT record carries its entry). -/
  cqNext    : BitVec 32 := 0
  fetch     : Option FetchSlot := none
  /-- Descriptors consumed whose completions have not been written. -/
  debt      : Nat := 0
  owed      : List Owed := []
  /-- Commit sequence number of the completion at cq_tail − 1. -/
  lastSeq   : Nat := 0
  /-- Completions written since the last message, and NT of the first of them. -/
  unsig     : Nat := 0
  unsigNt   : Nat := 0
  /-- A home write waits for the next batch boundary (R78). -/
  moveTo    : Option Port := none
  /-- The last submission doorbell and the last completion doorbell recorded during a gap, and who wrote them (R76). -/
  gapDb     : Option (Party × Word) := none
  gapCq     : Option (Party × Word) := none
  /-- Completions written whose DELIVERED record the standby die has not applied, oldest first (R440). -/
  uncovered : List Owed := []
deriving DecidableEq, Repr

/-- One hardware semaphore (R84 to R86). -/
structure Sem where
  holder   : Option Party := none
  leaseEnd : Nat := 0
deriving DecidableEq, Repr

/-! ### Key records -/

/-- A primary key record (R236). Its generation, counters and window are numbers. `pending` is bit 3 of its flags. -/
structure KeyRecord where
  algorithm  : Nat := 0
  cls        : Nat := 0
  usage      : Nat := 0
  mode       : Nat := 0
  exportab   : Nat := 0x4E
  counted    : Bool := false
  expireAtReset : Bool := false
  windowed   : Bool := false
  pending    : Bool := false
  provenance : Nat := 0
  generation : Nat := 0
  owner      : Nat := 0
  extCount   : Nat := 0
  usesLeft   : Nat := 0
  resetEpoch : Nat := 0
  validFrom  : Nat := 0
  validUntil : Nat := 0
  nonceCtr   : Nat := 0
  activateAt : Nat := 0
  algParams  : Bytes := zeros 16
  /-- Length of the key's material, which the primary record and its extensions hold together. -/
  matLen     : Nat := 0
  material   : Bytes := []
deriving DecidableEq, Repr

/-- What a frame holds (R232, R236, R243, R246). -/
inductive FrameBody where
  | never
  | primary (r : KeyRecord)
  | extension (primary gen : Nat) (material : Bytes)
  | tombstone (lastGen : Nat)
deriving DecidableEq, Repr

/-- A sealed frame (R232, R233): what it says, and `image`, its bytes 0 to 9, its enciphered body and its tag as the pipeline
formed them. `intact` says that the bytes the die holds are still those. -/
structure Frame where
  rootId : Nat := 0
  sealNo : Nat := 0
  body   : FrameBody := .never
  image  : Bytes := []
  intact : Bool := true
deriving DecidableEq, Repr

/-- A directory word (R262). Shadow frames are named while the slot uses them. -/
structure Dir where
  shadowA : Option Nat := none
  shadowB : Option Nat := none
  cur     : Nat := 0
  pend    : Nat := 0
  occupied : Bool := false
  ext     : Bool := false
  damaged : Bool := false
  /-- The last generation of the slot (R246). -/
  lastGen : Nat := 0
deriving DecidableEq, Repr

/-- One frame write of a key transaction: the slot, its old and new directory words and the frame written
(place 0 home, 1 shadow A, 2 shadow B). -/
structure FrameWrite where
  slot   : Nat
  oldDir : Dir
  newDir : Dir
  place  : Nat
  frame  : Frame
deriving DecidableEq, Repr

/-- A roster entry (R300). -/
structure RosterEntry where
  card     : Bool
  remote   : Bool
  cardFp   : Bytes
  remoteFp : Bytes
deriving DecidableEq, Repr

/-- A roster: its quorum M and its entries in cust_index order (R300). -/
structure Roster where
  m       : Nat := 0
  entries : List RosterEntry := []
deriving DecidableEq, Repr

/-- A roster as the MRAM dies hold it: sealed under a key that R301 derives from a root. -/
structure SealedRoster where
  key    : Bytes := []
  roster : Roster := {}
deriving DecidableEq, Repr

/-- Why a mark exists: a request's step, or an internal transaction (R257). -/
inductive TxnKind where
  | step (k : Nat)
  | cutover
  | resetErase
  | homing
  /-- The roster of a new owner root, once its shares are written (R301, R318). -/
  | roster
deriving DecidableEq, Repr

/-- A progress mark (R261) with the frames of its transaction. -/
structure Mark where
  flipped   : Bool := false
  kind      : TxnKind
  sliceNo   : Nat
  slot      : Nat
  clientSeq : Nat
  logPos    : Nat := 0
  seq       : Nat := 0
  nt        : Nat := 0
  writes    : List FrameWrite
  /-- Step 2 is done: the new frames are held on every die required. -/
  framesHeld : Bool := false
  /-- Slots whose material an immediate erase withdraws at commit (R248). -/
  withdraws : Bool := false
  /-- Slots that it creates, rewrites, erases or cuts over (R261). -/
  changes   : List Nat := []
  /-- Rosters that it changes: the domain, the old sealed copy and the new one (R301). -/
  rosters   : List (Nat × SealedRoster × SealedRoster) := []
deriving DecidableEq, Repr

/-- One key-cache entry (R249): one group at one generation. -/
structure CacheEntry where
  slot  : Nat
  gen   : Nat
  key   : KeyRecord
  stamp : Nat
deriving DecidableEq, Repr

/-- The originating or nonce counter that the generations of one key material share: the next value that no draw of the active
die has received (R193, R222). -/
structure CounterDraw where
  gens : List Nat
  next : Nat
deriving DecidableEq, Repr

/-- A seal or open job of one frame (R233, R369). -/
inductive FrameJob where
  /-- Seal the write `ix` of a mark. -/
  | sealWrite (mark ix : Nat)
  /-- Open frame `j` of the group of a slot at a generation, for a key-cache entry. -/
  | openFrame (slot gen j : Nat)
  /-- A job whose transaction has been rolled back meanwhile. -/
  | void
deriving DecidableEq, Repr

/-- The key-store controller of the active die. -/
structure KstState where
  /-- The key store is open (step 10 of a start, R264). -/
  isOpen   : Bool := false
  rootId   : Nat := 0
  rootKey  : Bytes := []
  marks    : List (Nat × Mark) := []
  cache    : List CacheEntry := []
  clock    : Nat := 0
  /-- Slots in withdrawal after an immediate erase (R248), with the NT at which the material must be gone. -/
  withdrawal : List (Nat × Nat) := []
  /-- Slots that hold a pending record, with the NT of the commit that wrote it (R250). -/
  pendings : List (Nat × Nat) := []
  /-- Pending cutovers whose wait for trust was journalled (R250). -/
  waitNoted : List Nat := []
  /-- Frames under repair: a tag failed and the other die's copy was requested (R235): the slot, and whether it is the frame
  of its pending record. -/
  repairing : List (Nat × Bool) := []
  /-- Seal numbers of the reserved block: next and end (R234). -/
  sealNext : Nat := 0
  sealEnd  : Nat := 0
  shadowMin : Nat := 0
  /-- Originating and nonce counters drawn from since the die took its role, by slot (R193, R222). -/
  draws : List (Nat × List CounterDraw) := []
deriving DecidableEq, Repr

/-- One slice's transaction log (R258, R263): entries by position, next position, window full. -/
structure TxnLog where
  entries : List (Nat × Nat) := []
  next    : Nat := 0
  full    : Bool := false
deriving DecidableEq, Repr

/-! ### Execution -/

/-- One bound position of a step (R101 to R103): a key, or an empty target (R231). -/
structure Bound where
  pos     : Nat
  slot    : Nat
  gen     : Nat
  target  : Bool := false
  counted : Bool := false
  /-- What the first transaction numbered since the binding has made of the generation, if it took it away (R360, R361). -/
  lost    : Option (BitVec 16) := none
deriving DecidableEq, Repr

/-- Key-store changes that a step's commit applies. -/
inductive KeyChange where
  | create (slot : Nat) (r : KeyRecord)
  | rewrite (slot boundGen : Nat) (source : Nat) (r : KeyRecord) (activateAt : Nat)
  | erase (slot boundGen : Nat) (immediate : Bool)
  | eraseDamaged (slot : Nat)
  | setActivate (slot boundGen activateAt : Nat)
  | dropPending (slot boundGen : Nat)
  | cutNow (slot boundGen : Nat)
  | nonce (slot boundGen value : Nat)
deriving DecidableEq, Repr

/-- Changes outside the key store that a step's commit applies. -/
inductive Effect where
  | measureExtend (reg : Nat) (claim : Bool) (value : Bytes)
  | measureRead (reg : Nat) (release : Bool)
  | streamOpen (id slot gen mode : Nat) (chain : Bytes)
  | streamUpdate (id : Nat) (chain : Bytes) (pos : Nat) (final : Bool)
  | streamClose (id : Nat)
  | btcInval (selector page : Nat)
  | ceremonyOpen (id expires : Nat) (nonce priv pub : Bytes)
  | ceremonyApprove (id entry : Nat) (token : Bytes)
  | componentEnter (id entry : Nat) (value : Bytes)
  | ceremonyClose (id : Nat)
  | ceremonyCancel (id : Nat)
  | shareAccept (id index m : Nat) (ownerFp share cardFp : Bytes)
  | invalidApproval (id : Nat)
  | consumeCard (port : Nat)
  | rootMade (id : Nat) (root : Bytes) (shares : List (Nat × Bytes))
  | replayRun (digest : Bytes)
deriving DecidableEq, Repr

/-- The outcome of a step's function: what its commit will do. -/
structure Result where
  status  : BitVec 16
  out     : Bytes := []
  ext     : Bytes := []
  /-- Positions whose reserved use the commit spends (the spending rule of the function for this status). -/
  spends  : List Nat := []
  keys    : List KeyChange := []
  effects : List Effect := []
  /-- Core cycles from activation to readiness (R115, R145). -/
  cycles  : Nat := 0
  /-- DRBG outputs in draw order, and the counter value drawn, for replay capture (R518). -/
  drawn   : List Bytes := []
  counter : Nat := 0
  /-- The checks of R269 on the private-key operations hold. -/
  holds   : Bool := true
deriving DecidableEq, Repr

/-- An engine job of a step: on a BNL or pipeline ready list, running, or done. -/
inductive JobState | none | queued | running | done
deriving DecidableEq, Repr

/-- Where a step stands between admission and the release of its cells. -/
inductive StepPhase where
  /-- On no list: it waits for its guard or for an earlier step. -/
  | parked
  /-- On the core ready list of its level. -/
  | listed
  /-- In a core's prefetch slot. -/
  | prefetched (core : Nat)
  /-- Activated, in a core's executing slot. -/
  | executing (core : Nat)
  /-- Yielded: its live state is in a yield area (R337). -/
  | yielded
  /-- Ready to commit, keeping its executing slot for want of a free Eddy entry (R355). -/
  | readyOnCore (core : Nat)
  /-- Ready, in an Eddy entry. -/
  | inEddy (core entry : Nat)
  /-- Scrubbed or ended without an entry: it commits in step order with its status. -/
  | ended
  /-- Committed; its completion is owed. -/
  | committed
deriving DecidableEq, Repr

/-- One admitted step (R89, R322, R323). Its key is context number × 8 + step index. -/
structure Step where
  desc    : Bytes
  sg      : List SgEntry
  /-- The parameter block that parsing read (R321). -/
  block   : Bytes := []
  sliceNo : Nat
  pair    : Nat
  sqPos   : BitVec 32
  entry   : Nat
  admNt   : Nat
  level   : Nat
  charge  : Nat
  /-- The Pool cells that it holds: three of its item, then those of its scatter list (R323). -/
  cells   : List Nat := []
  index   : Nat
  last    : Nat
  /-- Context number of step 0; the chain runs sequentially in it when `sequential`. -/
  chain   : Nat
  sequential : Bool
  admitSeq : Nat
  phase   : StepPhase
  /-- NT at which it entered its ready list. -/
  listNt  : Nat := 0
  deferred : Bool := false
  ahead   : Bool := false
  /-- How its guard committed: with ST_OK or not; none while the guard has not committed (R359, R363). -/
  guardOk : Option Bool := none
  /-- An earlier step with halt 1 has committed with a status other than ST_OK (R110, R359). -/
  haltFailed : Bool := false
  actNt   : Nat := 0
  policyCapture : Bool := false
  pinGrants : Nat := 0
  pinScreenMin : Nat := 0
  bound   : List Bound := []
  /-- Binding waits for a key-cache entry from this position on (R249). -/
  bindWait : Option Nat := none
  /-- NT at which a generate call began to wait for a seed (R390). -/
  seedWait : Option Nat := none
  /-- The translation a bulk step obtained at activation: its source and destination segments (R218). -/
  trans   : Option (List SgEntry) := none
  /-- Its data pass has been accepted. -/
  accepted : Bool := false
  /-- The input segments have been read into `input`. -/
  inputDone : Bool := false
  input   : Bytes := []
  ran     : Bool := false
  result  : Option Result := none
  job     : JobState := .none
  /-- BNL reruns after a failed check (R270). -/
  retries : Nat := 0
  /-- A status that ends the step at its next boundary (R81, R106, R248, R361). -/
  ending  : Option (BitVec 16) := none
  /-- Trace items held while it runs ahead (R358). -/
  heldTrace : List Bytes := []
  admAcked : Bool := false
  mark    : Option Nat := none
  /-- The commit record has been sent with this number and NT, or the commit point has fallen. -/
  seq     : Option Nat := none
  commitNt : Nat := 0
  final   : BitVec 16 := 0
deriving DecidableEq, Repr

/-- A chain refused at parsing or admission, waiting to commit (R33, R69). -/
structure Refused where
  sliceNo : Nat
  pair    : Nat
  descs   : List Bytes
  status  : BitVec 16
  admNt   : Nat
  admitSeq : Nat
  admAcked : Bool
  /-- Commit sequence number, commit NT and completion-ring position of step 0, once its commit records are sent; the
  others follow by one each. -/
  sent    : Option (Nat × Nat × Nat) := none
  /-- Steps that have committed, and steps whose completions are owed. -/
  applied : Nat := 0
  next    : Nat := 0
deriving DecidableEq, Repr

/-- States of an Eddy entry (R354). -/
inductive EddyMode | free | ahead | held | order | commit | scrub
deriving DecidableEq, Repr

/-- A store in a core's write buffer (R407, R408): its address and data, the rule set that was active when it was issued, and the
step that issued it. -/
structure Buffered where
  addr : Nat
  data : Bytes
  set  : Nat
  step : Nat
deriving DecidableEq, Repr

/-- One Eddy entry of a core: its state and the step it serves. -/
structure EddyEntry where
  mode : EddyMode := .free
  step : Nat := 0
deriving DecidableEq, Repr

/-- One transaction core of the active die (R336, R353). -/
structure Core where
  exec : Option Nat := none
  pre  : Option Nat := none
  eddy : List EddyEntry := [{}, {}, {}, {}]
  /-- Its write buffer, oldest first, and the data that its last load received (R397, R407). -/
  buffer : List Buffered := []
  loaded : Bytes := []
deriving DecidableEq, Repr

/-- The items of an overwrite-oldest queue of the Pool (R346, R348), oldest first. -/
structure PoolQueue where
  /-- The cell and the body of each item. -/
  items : List (Nat × Bytes) := []
  cap   : Nat
  lost  : Nat := 0
deriving DecidableEq, Repr

/-- Confluence of the active die. -/
structure Confluence where
  steps    : List (Nat × Step) := []
  refused  : List Refused := []
  ready    : List (Nat × List Nat) := []
  bnlReady : List (Nat × List Nat) := []
  pipeReady : List (Nat × List Nat) := []
  /-- Seal and open jobs stand ahead of every level (R339): those that wait for a pipeline, in arrival order. -/
  sealReady : List FrameJob := []
  owedList : List Nat := []
  openList : List Nat := []
  /-- Slices at the head of a list whose visit has begun: their quantum has been added (R332). -/
  visiting : List Nat := []
  pointer  : Nat := 0
  /-- Contexts in use: context number and owning slice. -/
  ctxs     : List (Nat × Nat) := []
  ctxMin   : Nat := 32768
  poolMin  : Nat := 262144
  trace    : PoolQueue := { cap := 16384 }
  notes    : PoolQueue := { cap := 4096 }
  yieldFree : Nat := 8192
  /-- NT of the last bucket credit, in whole µs (R329). -/
  creditUs : Nat := 0
  commitSeq : Nat := 0
  admitCount : Nat := 0
deriving DecidableEq, Repr

end Sys2Proof.Machine
end

