-- ==== Sys2Proof/Machine/TypesBase.lean ====
section
/-!
DEFINITION. The kinds of state of the base die and of the two MRAM dies: network time, switchover, Levee,
life cycle and fuses, starts and firmware, custodians, the vault, Gauge.
-/
namespace Sys2Proof.Machine

/-! ### Network time (R414 to R425) -/

/-- Trust states (R418). -/
inductive Trust | untrusted | locked | holdover
deriving DecidableEq, Repr

/-- An armed label and the NT of the write that armed it (R417). -/
structure Label where
  label : Nat
  at_   : Nat
deriving DecidableEq, Repr

/-- The network time unit. Phase errors and corrections are signed. NT begins one second above a vault floor of zero
(R425). A time from which a duration runs is moved with every step of NT (R422). -/
structure NtUnit where
  ns        : Nat := 1000000000
  trust     : Trust := .untrusted
  refOk     : Bool := false
  goodRun   : Nat := 0
  cause     : Nat := 1
  armed     : Option Label := none
  nextPulse : Word := 0
  allowBack : Bool := false
  ppsFalling : Bool := false
  /-- Timestamp of the last accepted edge as it was taken (NTU_LAST_PULSE), and as durations count from it. -/
  edgeNt    : Nat := 0
  lastEdge  : Option Nat := none
  lastLabel : Option Nat := none
  lastE     : Int := 0
  /-- NT of the last applied labelled edge, and of the last applied edge with |e| ≤ 1 µs. -/
  lastLabelled : Option Nat := none
  lastGood  : Nat := 0
  /-- A labelled edge has been applied in this stay in UNTRUSTED. -/
  stayLabelled : Bool := false
  outlierRun : Nat := 0
  outliers  : Nat := 0
  ignored   : Nat := 0
  correction : Int := 0
  wander    : Nat := 1000
  /-- Frequency corrections of the last 4,096 s of LOCKED, newest first, by time spent in LOCKED (R421). -/
  history   : List (Nat × Int) := []
  /-- Time spent in LOCKED before the present stay. -/
  lockedNs  : Nat := 0
  /-- NT of entry to the current trust state. -/
  since     : Nat := 1000000000
  lastStep  : Int := 0
  steps     : Nat := 0
  changes   : Nat := 0
  /-- Phase still to be removed by slewing, the slew limit in parts per million, and the part of a nanosecond, in 10^-6 ns,
  that the slew has gathered (R418). -/
  slewLeft  : Int := 0
  slewPpm   : Nat := 0
  slewPart  : Nat := 0
deriving DecidableEq, Repr

/-! ### Mirror link and switchover (R426 to R449) -/

/-- What a mirror record carries (R428). -/
inductive MirrorBody where
  | admission (steps : List Nat)
  | admitRefused (admitSeq : Nat)
  | frame (mark : Nat)
  | commit (k : Nat)
  /-- The commit of one step of a refused chain. -/
  | commitRefused (admitSeq index : Nat)
  | commitInternal (mark : Nat)
  /-- An internal commit that writes no frame: a ceremony event (R315). -/
  | commitOwn (commit : Nat)
  | delivered (ring cqTail seq : Nat)
  | journal (bytes : Bytes)
  | catchup (fromSeq : Nat)
deriving DecidableEq, Repr

/-- A mirror record that its sender keeps until it is acknowledged (R427). -/
structure MirrorRec where
  seq     : Nat
  half    : Nat
  sentNt  : Nat
  body    : MirrorBody
  arrived : Bool := true
  applied : Bool := false
deriving DecidableEq, Repr

/-- The health state of a die's report (R449). -/
inductive Health | good | advisory | alarm | fatal
deriving DecidableEq, Repr

/-- One arbiter half's slot timers for one die: misses on P and Q, last counts, silence (R433). -/
structure SlotTimer where
  missP  : Nat := 0
  missQ  : Nat := 0
  countP : Option Nat := none
  countQ : Option Nat := none
  /-- The present run of misses on P, and on Q, has been counted as a path fault. -/
  notedP : Bool := false
  notedQ : Bool := false
  silent : Bool := false
  silentNt : Nat := 0
  /-- Slots with a valid heartbeat since the last miss on P, and on Q, up to four. -/
  goodP : Nat := 0
  goodQ : Nat := 0
deriving DecidableEq, Repr

/-- The units held as spares after manufacture (R19): 32 cores, 4 BNL engines, 1 pipeline, at the highest instance
numbers (log entry 5). -/
def initialSpares : List (Nat × Nat) :=
  (List.range 32).map (fun i => (1, 256 + i)) ++ (List.range 4).map (fun i => (2, 24 + i)) ++ [(3, 4)]

/-- A compute die as the module sees it (R19, R29 to R32, R443, R447 to R449). -/
structure DieState where
  inService : Bool := false
  joining   : Bool := false
  /-- Clocks stopped by a clock fault (R455). -/
  stopped   : Bool := false
  /-- Highest commit sequence number applied on the die. -/
  applied   : Nat := 0
  /-- Bank of units: instances out of service and instances held as spares, by unit kind 1 core, 2 BNL,
  3 pipeline, 4 digest engine. -/
  failed    : List (Nat × Nat) := []
  spares    : List (Nat × Nat) := initialSpares
  alarms    : Nat := 0
  health    : Health := .good
  declaredFatal : Option Nat := none
  yielding  : Bool := false
  selftestOn : Bool := false
  testCycles : Nat := 0
  /-- NT at which the running self-test cycle began, and whether a unit has failed in it (R447, R449). -/
  cycleNt   : Nat := 0
  failedNow : Bool := false
  lastFailKind : Nat := 0
  lastFailInst : Nat := 0
  lastFailNt : Nat := 0
  sramRowsUsed : Nat := 0
  /-- MEAS_00 to MEAS_31, 64 bytes each (R378). -/
  meas      : List (Nat × Bytes) := []
  rejoinTries : List Nat := []
  /-- The warden's attempts have failed: the die stays out of service (R443). -/
  givenUp   : Bool := false
  /-- Capacities of queues 24 and 25 of its Pool (POL_QCAP). -/
  capTrace  : Nat := 16384
  capNotes  : Nat := 4096
  /-- Digest engines whose slot 18 conditions the LNS, conditions the JNS and is the measurement unit (R372, R373). -/
  services  : List Nat := [0, 1, 2]
  /-- Hash states in the slots of the digest engines, by 20 × engine + slot; a slot that is not listed has hashed nothing
  (R371, R372). -/
  digests   : List (Nat × Bytes) := []
  /-- Queues 24 and 25 of its Pool while it is not the active die (R346), and the words of its last POL_QREAD0 that have not been
  read: the queue, and the numbers of the registers (R349). -/
  idleTrace : PoolQueue := { cap := 16384 }
  idleNotes : PoolQueue := { cap := 4096 }
  latched   : Option (Nat × List Nat) := none
  /-- The slot whose image the die runs, and a wipe of its MRAM die that waits for its next start (R474, R495). -/
  bootSlot  : Option Nat := none
  wipeDue   : Bool := false
deriving DecidableEq, Repr

/-- A running switchover gap (R438, R439). -/
structure Gap where
  declNt  : Nat
  cause   : Nat
  old     : Die
deriving DecidableEq, Repr

/-- An access to an alias that arrived in a gap: who made it, and whether the party held semaphore 0 as it arrived, which
decides a guarded write (R51, R56). -/
structure HeldAccess where
  who : Party
  acc : HostAccess
  sem : Bool
deriving DecidableEq, Repr

/-- The arbiter and the mirror link. -/
structure Switch where
  /-- The ownership token (R29), and the die that held it last (R30). -/
  token    : Option Die := none
  held     : Die := .d0
  half0Up  : Bool := false
  half1Up  : Bool := false
  nextSeq  : Nat := 0
  recs     : List MirrorRec := []
  hold     : Bool := false
  holdCause : Nat := 0
  gap      : Option Gap := none
  /-- Accesses to the aliases held during the gap, in arrival order (R51). -/
  aliasHeld : List HeldAccess := []
  planned  : Bool := false
  plannedNt : Nat := 0
  /-- Slot timers: half × 2 + die. -/
  timers   : List (Nat × SlotTimer) := []
  switchovers : Nat := 0
  plannedCount : Nat := 0
  rejoins  : Nat := 0
  lastCause : Nat := 0
  lastOld  : Nat := 0
  gapCycles : Nat := 0
  reexecuted : Nat := 0
  lastNt   : Nat := 0
  lastSeq  : Nat := 0
  health0  : Health := .good
  health1  : Health := .good
  coresLeft0 : Nat := 32
  coresLeft1 : Nat := 32
  /-- A receive-credit request of the die without the token, withdrawn until the holder's record is acknowledged. -/
  creditWithdrawn : Bool := false
deriving DecidableEq, Repr

/-! ### Levee (R450 to R467) -/

/-- One detector pair (R451 to R453). -/
structure DetPair where
  aNow     : Bool := false
  bNow     : Bool := false
  /-- NT at which a lone report began. -/
  aloneNt  : Option Nat := none
  aFailed  : Bool := false
  bFailed  : Bool := false
  degraded : Bool := false
  /-- The lone report has been noted as a detector fault (R451). -/
  noted    : Bool := false
deriving DecidableEq, Repr

/-- Levee's always-on and main-domain state. -/
structure Levee where
  pairs     : List (Nat × DetPair) := []
  /-- Occurrences in each counted hazard's window, newest first, as NT. -/
  windows   : List (Nat × List Nat) := []
  /-- Confirmed hazards whose response has not run, with their occurrence count and tier. -/
  due       : List (Nat × (Nat × Nat)) := []
  /-- A confirmed undervoltage of a main-domain rail whose brown-out has not run (R456). -/
  brownDue  : Bool := false
  /-- Hazards present now (level), by code. -/
  present   : List Nat := []
  /-- Always-on flags, by hazard code, and the zeroised flag (R467). -/
  flags     : List Nat := []
  zeroised  : Bool := false
  halted    : Bool := false
  tier3Count : Nat := 0
  lastHazard : Nat := 0
  lastTier  : Nat := 0
  lastEscalated : Bool := false
  lastCount : Nat := 0
  lastNt    : Nat := 0
  /-- NT at which the throttle ends, while in force (R459). -/
  throttleEnd : Option Nat := none
  tierNow   : Nat := 0
  /-- NT of recent tier-2 responses, newest first (R463). -/
  tier2s    : List Nat := []
  /-- Main-domain hazards are masked after a brown-out (R456). -/
  masked    : Bool := false
  lastTest  : Nat := 0
deriving DecidableEq, Repr

/-- The Levee configuration, held in the vault's kept region (R466). -/
structure LevConfig where
  throttle   : Nat := 1
  throttleMs : Nat := 1000
  escalate   : Nat := 3
  /-- tier, threshold, window_us of hazards 0x01 to 0x10; unlisted hazards hold their defaults. -/
  haz        : List (Nat × (Nat × Nat × Nat)) := []
deriving DecidableEq, Repr

/-! ### Life cycle and fuses (R468 to R484) -/

/-- Life-cycle states (R468). -/
inductive LifeState | raw | test | testOpen | factory | shipped | owned | analysis | scrap
deriving DecidableEq, Repr

/-- One copy of a fuse word: its readings at margin-low, nominal and margin-high (R479). -/
structure FuseCopy where
  low  : BitVec 32 := 0
  nom  : BitVec 32 := 0
  high : BitVec 32 := 0
deriving DecidableEq, Repr

/-- One fuse word: copy A and copy B (R477). -/
structure FuseWord where
  a : FuseCopy := {}
  b : FuseCopy := {}
deriving DecidableEq, Repr

/-- A transition's progress mark (R475): phase 1 WIPE, 2 BURN, 3 ROOT. -/
structure LifeMark where
  phase  : Nat
  from_  : LifeState
  target : LifeState
deriving DecidableEq, Repr

/-- The life-cycle controller and the fuse array. -/
structure LifeCtl where
  /-- Fuse words 0 to 511; a word not listed is blank. -/
  fuses    : List (Nat × FuseWord) := []
  /-- Words whose values were decided at the last sense: data with the programmed bit 24, and status (R479). -/
  decided  : List (Nat × (Nat × Nat)) := []
  /-- What the words meant before a sense in service that changed a meaning: it holds until the warm start (R481). -/
  inForce  : Option (List (Nat × (Nat × Nat))) := none
  state    : LifeState := .raw
  resolved : Bool := false
  staging  : Bytes := []
  token    : List Word := [0, 0, 0, 0]
  result   : Nat := 0
  target   : Nat := 0
  tokenIx  : Nat := 0
  busy     : Bool := false
  sensing  : Bool := false
  burning  : Bool := false
  trigger  : Nat := 0
  senseTemp : Int := 0
  marginal : Nat := 0
  ambiguous : Nat := 0
  lastWord : Nat := 0
  lastKind : Nat := 0
  lastRestrictive : Bool := false
  lastNt   : Nat := 0
  fusSel   : Nat := 0
  /-- Rewrites waiting: primary words. -/
  rewrites : List Nat := []
deriving DecidableEq, Repr

/-! ### Custodians (R299 to R321) -/


/-- Ceremony states (R309). -/
inductive CerMode | opened | quorate | applying
deriving DecidableEq, Repr

/-- A live ceremony (R305 to R311). -/
structure Ceremony where
  domain   : Nat
  action   : Nat
  mode     : CerMode := .opened
  nonce    : Bytes
  digest   : Bytes
  params   : Bytes
  keyPriv  : Bytes
  keyPub   : Bytes
  expires  : Nat
  /-- Custodians of the acting roster, and of the new roster by possession, that have approved. -/
  approved : List Nat := []
  possessed : List Nat := []
  components : List Bytes := []
  /-- Shares accepted in a RESTORE: index, M, owner_fp, share, card_fp. -/
  shares   : List (Nat × Nat × Bytes × Bytes × Bytes) := []
  /-- Shares still to be written in TAKE_OWNERSHIP and BACKUP, by cust_index. -/
  toWrite  : List (Nat × Bytes) := []
  invalid  : Nat := 0
  closeSeq : Nat := 0
  /-- The CEREMONY_CLOSE that took the ceremony to APPLYING (R309). -/
  closer   : Option Nat := none
deriving DecidableEq, Repr


/-- The binding and the policy of slice 0 while it runs in bootstrap form in OWNED (R303): what it has again once an owner root
stands. -/
structure SliceConf where
  portA  : Bool
  portB  : Bool
  pasidA : BitVec 20
  pasidB : BitVec 20
  policy : Policy
deriving DecidableEq, Repr

/-- The outcome of an ended ceremony (R311). -/
structure CerOutcome where
  id      : Nat
  domain  : Nat
  action  : Nat
  state   : Nat
  approvals : Nat
  components : Nat
  invalid : Nat
  expires : Nat
  closeSeq : Nat
deriving DecidableEq, Repr

/-- What a card session brought back (R315). -/
structure CardResult where
  ceremony : Nat
  op       : Nat
  point    : Bytes
  sig      : Bytes
  wrapped  : Bytes
  heldNt   : Nat
deriving DecidableEq, Repr

/-- One custodian card port (R314, R315). -/
structure CardPort where
  present  : Bool := false
  powered  : Bool := false
  /-- 0 idle, 1 running, 2 done, 3 failed. -/
  session  : Nat := 0
  cause    : Nat := 0
  op       : Nat := 0
  ceremony : Nat := 0
  startNt  : Nat := 0
  result   : Option CardResult := none
deriving DecidableEq, Repr

/-! ### Starts and firmware (R485 to R503) -/

/-- A die's boot record (R496, R499). Slots: 0 A, 1 B. -/
structure BootRec where
  slot     : Nat := 0
  trial    : Bool := false
  prevSlot : Nat := 0
  fallback : Bool := false
  mirror   : Nat := 0
  version  : Nat := 0
deriving DecidableEq, Repr

/-- What a firmware slot holds (R494, R496): stage of Table 5, the bytes received, and what its header says. -/
structure FwSlot where
  stage    : Nat := 0
  length   : Nat := 0
  words    : List Word := []
  accepted : Bool := false
  rollback : Nat := 0
  mirror   : Nat := 0
  version  : Nat := 0
  result   : Nat := 0
deriving DecidableEq, Repr

/-- The warden's start state (R485 to R493). -/
structure Starts where
  /-- A start requested and not yet run: 0 cold, 1 warm, 2 warm by recover. Power has just arrived at reset. -/
  due      : Option Nat := some 0
  /-- Quiesce runs until this NT before the warm start (R485); it has ended. -/
  quiesceEnd : Option Nat := none
  quiesced : Bool := false
  /-- Cause with which the last start failed, until the failure is recorded (R491). -/
  failing  : Option Nat := none
  /-- Dies that passed step 8 of the last start (R493). -/
  pass0    : Bool := false
  pass1    : Bool := false
  /-- Image digest of the base part that the warden runs (R490). -/
  baseImage : Bytes := []
  /-- Trial boots that failed and have not been counted (R500). -/
  trialLost : Nat := 0
  kind     : Nat := 0
  step     : Nat := 0
  failCause : Nat := 0
  elapsedMs : Nat := 0
  /-- Slots named by WDN_CTL.recover. -/
  recover0 : Nat := 0
  recover1 : Nat := 0
  /-- Die starts requested. -/
  dieDue0  : Bool := false
  dieDue1  : Bool := false
  rollout  : Bool := false
deriving DecidableEq, Repr

/-! ### The vault (R462) -/

/-- The vault: secret region and kept region. -/
structure Vault where
  ownerRoot   : Option Bytes := none
  analysisRoot : Option Bytes := none
  rosterCopy  : Roster := {}
  transferKey : Bytes := []
  instSeed    : Bytes := []
  /-- A kept-region block fails its CRC (R489). -/
  keptBad     : Bool := false
  sealNext    : Nat := 1
  resetEpoch  : Nat := 0
  cerNext     : Nat := 0
  outcomes    : List CerOutcome := []
  instCount   : Nat := 0
  ntFloor     : Nat := 0
  lifeMark    : Option LifeMark := none
  fuseMark    : Option (Nat × Nat) := none
  lev         : LevConfig := {}
  boot0       : BootRec := {}
  boot1       : BootRec := {}
  /-- 0 none, 1 trial, 2 BURN, 3 rolled back. -/
  fwPhase     : Nat := 0
  trialFails  : Nat := 0
  burnTarget  : Nat := 0
  activatedNt : Nat := 0
  /-- The activation was made in simplex running (R499, R501). -/
  fwSimplex   : Bool := false
  /-- Image digests recorded as owner-accepted (R495). -/
  accepted    : List Bytes := []
  failsRecent : Nat := 0
  /-- NT of the failed starts of the current record, oldest first (R491). -/
  failNts     : List Nat := []
  failsTotal  : Nat := 0
  lastFailNt  : Nat := 0
  recovery    : Bool := false
  /-- Recovery mode was entered under R492. -/
  recoveryKept : Bool := false
deriving DecidableEq, Repr

/-! ### Gauge, trace and replay (R504 to R522) -/

/-- A journal event before it is written (R504). -/
structure JEvent where
  code     : Nat
  severity : Nat
  source   : Nat
  repeats  : Nat := 0
  slice    : Option Nat := none
  nt       : Nat
  seqAt    : Nat := 0
  detail   : Bytes := []
  /-- Opcode of the request that it concerns, and its Pool cell while it is staged (R346). -/
  op       : Nat := 0
  cell     : Option Nat := none
deriving DecidableEq, Repr

/-- The overflow summary (R508). -/
structure JSummary where
  count   : Nat
  firstNt : Nat
  lastNt  : Nat
  classes : Nat
  severity : Nat
deriving DecidableEq, Repr

/-- Staging of journal events (R507, R508). -/
structure JQueue where
  staged  : List JEvent := []
  cont    : Option JEvent := none
  summary : Option JSummary := none
deriving DecidableEq, Repr

/-- A capture entry (R518). -/
structure Capture where
  sliceNo  : Nat
  opcode   : Nat
  complete : Bool
  ranAhead : Bool
  deleted  : Bool := false
  seq      : Nat
  actNt    : Nat
  gens     : List Nat
  counter  : Nat
  pinGrants : Nat
  pinScreenMin : Nat
  input    : Bytes
  drbg     : List Bytes
  status   : BitVec 16
  desc     : Bytes
  /-- Bytes 64 to 8,191 as they stand in MRAM: descriptor, input and DRBG output enciphered, and the tag. `intact` says that the
  bytes the die holds are still those. -/
  image    : Bytes := []
  intact   : Bool := true
deriving DecidableEq, Repr

/-- The replay session (R520): state 0 none, 1 open, 2 ended. -/
structure ReplaySession where
  state : Nat := 0
  slice : Nat := 0
  reg   : Nat := 28
  runs  : Nat := 0
  limit : Nat := 0
  ends  : Nat := 0
deriving DecidableEq, Repr

/-- The Gauge controller. -/
structure Gauge where
  q        : JQueue := {}
  /-- The controller's own 16-entry buffer, used in a gap, before step 5 of a start and in tamper-halt. -/
  buf      : JQueue := {}
  writing  : Option JEvent := none
  lostStaged : Nat := 0
  nextRec  : Nat := 0
  /-- Records of a carry pair and epoch record still to be written ahead of other records. -/
  own      : List JEvent := []
  epochS   : Nat := 3600
  epochStart : Nat := 0
  epochCommits : Nat := 0
  epochRecords : Nat := 0
  epochHi  : Int := 0
  epochLo  : Int := 0
  epochVinLo : Nat := 0
  epochVinHi : Nat := 0
  /-- Histogram bins of the current and the closed bank: slice × 640 + class × 64 + bin. -/
  cur      : List (Nat × Nat) := []
  closed   : List (Nat × Nat) := []
  curStart : Nat := 0
  closedStart : Nat := 0
  tat      : List Nat := [0, 0, 0, 0, 0, 0, 0]
  loTemp   : Int := 0
  hiTemp   : Int := 0
  loVin    : Nat := 0
  hiVin    : Nat := 0
  loVaux   : Nat := 0
  hiVaux   : Nat := 0
  loVbat   : Nat := 0
  lastSecond : Nat := 1000000000
  jrnSel   : Word := 0
  histSel  : Word := 0
  lastCommitNt : Nat := 0
  /-- Hazards whose severity-3 event found 16 others staged: the warden writes their records from their flags (R508). -/
  owedFlags : List Nat := []
  /-- NT since which the present epoch length counts. -/
  epochFrom : Nat := 0
  /-- HLT_SUMMARY.life_left, updated at every epoch close (R548). -/
  lifeLeft : Nat := 300
  replay   : ReplaySession := {}
deriving DecidableEq, Repr

/-- One MRAM die (R22, R23, R263). Frames, directory words, logs, journal and capture are held sparsely. -/
structure Mram where
  home     : List (Nat × Frame) := []
  shadow   : List (Nat × Frame) := []
  dirs     : List (Nat × Dir) := []
  logs     : List (Nat × TxnLog) := []
  /-- Slots whose bit of the reset-expiry bitmap is set, rising. -/
  expiry   : List Nat := []
  journal  : List (Nat × Bytes) := []
  capture  : List (Nat × Capture) := []
  captured : Nat := 0
  slotA    : FwSlot := {}
  slotB    : FwSlot := {}
  rosters  : List (Nat × SealedRoster) := []
  /-- The die's own spare-sector map (R22, R23): a replaced sector and the number of the spare sector that holds its contents. -/
  sectors  : List (Nat × Nat) := []
deriving DecidableEq, Repr

end Sys2Proof.Machine
end

