-- ==== Sys2Proof/Machine/TypesUnits.lean ====
section
/-!
DEFINITION. The kinds of state of the shared units of a compute die and of the module's supply: BNL engines,
streams, the buffer translation cache, streaming pipelines, cipher lanes, noise sources, conditioner and DRBG
instances, shared SRAM, protection rule sets, supply, governor and sensors.
-/
namespace Sys2Proof.Machine

/-- One BNL engine of the active die (R267 to R272). -/
structure Engine where
  /-- The step whose job it runs. -/
  job        : Option Nat := none
  /-- NT at which the job started. -/
  startNt    : Nat := 0
  lastSlice  : Nat := 0
  lastModule : Bool := false
  /-- An owner has been recorded: a job has run since the last start. -/
  used       : Bool := false
  scrubbed   : Bool := true
deriving DecidableEq, Repr

/-- One open stream (R220). `chain` is the counter block of the next byte, or the CBC chaining value. -/
structure Stream where
  slice  : Nat
  slot   : Nat
  gen    : Nat
  mode   : Nat
  chain  : Bytes
  pos    : Nat := 0
  final  : Bool := false
  lastNt : Nat := 0
deriving DecidableEq, Repr

/-- One cached buffer-table page (R218). -/
structure BtcPage where
  slice  : Nat
  addr   : Nat
  bytes  : Bytes
  filled : Nat
  valid  : Bool := true
  used   : Nat
deriving DecidableEq, Repr

/-- One accepted data pass (R227 to R229, R370). -/
structure Pass where
  step    : Nat
  pipe    : Nat
  level   : Nat
  sliceNo : Nat
  port    : Port
  slot    : Nat
  gen     : Nat
  key     : Bytes
  mode    : Nat
  chain   : Bytes
  src     : List SgEntry
  dst     : List SgEntry
  len     : Nat
  acceptNt : Nat
  /-- The commit that starts the pass has fallen. -/
  started : Bool := false
  /-- The status with which the pass is abandoned as it would start: its cause came before the commit was known (R229). -/
  doom    : Option (BitVec 16) := none
deriving DecidableEq, Repr

/-- One streaming pipeline of the active die (R368 to R370). -/
structure Pipe where
  running   : Option Nat := none
  suspended : List Nat := []
  /-- The seal or open job that it runs, and the NT at which it ends. -/
  sealing   : Option (FrameJob × Nat) := none
deriving DecidableEq, Repr

/-- One cipher lane of the active die (R364 to R367). Key codes as Table 3 of the cipher chapter. -/
structure Lane where
  /-- Code of the loaded schedule (Table 3 of the cipher chapter) and the key that it is expanded from. -/
  key       : Nat := 0
  schedule  : Bytes := []
  /-- The step that loaded it (R367). -/
  loader    : Option Nat := none
  kcvOpen   : Bool := false
  /-- Data bytes and working blocks accepted for the current step (R366). -/
  dataBytes : Nat := 0
  working   : Nat := 0
deriving DecidableEq, Repr

/-- Noise source states (R385). -/
inductive SrcMode | off | startup | running | restarting | fatal | raw
deriving DecidableEq, Repr

/-- One noise source. -/
structure Source where
  mode  : SrcMode := .off
  /-- NT of the failures of the last second, oldest first. -/
  fails : List Nat := []
  /-- NT at which the hold-off of RESTARTING ends. -/
  holdEnd : Nat := 0
deriving DecidableEq, Repr

/-- The random-bit subsystem of one compute die (R382 to R393). -/
structure Rng where
  lns   : Source := {}
  jns   : Source := {}
  /-- Seeds of the buffer, oldest first, 48 bytes each. -/
  seeds : List Bytes := []
  /-- Setting of RNG_DIE_CTL in force, and the setting that takes effect at the next block boundary. -/
  ctl     : Word := 0
  ctlNext : Option Word := none
  /-- Debiased bits of the seed in progress, in order, and their source (R386, R387). -/
  bits    : List Bool := []
  bitsSource : Nat := 0
  /-- Raw sampling: state 0 idle, 1 sampling, 2 ready; source 0 LNS, 1 JNS; stage 0 raw, 1 debiased. -/
  rawState : Nat := 0
  rawSource : Nat := 0
  rawStage : Nat := 0
  rawCount : Nat := 0
  /-- Samples or bits captured so far, and the raw buffer once all are captured. -/
  rawBits  : List Bool := []
  rawBuf   : List Word := []
  captured : Nat := 0
  readSoFar : Nat := 0
  readyNt  : Nat := 0
deriving DecidableEq, Repr

/-- One CTR_DRBG instance (R388, R389). -/
structure Drbg where
  key    : Bytes
  v      : Bytes
  calls  : Nat := 0
  seedNt : Nat := 0
deriving DecidableEq, Repr

/-- One bank of the shared SRAM (R395, R398 to R401). -/
structure Bank where
  /-- Spare rows used, by group 0 to 7. -/
  used    : List Nat := [0, 0, 0, 0, 0, 0, 0, 0]
  /-- Rows replaced: row and spare index within its group. -/
  rowMap  : List (Nat × Nat) := []
  /-- Rows marked for replacement, rising. -/
  marked  : List Nat := []
  /-- Corrections of the current patrol pass, by row. -/
  fixes   : List (Nat × Nat) := []
  errRow  : Option Nat := none
deriving DecidableEq, Repr

/-- The two rule sets of one core (R403 to R406) and its last violation. -/
structure RuleSets where
  active      : Nat := 0
  activeOwner : Nat := 0
  shadowOwner : Nat := 0
  shadowReady : Bool := false
  set0 : List Word := List.replicate 16 0
  set1 : List Word := List.replicate 16 0
deriving DecidableEq, Repr

/-- The supply, the governor, the sensors and the outputs (R523 to R548). -/
structure Supply where
  vaux      : Bool := true
  /-- The always-on domain has started. -/
  alwaysOn  : Bool := true
  vin       : Bool := true
  /-- A main-domain power-down runs until this NT. -/
  downEnd   : Option Nat := none
  vbatMv    : Nat := 3000
  vauxMv    : Nat := 3300
  batteryLow : Bool := false
  /-- Highest junction temperature and higher lid reading, 1/16 °C, and VIN power in 0.1 W. -/
  temp      : Int := 0
  lid       : Int := 0
  power     : Nat := 0
  capped    : Bool := false
  /-- Remaining steps are being removed after the cap or the emergency. -/
  bnlStep   : Nat := 0
  clockStep : Nat := 0
  emergency : Bool := false
  cappedMs  : Nat := 0
  lastRemoval : Nat := 0
  /-- Enclosure inputs that read open, mesh nets that are faulty, ZEROISE low. -/
  encOpen   : List Nat := []
  meshFault : List Nat := []
  zeroiseLow : Bool := false
deriving DecidableEq, Repr

end Sys2Proof.Machine
end

