-- ==== Sys2Proof/Machine/State.lean ====
section
/-!
DEFINITION. The state of the module: every register, queue, counter, mode and pin of the specification, and the
queue of the commands that wait. `State.reset` is the module right after power has arrived and before its first
start has run: every register at its reset value, no die in service (SWO_STAT.mode 0b11), a cold start due.
-/
namespace Sys2Proof.Machine

/-- Reasons for which the machine stops. No command of the module stops it: a command whose event cannot occur in
a state leaves that state as it is (log entry 1). The one constructor is for a queue front that no table row spells
and is raised by nothing. -/
inductive Fault where
  /-- Raised by nothing: the module's operations are total. Safe. -/
  | none
deriving DecidableEq, Repr

/-- Reasons for which a command has no meaning. -/
inductive Refusal where
  /-- A row without a meaning yet: raised by `exec` alone. Safe: nothing is claimed about it. -/
  | notModelled (mnemonic : String)
deriving DecidableEq, Repr

/-- The state of the module. -/
structure State where
  /-- Registers that hold what was written or counted, by page address and offset; unlisted registers hold
  their reset values (R42, R46 to R58). -/
  regs    : List (Nat × Word) := []
  portA   : PortState := {}
  portB   : PortState := {}
  /-- The tie bit names Port B (R44). -/
  tieB    : Bool := false
  sems    : List (Nat × Sem) := []
  wardenWaiting : Bool := false
  slices  : List (Nat × Slice) := []
  /-- Ring pairs: slice × 8 + pair. -/
  rings   : List (Nat × Ring) := []
  nt      : NtUnit := {}
  die0    : DieState := {}
  die1    : DieState := {}
  sw      : Switch := {}
  mram0   : Mram := {}
  mram1   : Mram := {}
  vault   : Vault := {}
  conf    : Confluence := {}
  /-- The cores of the active die, by instance. -/
  cores   : List (Nat × Core) := []
  kst     : KstState := {}
  /-- BNL engines, pipelines and cipher lanes of the active die, by instance. -/
  engines : List (Nat × Engine) := []
  pipes   : List (Nat × Pipe) := []
  lanes   : List (Nat × Lane) := []
  /-- Data passes accepted and not finished, in order of acceptance. -/
  passes  : List Pass := []
  /-- Open streams by stream_id, and the next sequence number of each stream slot (R220). -/
  streams : List (Nat × Stream) := []
  streamSeq : List (Nat × Nat) := []
  btc     : List BtcPage := []
  /-- Counter that orders the uses of buffer-table pages. -/
  btcClock : Nat := 0
  rng0    : Rng := {}
  rng1    : Rng := {}
  /-- DRBG instances of the active die, instance 1,024 for ceremonies. -/
  drbg    : List (Nat × Drbg) := []
  /-- Owners of the slice measurement registers 8 to 27 (R380). -/
  measOwner : List (Nat × Nat) := []
  /-- Words of each die's shared SRAM, by word number; every word is zero after the zeroisation of a start (R395, R402). -/
  sram0   : List (Nat × Word) := []
  sram1   : List (Nat × Word) := []
  /-- SRAM banks: die × 64 + bank. -/
  banks   : List (Nat × Bank) := []
  rules   : List (Nat × RuleSets) := []
  supply  : Supply := {}
  lev     : Levee := {}
  life    : LifeCtl := {}
  cer     : List (Nat × Ceremony) := []
  /-- Rosters of the slice domains: domain number, roster. -/
  rosters : List (Nat × Roster) := []
  /-- What slice 0 has set aside while it runs in bootstrap form in OWNED (R303). -/
  zeroConf : Option SliceConf := none
  card0   : CardPort := {}
  card1   : CardPort := {}
  starts  : Starts := {}
  gauge   : Gauge := {}
  /-- What has left the module for the hosts, oldest first. -/
  out     : List HostOut := []
  /-- The model's own counter of free values drawn (log entry 2). -/
  freeCount : Nat := 0
  /-- Commands that wait, first in, first out. -/
  pending : List Instr := []
deriving DecidableEq, Repr

/-- The module right after reset. -/
def State.reset : State := {}

end Sys2Proof.Machine
end

