-- ==== Sys2Proof/Machine/Pages.lean ====
section
/-!
DEFINITION. The register pages: the directory of R52 to R54, page addresses, and the reset values of stored
registers. A page is named by its physical BAR0 address; slice page n of BAR2 is named 0x400_0000 + n × 0x1000,
just above BAR0.
-/
namespace Sys2Proof.Machine

/-- The blocks of Tables 12 and 13 of the register chapter, and the slice page. -/
inductive Block
  | bas | pta | ptb | sem | ntu | swo | cus | lev | vlt | lcc | fus | gau | wdn
  | cfl | pol | trc | rpl | fwu | hlt | kst | rng | stp | dge | bnl | edy | lan | mem | wei | mpu
  | slc
deriving DecidableEq, Repr

/-- A page: its block, its instance and the die field of PG_ID (0 base, 1 die 0, 2 die 1, 3 slice page). -/
structure Page where
  block : Block
  inst  : Nat
  die   : Nat
deriving DecidableEq, Repr

/-- One row of the page directories: block, its three-letter code, its offset and its number of pages. -/
structure DirRow where
  block : Block
  code  : String
  off   : Nat
  pages : Nat

/-- Table 12: the base-die directory (R52). -/
def baseDirectory : List DirRow :=
  [⟨.bas, "BAS", 0x0, 1⟩, ⟨.pta, "PTA", 0x1000, 2⟩, ⟨.ptb, "PTB", 0x3000, 2⟩, ⟨.sem, "SEM", 0x5000, 1⟩,
   ⟨.ntu, "NTU", 0x6000, 1⟩, ⟨.swo, "SWO", 0x7000, 1⟩, ⟨.cus, "CUS", 0x8000, 2⟩, ⟨.lev, "LEV", 0xA000, 4⟩,
   ⟨.vlt, "VLT", 0xE000, 1⟩, ⟨.lcc, "LCC", 0xF000, 1⟩, ⟨.fus, "FUS", 0x10000, 4⟩, ⟨.gau, "GAU", 0x14000, 8⟩,
   ⟨.wdn, "WDN", 0x1C000, 2⟩]

/-- Table 13: the compute-die directory (R53). -/
def dieDirectory : List DirRow :=
  [⟨.cfl, "CFL", 0x0, 4⟩, ⟨.pol, "POL", 0x4000, 1⟩, ⟨.trc, "TRC", 0x5000, 1⟩, ⟨.rpl, "RPL", 0x6000, 1⟩,
   ⟨.fwu, "FWU", 0x7000, 1⟩, ⟨.hlt, "HLT", 0x8000, 1⟩, ⟨.kst, "KST", 0x9000, 2⟩, ⟨.rng, "RNG", 0xB000, 2⟩,
   ⟨.stp, "STP", 0xD000, 5⟩, ⟨.dge, "DGE", 0x20000, 16⟩, ⟨.bnl, "BNL", 0x30000, 28⟩,
   ⟨.edy, "EDY", 0x50000, 18⟩, ⟨.lan, "LAN", 0x70000, 18⟩, ⟨.mem, "MEM", 0x90000, 64⟩,
   ⟨.wei, "WEI", 0x100000, 65⟩, ⟨.mpu, "MPU", 0x200000, 288⟩]

/-- The row of a directory whose pages hold the offset. -/
def findRow (rows : List DirRow) (off : Nat) : Option DirRow :=
  rows.find? (fun r => decide (r.off ≤ off) && decide (off < r.off + r.pages * 0x1000))

/-- The physical window bases (R49). -/
def win0 : Nat := 0x400000
def win1 : Nat := 0x800000
def winActive : Nat := 0xC00000
def winStandby : Nat := 0x1000000
def winEnd : Nat := 0x1400000
def slcBase : Nat := 0x4000000

/-- The window of a compute die. -/
def dieWin : Die → Nat
  | .d0 => win0
  | .d1 => win1

/-- The page that a physical address lies in, if one is mapped there (R52, R53, R54). -/
def pageAt (a : Nat) : Option Page :=
  if a < win0 then
    (findRow baseDirectory a).map (fun r => ⟨r.block, (a - r.off) / 0x1000, 0⟩)
  else if a < win1 then
    (findRow dieDirectory (a - win0)).map (fun r => ⟨r.block, (a - win0 - r.off) / 0x1000, 1⟩)
  else if a < winActive then
    (findRow dieDirectory (a - win1)).map (fun r => ⟨r.block, (a - win1 - r.off) / 0x1000, 2⟩)
  else if slcBase ≤ a ∧ a < slcBase + 0x400000 then
    some ⟨.slc, (a - slcBase) / 0x1000, 3⟩
  else none

/-- The page of a block's instance 0 on the base die. -/
def pgBas : Nat := 0x0
def pgPort : Port → Nat
  | .a => 0x1000
  | .b => 0x3000
def pgSem : Nat := 0x5000
def pgNtu : Nat := 0x6000
def pgSwo : Nat := 0x7000
def pgCus (p : Nat) : Nat := 0x8000 + p * 0x1000
def pgLev (i : Nat) : Nat := 0xA000 + i * 0x1000
def pgVlt : Nat := 0xE000
def pgLcc : Nat := 0xF000
def pgFus (i : Nat) : Nat := 0x10000 + i * 0x1000
def pgGau (i : Nat) : Nat := 0x14000 + i * 0x1000
def pgWdn (i : Nat) : Nat := 0x1C000 + i * 0x1000
def pgSlc (n : Nat) : Nat := slcBase + n * 0x1000

/-- The pages of a compute die. -/
def pgCfl (d : Die) (i : Nat) : Nat := dieWin d + i * 0x1000
def pgPol (d : Die) : Nat := dieWin d + 0x4000
def pgTrc (d : Die) : Nat := dieWin d + 0x5000
def pgRpl (d : Die) : Nat := dieWin d + 0x6000
def pgFwu (d : Die) : Nat := dieWin d + 0x7000
def pgHlt (d : Die) : Nat := dieWin d + 0x8000
def pgKst (d : Die) (i : Nat) : Nat := dieWin d + 0x9000 + i * 0x1000
def pgRng (d : Die) (i : Nat) : Nat := dieWin d + 0xB000 + i * 0x1000
def pgStp (d : Die) (i : Nat) : Nat := dieWin d + 0xD000 + i * 0x1000
def pgDge (d : Die) (i : Nat) : Nat := dieWin d + 0x20000 + i * 0x1000
def pgBnl (d : Die) (i : Nat) : Nat := dieWin d + 0x30000 + i * 0x1000
def pgEdy (d : Die) (core : Nat) : Nat := dieWin d + 0x50000 + core / 16 * 0x1000
def pgLan (d : Die) (core : Nat) : Nat := dieWin d + 0x70000 + core / 16 * 0x1000
def pgMem (d : Die) (bank : Nat) : Nat := dieWin d + 0x90000 + bank * 0x1000
def pgWei (d : Die) (i : Nat) : Nat := dieWin d + 0x100000 + i * 0x1000
def pgMpu (d : Die) (core : Nat) : Nat := dieWin d + 0x200000 + core * 0x1000

/-- Common header offsets (R40). -/
def oId : Nat := 0x000
def oCap : Nat := 0x008
def oCtl : Nat := 0x010
def oStat : Nat := 0x018
def oIrqStat : Nat := 0x020
def oIrqEn : Nat := 0x028
def oIrqForce : Nat := 0x030
def oLock : Nat := 0x038
def oErr0 : Nat := 0x040
def oErr1 : Nat := 0x048
def oErr2 : Nat := 0x050
def oErr3 : Nat := 0x058

/-- Number of the highest implemented event bit of a page (PG_CAP.irq_bits, from the owning chapters; log entry 4). -/
def irqBits (p : Page) : Nat :=
  match p.block with
  | .bas | .vlt => 0
  | .pta | .ptb => if p.inst = 0 then 4 else 0
  | .sem => 1
  | .ntu => 5
  | .swo => 6
  | .cus => 3
  | .lev => if p.inst = 0 then 3 else if p.inst = 2 then 3 else if p.inst = 3 then 1 else 0
  | .lcc => 3
  | .fus => if p.inst = 0 then 3 else 0
  | .gau => if p.inst = 0 then 3 else 0
  | .wdn => if p.inst = 0 then 3 else 4
  | .cfl => if p.inst = 0 then 2 else 0
  | .pol => 3
  | .trc => 1
  | .rpl => 2
  | .fwu => 3
  | .hlt => 4
  | .kst => if p.inst = 0 then 3 else 0
  | .rng => if p.inst = 0 then 4 else 2
  | .stp => 2
  | .dge => 2
  | .bnl => 2
  | .edy => 2
  | .lan => 1
  | .mem => if p.inst = 0 then 4 else 3
  | .wei => if p.inst = 0 then 0 else 16
  | .mpu => 2
  | .slc => 4

/-- The directory row of a block. -/
def rowOf (b : Block) : Option DirRow :=
  ((baseDirectory ++ dieDirectory) ++ [DirRow.mk .slc "SLC" 0 1024]).find? (fun r => r.block = b)

/-- The 24-bit ASCII code of a block, first letter in [7:0] (PG_ID.block). -/
def blockCode (b : Block) : Nat :=
  match rowOf b with
  | some r => ofLe (ascii r.code)
  | none => 0

/-- The reset value of a stored register: zero but where the owning chapter gives another. -/
def regReset (a : Nat) : Word :=
  if a = pgSem + 0x200 then 100000
  else if a = win0 + 0x5100 then 0x7E
  else if a = win1 + 0x5100 then 0x7E
  else if a = win0 + 0x4108 then 81920
  else if a = win1 + 0x4108 then 81920
  else 0

/-- A stored register. -/
def rd (s : State) (a : Nat) : Word := sget regReset s.regs a

/-- The state with a stored register written. -/
def wr (s : State) (a : Nat) (v : Word) : State := { s with regs := sset regReset s.regs a v }

/-- A counter field of a stored register raised by `k`, saturating. -/
def bump (s : State) (a lo n k : Nat) : State := wr s a (bumpF (rd s a) lo n k)

/-- A field of a stored register set. -/
def wrF (s : State) (a lo n v : Nat) : State := wr s a (setF (rd s a) lo n v)

end Sys2Proof.Machine
end

