-- ==== Sys2Proof/Machine/Ops.lean ====
section
/-!
DEFINITION. The named operations that the commands share: access to the parts of the state, interrupts (R43, R45),
error capture (R47), the journal's staging (R506 to R508), notifications and trace items (R346, R348, R514, R516),
network time and durations (R422).
-/
namespace Sys2Proof.Machine

/-- What a command answers. -/
abbrev Answer := Host.Outcome State Fault Refusal

/-! ### The canonical form of what is stored -/

/-- The tables of an MRAM die in canonical form. -/
def Mram.canon (m : Mram) : Mram :=
  { m with
    home := scanon (fun _ => {}) m.home, shadow := scanon (fun _ => {}) m.shadow, dirs := scanon (fun _ => {}) m.dirs
    logs := scanon (fun _ => {}) m.logs, journal := mcanon m.journal, capture := mcanon m.capture
    rosters := scanon (fun _ => {}) m.rosters }

/-- The stored registers, the slice and ring tables, the semaphores, the fuse words and the stores in canonical form. -/
def State.canon (s : State) : State :=
  { s with
    regs := scanon regReset s.regs, sems := scanon (fun _ => {}) s.sems, slices := scanon (fun _ => {}) s.slices
    rings := scanon (fun _ => {}) s.rings, mram0 := s.mram0.canon, mram1 := s.mram1.canon
    life := { s.life with fuses := scanon (fun _ => {}) s.life.fuses }, rosters := scanon (fun _ => {}) s.rosters
    sram0 := scanon (fun _ => 0) s.sram0, sram1 := scanon (fun _ => 0) s.sram1 }

/-- The tables of an MRAM die are in canonical form. -/
def Mram.wf (m : Mram) : Bool :=
  swf (fun _ => {}) m.home && swf (fun _ => {}) m.shadow && swf (fun _ => {}) m.dirs && swf (fun _ => {}) m.logs &&
    mwf m.journal && mwf m.capture && swf (fun _ => {}) m.rosters

/-- What is stored is in canonical form: no table lists a key twice or an entry that equals what an unlisted key reads as, so
that equal contents are equal data. -/
def State.wf (s : State) : Bool :=
  swf regReset s.regs && swf (fun _ => {}) s.sems && swf (fun _ => {}) s.slices && swf (fun _ => {}) s.rings &&
    s.mram0.wf && s.mram1.wf && swf (fun _ => {}) s.life.fuses && swf (fun _ => {}) s.rosters && swf (fun _ => 0) s.sram0 &&
    swf (fun _ => 0) s.sram1

/-- A command's answer: the state `t` that it reaches from `s`, what is stored in canonical form. A command acts on everything
but the queue of waiting commands, which stays as it stood. -/
def endWith (s t : State) : Answer := .next { t.canon with pending := s.pending }

/-! ### Parts of the state -/

/-- The other port. -/
def otherPort : Port → Port
  | .a => .b
  | .b => .a

/-- The port as a number: 0 Port A, 1 Port B (the error source code of R47). -/
def portNo : Port → Nat
  | .a => 0
  | .b => 1

/-- The port as a one-hot code: 1 Port A, 2 Port B (home and port_now of the slice page). -/
def portCode : Port → Nat
  | .a => 1
  | .b => 2

/-- The port a one-hot code names. -/
def codePort : Nat → Option Port
  | 1 => some .a
  | 2 => some .b
  | _ => none

/-- The party a port is. -/
def partyOf : Port → Party
  | .a => .portA
  | .b => .portB

/-- The port a party is, if it is one. -/
def partyPort : Party → Option Port
  | .portA => some .a
  | .portB => some .b
  | .warden => none

/-- The source code of a party (R47): 0 Port A, 1 Port B, 2 warden. -/
def partySource : Party → Nat
  | .portA => 0
  | .portB => 1
  | .warden => 2

/-- The holder code of a semaphore (Table 17 of the ports chapter). -/
def holderCode : Option Party → Nat
  | none => 0
  | some .portA => 1
  | some .portB => 2
  | some .warden => 3

def otherDie : Die → Die
  | .d0 => .d1
  | .d1 => .d0

def dieNo : Die → Nat
  | .d0 => 0
  | .d1 => 1

def dieOfNo : Nat → Die
  | 0 => .d0
  | _ => .d1

/-- The journal source code of a die: 3 die 0, 4 die 1 (R504). -/
def dieSource (d : Die) : Nat := 3 + dieNo d

def portOf (s : State) : Port → PortState
  | .a => s.portA
  | .b => s.portB

def setPort (s : State) (p : Port) (v : PortState) : State :=
  match p with
  | .a => { s with portA := v }
  | .b => { s with portB := v }

def dieOf (s : State) : Die → DieState
  | .d0 => s.die0
  | .d1 => s.die1

def setDie (s : State) (d : Die) (v : DieState) : State :=
  match d with
  | .d0 => { s with die0 := v }
  | .d1 => { s with die1 := v }

def mramOf (s : State) : Die → Mram
  | .d0 => s.mram0
  | .d1 => s.mram1

def setMram (s : State) (d : Die) (v : Mram) : State :=
  match d with
  | .d0 => { s with mram0 := v }
  | .d1 => { s with mram1 := v }

/-- Spare sectors in use on a die's MRAM (R23). -/
def sectorsUsed (s : State) (d : Die) : Nat := (mramOf s d).sectors.length

def sliceOf (s : State) (n : Nat) : Slice := sget (fun _ => {}) s.slices n

def setSlice (s : State) (n : Nat) (v : Slice) : State := { s with slices := sset (fun _ => {}) s.slices n v }

def ringKey (slice pair : Nat) : Nat := slice * 8 + pair

def ringOf (s : State) (slice pair : Nat) : Ring := sget (fun _ => {}) s.rings (ringKey slice pair)

def setRing (s : State) (slice pair : Nat) (v : Ring) : State :=
  { s with rings := sset (fun _ => {}) s.rings (ringKey slice pair) v }

def semOf (s : State) (n : Nat) : Sem := sget (fun _ => {}) s.sems n

def setSem (s : State) (n : Nat) (v : Sem) : State := { s with sems := sset (fun _ => {}) s.sems n v }

def coreOf (s : State) (c : Nat) : Core := sget (fun _ => {}) s.cores c

def setCore (s : State) (c : Nat) (v : Core) : State := { s with cores := sset (fun _ => {}) s.cores c v }

/-- The admitted step with this key, if there is one. -/
def stepOf (s : State) (k : Nat) : Option Step := mget s.conf.steps k

def setStep (s : State) (k : Nat) (v : Step) : State :=
  { s with conf := { s.conf with steps := mput s.conf.steps k v } }

def delStep (s : State) (k : Nat) : State :=
  { s with conf := { s.conf with steps := mdel s.conf.steps k } }

/-- The state with something sent to a host. -/
def send (s : State) (o : HostOut) : State := { s with out := s.out ++ [o] }

/-! ### Roles and modes (R29, R32) -/

/-- The active die: the token holder, while it is in service. -/
def activeDie (s : State) : Option Die :=
  match s.sw.token with
  | some d => if (dieOf s d).inService then some d else none
  | none => none

/-- The standby die: the other die, while it is in service and has joined. -/
def standbyDie (s : State) : Option Die :=
  match activeDie s with
  | some d => if (dieOf s (otherDie d)).inService && !(dieOf s (otherDie d)).joining then some (otherDie d) else none
  | none => none

/-- Duplex running. -/
def duplex (s : State) : Bool := (standbyDie s).isSome

/-- The module serves: a die is active, no gap runs, no tamper-halt. -/
def serving (s : State) : Bool := (activeDie s).isSome && s.sw.gap.isNone && !s.lev.halted && (activeDie s).all (fun d => !(dieOf s d).stopped)

/-- SWO_STAT.mode: 0 duplex, 1 simplex, 2 simplex with a die joining, 3 no service. -/
def modeCode (s : State) : Nat :=
  match activeDie s with
  | none => 3
  | some d =>
    let o := dieOf s (otherDie d)
    if o.joining then 2 else if o.inService then 0 else 1

/-- The die whose Confluence, cores and key-store controller the state's parts describe; die 0 before any start. -/
def curDie (s : State) : Die := s.sw.token.getD .d0

/-! ### Interrupts (R43, R45) -/

/-- Index of a vector in a port's MSI-X state: PF0 vectors from 0, PF1 vectors from 128. -/
def msixIx (fn vec : Nat) : Nat := if fn = 0 then vec else 128 + vec

/-- Number of MSI-X vectors of a function (R59). -/
def msixCount (fn : Nat) : Nat := if fn = 0 then 128 else 1920

/-- A function of a port is reached: the link is up, and the function is not in D3hot, which counts as its link loss (R60). -/
def fnUp (ps : PortState) (fn : Nat) : Bool := ps.linkUp && !ps.d3.contains fn

/-- Sends one MSI-X message, or holds it pending while its vector is masked (R45). A vector outside the function's
table sends nothing, and a function whose link is down or that is in D3hot, or PF1 in reset, sends nothing. -/
def msixSend (s : State) (p : Port) (fn vec : Nat) : State :=
  let ps := portOf s p
  if vec < msixCount fn then
    let e := sget (fun _ => {}) ps.msix (msixIx fn vec)
    if e.masked then
      setPort s p { ps with msix := sset (fun _ => {}) ps.msix (msixIx fn vec) { e with pending := true } }
    else if fnUp ps fn && !(fn == 1 && ps.flr) then send s (.msix p fn vec e.addr e.data)
    else s
  else s

/-- The ports a slice is bound to, as seen by a page's irq_port field. -/
def boundTo (sl : Slice) : Port → Bool
  | .a => sl.portA
  | .b => sl.portB

/-- Sends a page's MSI-X message through the ports its PG_CTL names (R45). -/
def pageIrq (s : State) (pg : Nat) : State :=
  let ctl := rd s (pg + oCtl)
  let vec := getF ctl 0 11
  let fn := if slcBase ≤ pg then 1 else 0
  let ok := fun p => if slcBase ≤ pg then boundTo (sliceOf s ((pg - slcBase) / 0x1000)) p else true
  let s := if bitOf ctl 11 && ok .a then msixSend s .a fn vec else s
  if bitOf ctl 12 && ok .b then msixSend s .b fn vec else s

/-- A page has a pending interrupt (R45). -/
def pagePending (s : State) (pg : Nat) : Bool := rd s (pg + oIrqStat) &&& rd s (pg + oIrqEn) != 0

/-- Sets event bits of a page; the message is sent when pending becomes true (R45, first case). -/
def raiseBits (s : State) (pg : Nat) (bits : Word) : State :=
  let was := pagePending s pg
  let s := wr s (pg + oIrqStat) (rd s (pg + oIrqStat) ||| bits)
  if !was && pagePending s pg then pageIrq s pg else s

/-- Sets one event bit of a page. -/
def raise (s : State) (pg bit : Nat) : State := raiseBits s pg (BitVec.ofNat 64 (1 <<< bit))

/-! ### First-error capture (R47) -/

/-- An error arrives at a page. While one is captured, later errors change only count and overflow. -/
def capture (s : State) (pg : Nat) (e : ErrIn) : State :=
  let c0 := rd s (pg + oErr0)
  if bitOf c0 16 then
    wr s (pg + oErr0) (bumpF c0 32 32 1 ||| flag 17 true)
  else
    let s := wr s (pg + oErr0) (fld 0 16 e.cause ||| flag 16 true ||| fld 24 4 e.source ||| fld 32 32 1)
    let s := wr s (pg + oErr1) (BitVec.ofNat 64 e.addr)
    let s := wr s (pg + oErr2) (fld 0 32 e.tag ||| fld 32 10 (e.slice.getD 0) ||| flag 42 e.slice.isSome)
    let s := wr s (pg + oErr3) (BitVec.ofNat 64 s.nt.ns)
    raise s pg 0

/-- PG_CTL.err_rearm: the capture registers are cleared (Table 5 of the register chapter). -/
def rearm (s : State) (pg : Nat) : State :=
  wr (wr (wr (wr s (pg + oErr0) 0) (pg + oErr1) 0) (pg + oErr2) 0) (pg + oErr3) 0

/-! ### Time -/

/-- NT reaches at least `t`. -/
def reach (s : State) (t : Nat) : State := { s with nt := { s.nt with ns := max s.nt.ns t } }

/-- Nanoseconds of a number of core cycles at 3.2 GHz, rounded up (R13). -/
def cyclesNs (c : Nat) : Nat := ceilDiv (c * 5) 16

/-! ### The journal (R504 to R508) -/

/-- An event is added to the overflow summary. -/
def sumAdd (q : JQueue) (e : JEvent) : JQueue :=
  let cls := 1 <<< (e.code / 256)
  match q.summary with
  | none => { q with summary := some ⟨1, e.nt, e.nt, cls, e.severity⟩ }
  | some m => { q with summary := some ⟨m.count + 1, m.firstNt, e.nt, m.classes ||| cls, max m.severity e.severity⟩ }

/-- The oldest staged item that `p` accepts is displaced by `e`, which takes its cell. -/
def displace (l : List JEvent) (p : JEvent → Bool) (e : JEvent) : Option (JEvent × List JEvent) :=
  match l with
  | [] => none
  | x :: r =>
    if p x then some (x, r ++ [{ e with cell := x.cell }])
    else match displace r p e with
      | some (y, r') => some (y, x :: r')
      | none => none

/-- What staging does with an event: 0 staged, 1 merged, 2 summarised, 3 latched in its always-on flag. A Pool at low water takes no further cell: an
event is staged only over the oldest items, as where 16 are staged (R348). -/
def stageEvent (q : JQueue) (writing : Option JEvent) (tight : Bool) (e : JEvent) : JQueue × Nat :=
  let merges : Bool :=
    match writing with
    | some w => decide (w.code = e.code) && decide (e.severity < 3) &&
        (match q.cont with
         | none => true
         | some c => decide (c.code = e.code) && decide (c.repeats < 65535))
    | none => false
  if merges then
    match q.cont with
    | none => ({ q with cont := some { e with repeats := 1 } }, 1)
    | some c => ({ q with cont := some { e with repeats := c.repeats + 1, nt := c.nt } }, 1)
  else if q.staged.length < 16 ∧ tight = false then ({ q with staged := q.staged ++ [e] }, 0)
  else if e.severity ≤ 1 then (sumAdd q e, 2)
  else if e.severity = 2 then
    match displace q.staged (fun x => decide (x.severity ≤ 1)) e with
    | some (y, l) => (sumAdd { q with staged := l } y, 2)
    | none => (sumAdd q e, 2)
  else
    let low := (q.staged.map (·.severity)).foldl min 3
    if low < 3 then
      match displace q.staged (fun x => decide (x.severity = low)) e with
      | some (y, l) => (sumAdd { q with staged := l } y, 2)
      | none => (q, 3)
    else (q, 3)

/-- The next record to write (R507): staged severity 3, the continuation, the summary, other staged items. -/
def pickNext (q : JQueue) : Option (JEvent × JQueue) :=
  match q.staged.find? (fun x => decide (x.severity = 3)) with
  | some x => some (x, { q with staged := q.staged.erase x })
  | none =>
    match q.cont with
    | some c => some (c, { q with cont := none })
    | none =>
      match q.summary with
      | some m =>
        some ({ code := 0x0F01, severity := m.severity, source := 6, nt := m.lastNt,
                detail := leBytes 4 m.count ++ leBytes 8 m.firstNt ++ leBytes 8 m.lastNt ++ leBytes 2 m.classes ++ zeros 6 },
              { q with summary := none })
      | none =>
        match q.staged with
        | x :: r => some (x, { q with staged := r })
        | [] => none

/-- Where events go now: the active die's staging queue, or the controller's own buffer during a gap, before step 5
of a start and in tamper-halt (R506). -/
def journalHeld (s : State) : Bool := s.sw.gap.isSome || s.lev.halted || ((activeDie s).isNone && decide (s.starts.step < 5))

/-- Totals of Table 3's carry record A (R513). -/
def carryA (s : State) : JEvent :=
  { code := 0x0F03, severity := 0, source := 6, nt := s.nt.ns, detail := (s.gauge.tat.map (leBytes 4)).flatten }

/-- 16-bit two's complement bytes of a temperature in 1/16 °C. -/
def tempBytes (t : Int) : Bytes := leBytes 2 (BitVec.ofInt 16 t).toNat

/-- Number of spares of a kind used on a die: units failed. -/
def sparesUsed (d : DieState) (kind : Nat) : Nat := (d.failed.filter (fun e => e.1 = kind)).length

/-- Fuse spare words programmed (R482). -/
def fuseSparesUsed (s : State) : Nat := (s.life.fuses.filter (fun e => decide (256 ≤ e.1))).length

/-- Totals of carry record B (R513). -/
def carryB (s : State) : JEvent :=
  let g := s.gauge
  { code := 0x0F04, severity := 0, source := 6, nt := s.nt.ns,
    detail := tempBytes g.loTemp ++ tempBytes g.hiTemp ++ leBytes 2 g.loVin ++ leBytes 2 g.hiVin ++ leBytes 2 g.loVaux ++
      leBytes 2 g.hiVaux ++ leBytes 2 g.loVbat ++ leBytes 1 (sparesUsed s.die0 1) ++ leBytes 1 (sparesUsed s.die1 1) ++
      leBytes 1 (sparesUsed s.die0 2 % 16 + sparesUsed s.die1 2 % 16 * 16) ++
      leBytes 1 (min 1 (sparesUsed s.die0 3) + 2 * min 1 (sparesUsed s.die1 3)) ++
      leBytes 2 (s.die0.sramRowsUsed + s.die1.sramRowsUsed) ++
      leBytes 4 (sectorsUsed s .d0 + sectorsUsed s .d1) ++ leBytes 2 (fuseSparesUsed s) ++ zeros 2 }

/-- The 64 bytes of record `n` (Table 1 of the Gauge chapter). -/
def recordBytes (e : JEvent) (n : Nat) : Bytes :=
  let b := leBytes 2 e.code ++ leBytes 1 e.severity ++ leBytes 1 e.source ++ leBytes 2 e.repeats ++
    leBytes 2 (match e.slice with | some x => x % 1024 + 0x8000 | none => 0) ++ leBytes 8 e.nt ++ leBytes 8 e.seqAt ++ leBytes 8 n ++
    padTo 28 e.detail
  b ++ leBytes 4 (crc32c b)

/-- The half of the mirror link on which a record travels (R427). -/
def mirrorHalf (s : State) (n : Nat) : Nat :=
  if s.sw.half0Up && s.sw.half1Up then n % 2 else if s.sw.half1Up then 1 else 0

/-- A record sent to the other die; its sender keeps it until it is acknowledged (R426 to R428). -/
def mirrorSend (s : State) (b : MirrorBody) : State :=
  let n := s.sw.nextSeq
  { s with sw := { s.sw with recs := s.sw.recs ++ [{ seq := n, half := mirrorHalf s n, sentNt := s.nt.ns, body := b }], nextSeq := n + 1 } }

/-- The write of a journal record begins; in duplex running its JOURNAL mirror record leaves (R506). -/
def beginWrite (s : State) (e : JEvent) : State :=
  let s := { s with gauge := { s.gauge with writing := some e } }
  if duplex s then mirrorSend s (.journal (recordBytes e s.gauge.nextRec)) else s

/-- A carry pair begins at a record number that is a multiple of 65,536, ahead of any other record (R513). -/
def carryDue (s : State) : Bool :=
  s.gauge.nextRec % 65536 == 0 && (match s.gauge.own with
    | e :: _ => e.code != 0x0F03
    | [] => (pickNext s.gauge.q).isSome)

/-- While no record is being written, the next one begins: a carry pair where it is due, Gauge's own records, then the choice of
R507. -/
def journalKick (s : State) : State :=
  if s.gauge.writing.isSome || journalHeld s then s
  else if carryDue s then beginWrite { s with gauge := { s.gauge with own := carryB s :: s.gauge.own } } (carryA s)
  else
    match s.gauge.own with
    | e :: r => beginWrite { s with gauge := { s.gauge with own := r } } e
    | [] =>
      match pickNext s.gauge.q with
      | none => s
      | some (e, q) => beginWrite { s with gauge := { s.gauge with q := q } } e

/-! ### Cells of the Pool (R344, R348) -/

/-- Cells free in the Pool: all, less the cells slices hold and the cells of queues 24 to 26. -/
def poolFree (s : State) : Nat :=
  262144 - ((s.slices.map (fun e => e.2.cells)).foldl (· + ·) 0 + s.conf.trace.items.length + s.conf.notes.items.length +
    s.gauge.q.staged.length)

/-- Numbers of the cells in use. -/
def usedCells (s : State) : List Nat :=
  (s.conf.steps.map (fun e => e.2.cells)).flatten ++ s.conf.trace.items.map (·.1) ++ s.conf.notes.items.map (·.1) ++
    s.gauge.q.staged.filterMap (·.cell)

/-- The lowest-numbered free cells. -/
def freeCells (s : State) (n : Nat) : List Nat :=
  let used := usedCells s
  ((List.range (used.length + n)).filter (fun c => !used.contains c)).take n

/-- POL_LOW_WATER of the active die. -/
def lowWater (s : State) : Nat := getF (rd s (pgPol (curDie s) + 0x108)) 0 19

/-- The Pool is at or below low water (R348). -/
def poolTight (s : State) : Bool := decide (poolFree s ≤ lowWater s)

/-- The hazard whose event was not staged is owed a record, which the warden writes from its flag (R508). -/
def oweFlag (s : State) (w : Nat) (e : JEvent) : State :=
  if w = 3 ∧ s.gauge.owedFlags.contains (e.code % 256) = false then
    { s with gauge := { s.gauge with owedFlags := s.gauge.owedFlags ++ [e.code % 256] } }
  else s

/-- An event enters the journal's staging (R506 to R508), in a cell of the Pool or in the controller's own buffer. -/
def journal (s : State) (e : JEvent) : State :=
  let e := { e with nt := s.nt.ns, seqAt := (dieOf s (curDie s)).applied }
  let g := s.gauge
  let gau := pgGau 0 + 0x110
  if journalHeld s then
    let (q, w) := stageEvent g.buf none false e
    let s := oweFlag { s with gauge := { g with buf := q } } w e
    if w = 2 then bump s gau 32 16 1 else s
  else
    let (q, w) := stageEvent g.q g.writing (poolTight s) { e with cell := (freeCells s 1).head? }
    let s := oweFlag { s with gauge := { g with q := q } } w e
    let s := if w = 2 then bump s gau 32 16 1 else if w = 1 then bump s gau 48 16 1 else s
    journalKick s

/-- Generic detail of a journal record (R504). -/
def detail (cause inst addr tag value : Nat) : Bytes :=
  leBytes 2 cause ++ leBytes 2 inst ++ leBytes 8 addr ++ leBytes 4 tag ++ leBytes 8 value ++ zeros 4

/-- A journal event with generic detail. -/
def jev (code severity source : Nat) (d : Bytes) (slice : Option Nat := none) : JEvent :=
  { code := code, severity := severity, source := source, slice := slice, nt := 0, detail := d }

/-! ### Queues of the Pool (R346, R348, R514 to R516) -/

/-- A new item of an overwrite-oldest queue: when the queue is full, or the Pool is at or below low water, the
oldest items are dropped and counted as lost, and it is written in the cell of the oldest; else it takes a free cell (R348). -/
def queuePush (q : PoolQueue) (tight : Bool) (free : Nat) (item : Bytes) : PoolQueue × Nat :=
  let room := if tight then q.items.length - 1 else q.cap - 1
  let drop := q.items.length - min q.items.length room
  let items := q.items.drop drop
  let cell := if drop = 0 then free else (q.items.headD (free, [])).1
  if q.cap = 0 then (q, 1)
  else if tight && q.items.isEmpty then ({ q with lost := min (q.lost + 1) 0xFFFFFFFF }, 1)
  else ({ q with items := items ++ [(cell, item)], lost := min (q.lost + drop) 0xFFFFFFFF }, drop)

/-- The lowest-numbered free cell. -/
def freeCell (s : State) : Nat := (freeCells s 1).headD 0

/-- After cells were taken: the lowest free count is kept and low_water raised when free falls to it. -/
def poolWatch (before : Nat) (s : State) : State :=
  let f := poolFree s
  let s := { s with conf := { s.conf with poolMin := min s.conf.poolMin f } }
  if lowWater s < before && f ≤ lowWater s then raise s (pgPol (curDie s)) 1 else s

/-- A notification item (R516). -/
def notify (s : State) (code die kind inst old new : Nat) : State :=
  let item := leBytes 2 0 ++ leBytes 2 code ++ leBytes 4 0 ++ leBytes 8 s.nt.ns ++ leBytes 1 die ++ leBytes 1 kind ++
    leBytes 2 inst ++ leBytes 1 old ++ leBytes 1 new ++ zeros 26
  let before := poolFree s
  let (q, lost) := queuePush s.conf.notes (poolTight s) (freeCell s) item
  let s := { s with conf := { s.conf with notes := q } }
  let s := if lost = 0 then s else raise s (pgPol (curDie s)) 3
  poolWatch before s

/-- A trace item is written, filtered, or lost (R514, R515). -/
def traceWrite (s : State) (kind sliceNo : Nat) (item : Bytes) : State :=
  let d := curDie s
  let ctl := rd s (pgTrc d + 0x100)
  let on := bitOf ctl kind && (!bitOf ctl 7 || getF ctl 8 10 == sliceNo)
  if on then
    let before := poolFree s
    let (q, lost) := queuePush s.conf.trace (poolTight s) (freeCell s) item
    let s := { s with conf := { s.conf with trace := q } }
    let s := bump s (pgTrc d + 0x108) 0 32 1
    let s := if lost = 0 then s else raise (raise s (pgPol d) 3) (pgTrc d) 1
    poolWatch before s
  else bump s (pgTrc d + 0x108) 32 32 1

/-! ### Semaphore 0 and the warden (R86) -/

/-- The warden takes semaphore 0, or waits for its next release. -/
def wardenTake (s : State) : State :=
  match (semOf s 0).holder with
  | none => setSem s 0 { holder := some .warden, leaseEnd := 0 }
  | some .warden => s
  | some _ => { s with wardenWaiting := true }

/-- The warden holds semaphore 0. -/
def wardenHas (s : State) : Bool := (semOf s 0).holder == some .warden

/-- The warden's work ends: it releases semaphore 0, or no longer waits for it. -/
def wardenFree (s : State) : State :=
  if wardenHas s then setSem s 0 {} else { s with wardenWaiting := false }

/-! ### Free values (log entry 2) -/

/-- A fresh free number: the opaque value of this draw, and the state with the counter advanced. -/
def drawFree (s : State) : Nat × State := (Config.freeValue s.freeCount, { s with freeCount := s.freeCount + 1 })

end Sys2Proof.Machine
end

