-- ==== Sys2Proof/Machine/RegSpec.lean ====
section
/-!
DEFINITION. Which registers each page holds, which of their fields are RW, WO, W1C and RC, and which registers are
guarded (R42, R56 to R58, and the register tables of the chapters). A register that is listed with no mask is
read-only.
-/
namespace Sys2Proof.Machine

/-- The fields of a register by access type, and whether it is guarded. -/
structure RegSpec where
  rw  : Word := 0
  wo  : Word := 0
  w1c : Word := 0
  rc  : Word := 0
  guarded : Bool := false
deriving DecidableEq, Repr

/-- A register with a field of a type that R41 bars from 4-byte accesses. -/
def RegSpec.side (r : RegSpec) : Bool := r.wo != 0 || r.w1c != 0 || r.rc != 0

/-- A register with a field that a write can affect. -/
def RegSpec.writable (r : RegSpec) : Bool := r.rw != 0 || r.wo != 0 || r.w1c != 0

/-- A read-only register. -/
def regRo : Option RegSpec := some {}

/-- A register all of whose counters are RC under this mask. -/
def regRc (m : Word) : Option RegSpec := some { rc := m }

/-- `off` is `base + 8 × i` for some `i < n`. -/
def inArray (off base n : Nat) : Bool := decide (base ≤ off) && decide (off < base + 8 * n) && off % 8 == 0

/-- The common header (Tables 3 to 9 of the register chapter). The block_ctl field of PG_CTL has no owner in any
chapter and is reserved (log entry 4). -/
def headerSpec (p : Page) (off : Nat) : Option RegSpec :=
  let g := p.block != Block.slc
  let bits := mask 0 (irqBits p + 1)
  if off = oId ∨ off = oCap ∨ off = oStat then regRo
  else if off = oCtl then some { rw := mask 0 13, wo := mask 16 1, guarded := g }
  else if off = oIrqStat then some { w1c := bits }
  else if off = oIrqEn then some { rw := bits, guarded := g }
  else if off = oIrqForce then some { wo := bits, guarded := g }
  else if off = oLock then regRc (mask 32 16)
  else if off = oErr0 ∨ off = oErr1 ∨ off = oErr2 ∨ off = oErr3 then regRo
  else none

/-- Slice pages (Tables 5 to 9 of the ports chapter). -/
def slcSpec (off : Nat) : Option RegSpec :=
  if off = 0x100 ∨ off = 0x110 then regRo
  else if off = 0x108 then some { rw := mask 2 1, wo := mask 0 2 }
  else if 0x200 ≤ off ∧ off < 0x400 then
    match off % 0x40 with
    | 0x00 | 0x08 => some { rw := mask 12 52 }
    | 0x10 => some { rw := mask 6 58 }
    | 0x18 => some { rw := mask 0 27 ||| mask 32 16 }
    | 0x20 | 0x28 => some { wo := mask 0 32 }
    | 0x30 | 0x38 => regRo
    | _ => none
  else none

/-- Registers of a base-die page from offset 0x100. -/
def baseSpec (b : Block) (inst off : Nat) : Option RegSpec :=
  match b, inst with
  | .pta, 0 | .ptb, 0 =>
    match off with
    | 0x100 => regRo
    | 0x108 => regRc (mask 0 64)
    | 0x110 => some { rw := mask 0 2, guarded := true }
    | _ => none
  | .pta, 1 | .ptb, 1 =>
    match off with
    | 0x100 => some { rw := mask 0 10 }
    | 0x108 => regRo
    | 0x110 => some { wo := mask 0 13, guarded := true }
    | _ => none
  | .sem, _ =>
    if inArray off 0x100 32 then some { wo := mask 0 3 }
    else if off = 0x200 then some { rw := mask 0 24, guarded := true }
    else if off = 0x208 then regRc (mask 0 16)
    else none
  | .ntu, _ =>
    match off with
    | 0x100 | 0x108 | 0x120 | 0x130 | 0x138 | 0x140 => regRo
    | 0x110 => some { rw := mask 0 64, guarded := true }
    | 0x118 => some { rw := mask 0 1 ||| mask 2 1, wo := mask 1 1, guarded := true }
    | 0x128 => regRc (mask 32 32)
    | 0x148 => regRc (mask 0 32)
    | _ => none
  | .swo, _ =>
    match off with
    | 0x100 | 0x110 | 0x118 | 0x120 | 0x138 | 0x140 => regRo
    | 0x108 => regRc (mask 32 16)
    | 0x128 => some { wo := mask 0 3, guarded := true }
    | 0x130 => regRc (mask 32 32)
    | _ => none
  | .cus, _ =>
    match off with
    | 0x100 => regRo
    | 0x108 => some { wo := mask 0 36, guarded := true }
    | 0x110 => regRc (mask 0 32)
    | _ => none
  | .lev, 0 =>
    match off with
    | 0x100 | 0x108 | 0x110 | 0x118 => regRo
    | 0x120 => regRc (mask 0 32)
    | 0x128 => some { rw := mask 0 2 ||| mask 8 20, guarded := true }
    | _ => none
  | .lev, 1 =>
    if inArray off 0x108 16 then some { rw := mask 0 9 ||| mask 16 20, guarded := true } else none
  | .lev, 2 => if inArray off 0x100 11 then regRc (mask 16 32) else none
  | .lev, 3 => if off = 0x100 ∨ off = 0x108 then regRo else none
  | .lcc, _ =>
    if off = 0x100 ∨ off = 0x140 ∨ off = 0x148 then regRo
    else if off = 0x108 then some { wo := mask 0 1, guarded := true }
    else if off = 0x110 then some { wo := mask 0 64, guarded := true }
    else if inArray off 0x118 4 then some { wo := mask 0 64, guarded := true }
    else if off = 0x138 then some { wo := mask 0 12, guarded := true }
    else none
  | .fus, 0 => if inArray off 0x100 4 then regRo else none
  | .fus, 1 =>
    match off with
    | 0x100 => some { rw := mask 0 8 }
    | 0x108 | 0x118 => regRo
    | 0x110 => some { wo := mask 0 24, guarded := true }
    | _ => none
  | .fus, 2 => if inArray off 0x100 8 then regRo else none
  | .fus, 3 => if inArray off 0x100 4 then regRo else none
  | .gau, 0 =>
    match off with
    | 0x100 => regRo
    | 0x108 => some { rw := mask 0 17, guarded := true }
    | 0x110 => regRc (mask 0 64)
    | _ => none
  | .gau, 1 =>
    if off = 0x100 ∨ off = 0x110 then regRo
    else if off = 0x108 then some { rw := mask 0 64 }
    else if inArray off 0x140 8 then regRo
    else none
  | .gau, 2 =>
    if off = 0x100 then some { rw := mask 0 15 }
    else if off = 0x108 then regRo
    else if inArray off 0x140 32 then regRo
    else none
  | .gau, 3 =>
    if inArray off 0x100 7 then regRo
    else if off = 0x140 ∨ off = 0x148 then regRo
    else none
  | .wdn, 0 =>
    match off with
    | 0x100 | 0x108 | 0x110 | 0x180 => regRo
    | 0x118 => some { wo := mask 0 5, guarded := true }
    | 0x188 => regRc (mask 0 64)
    | _ => none
  | .wdn, 1 => if inArray off 0x100 4 then regRo else none
  | _, _ => none

/-- Registers of a compute-die page from offset 0x100. -/
def dieSpec (b : Block) (inst off : Nat) : Option RegSpec :=
  match b with
  | .cfl =>
    match inst with
    | 0 => if inArray off 0x100 8 then regRo
           else if off = 0x140 ∨ off = 0x148 then regRo
           else if off = 0x150 then regRc (mask 0 64)
           else none
    | 1 => if inArray off 0x100 9 then regRo else none
    | 2 => if inArray off 0x100 8 then regRc (mask 0 32) else none
    | _ => if inArray off 0x100 8 then regRc (mask 0 64) else none
  | .pol =>
    match off with
    | 0x100 | 0x120 => regRo
    | 0x108 => some { rw := mask 0 19, guarded := true }
    | 0x110 => regRc (mask 0 64)
    | 0x118 => some { rw := mask 0 5 }
    | 0x128 => regRc (mask 0 32)
    | 0x130 => some { rw := mask 0 19, guarded := true }
    | 0x140 => regRc (mask 0 64)
    | 0x148 | 0x150 | 0x158 | 0x160 | 0x168 => regRo
    | 0x170 => some { wo := mask 0 1, guarded := true }
    | _ => none
  | .trc =>
    match off with
    | 0x100 => some { rw := mask 1 17, guarded := true }
    | 0x108 => regRc (mask 0 64)
    | _ => none
  | .rpl =>
    match off with
    | 0x100 | 0x108 | 0x110 | 0x118 => regRo
    | 0x120 => regRc (mask 0 48)
    | _ => none
  | .fwu =>
    match off with
    | 0x100 | 0x108 | 0x120 => regRo
    | 0x110 => some { wo := mask 0 3 ||| mask 32 32, guarded := true }
    | 0x118 => some { wo := mask 0 64, guarded := true }
    | _ => none
  | .hlt =>
    if inArray off 0x100 6 then regRo
    else if off = 0x130 then regRc (mask 0 64)
    else none
  | .kst =>
    match inst, off with
    | 0, 0x100 => regRo
    | 0, 0x108 => regRc (mask 32 32)
    | 0, 0x110 => regRc (mask 0 32)
    | 1, 0x100 => regRo
    | _, _ => none
  | .edy =>
    if inArray off 0x100 16 then regRo
    else if off = 0x180 ∨ off = 0x188 then regRc (mask 0 64)
    else if off = 0x190 then regRc (mask 0 48)
    else none
  | .wei =>
    if inst = 0 then
      if off = 0x100 then regRc (mask 0 64) else if off = 0x108 then regRo else none
    else if 0x100 ≤ off ∧ off < 0x300 then
      match off % 0x20 with
      | 0x00 | 0x08 | 0x10 => regRo
      | 0x18 => regRc (mask 0 64)
      | _ => none
    else none
  | .bnl =>
    match off with
    | 0x100 => regRo
    | 0x108 => regRc (mask 0 64)
    | 0x110 => regRc (mask 0 16)
    | _ => none
  | .lan =>
    if inArray off 0x100 16 then regRo else if inArray off 0x180 16 then regRc (mask 0 48) else none
  | .stp =>
    match off with
    | 0x100 => regRo
    | 0x108 | 0x110 => regRc (mask 0 64)
    | _ => none
  | .dge =>
    if off = 0x100 then regRo
    else if off = 0x108 then regRc (mask 0 64)
    else if off = 0x110 then regRc (mask 0 16)
    else if inst = 0 ∧ (inArray off 0x200 32 = true ∨ inArray off 0x800 256 = true) then regRo
    else none
  | .rng =>
    if off = 0x100 then regRo
    else if off = 0x108 then regRc (mask 0 64)
    else if inst ≠ 0 then none
    else
      match off with
      | 0x180 => some { rw := mask 0 2, guarded := true }
      | 0x188 | 0x190 => regRc (mask 32 32)
      | 0x1A0 => regRo
      | 0x1A8 => regRc (mask 0 64)
      | _ => none
  | .mem =>
    if off = 0x100 then regRc (mask 0 48)
    else if off = 0x108 ∨ off = 0x110 then regRo
    else if inst = 0 ∧ off = 0x180 then regRc (mask 32 32)
    else if inst = 0 ∧ off = 0x188 then regRc (mask 0 48)
    else none
  | .mpu =>
    if off = 0x100 ∨ off = 0x118 ∨ off = 0x120 ∨ off = 0x128 then regRo
    else if off = 0x108 then regRc (mask 0 48)
    else if off = 0x110 then regRc (mask 0 64)
    else if inArray off 0x200 32 then regRo
    else none
  | .bas | .pta | .ptb | .sem | .ntu | .swo | .cus | .lev | .vlt | .lcc | .fus | .gau | .wdn | .slc => none

/-- The register at an offset of a page, if it is not reserved. -/
def regSpec (p : Page) (off : Nat) : Option RegSpec :=
  if off % 8 ≠ 0 then none
  else if off < 0x60 then headerSpec p off
  else if off < 0x100 then none
  else if p.die = 3 then slcSpec off
  else if p.die = 0 then baseSpec p.block p.inst off
  else dieSpec p.block p.inst off

end Sys2Proof.Machine
end

