-- ==== Sys2Proof/Machine/RegRead.lean ====
section
/-!
DEFINITION. What a read of each register returns (the register tables of the chapters). Stored registers return what
they hold; the others are computed from the state, so each fact has one home.
-/
namespace Sys2Proof.Machine

/-- `n` fields of `w` bits each, field `i` from bit `w × i`. -/
def pack (n w : Nat) (f : Nat → Nat) : Word :=
  (List.range n).foldl (fun a i => a ||| fld (w * i) w (f i)) 0

/-! ### Units of a die -/

/-- The unit is neither failed nor held as a spare. Kinds: 1 core, 2 BNL engine, 3 pipeline, 4 digest engine. -/
def unitUp (d : DieState) (kind inst : Nat) : Bool :=
  !(d.failed.contains (kind, inst)) && !(d.spares.contains (kind, inst))

/-- Units of a kind on a die (R19). -/
def unitCount (kind : Nat) : Nat :=
  match kind with
  | 1 => 288
  | 2 => 28
  | 3 => 5
  | 4 => 16
  | _ => 0

/-- Units of a kind in service on a die. -/
def unitsUp (d : DieState) (kind : Nat) : Nat :=
  unitCount kind - (d.failed.filter (fun e => e.1 = kind)).length - (d.spares.filter (fun e => e.1 = kind)).length

/-- Spares of a kind left on a die. -/
def sparesLeft (d : DieState) (kind : Nat) : Nat := (d.spares.filter (fun e => e.1 = kind)).length

/-! ### Common header -/

/-- PG_STAT.role (Table 6). -/
def roleOf (s : State) (p : Page) : Nat :=
  if p.die = 0 ∨ p.die = 3 then 3
  else
    let d := dieOfNo (p.die - 1)
    if activeDie s = some d then 1 else if standbyDie s = some d then 2 else 0

/-- PG_STAT.spare: the page's own unit is a spare not in service. The unit of an Eddy page or of a lane page is what its sixteen
cores hold (DEDUCED). -/
def pageSpare (s : State) (p : Page) : Bool :=
  if p.die = 1 ∨ p.die = 2 then
    let d := dieOf s (dieOfNo (p.die - 1))
    match p.block with
    | .mpu => d.spares.contains (1, p.inst)
    | .bnl => d.spares.contains (2, p.inst)
    | .stp => d.spares.contains (3, p.inst)
    | .edy | .lan => (List.range 16).all (fun i => d.spares.contains (1, 16 * p.inst + i))
    | _ => false
  else false

/-- The common header as the party `who` reads it. -/
def readHeader (s : State) (who : Party) (p : Page) (pg off : Nat) : Word :=
  let v := rd s (pg + off)
  if off = oId then fld 0 24 (blockCode p.block) ||| fld 24 16 p.inst ||| fld 40 4 p.die ||| fld 48 8 1
  else if off = oCap then
    fld 0 16 (match rowOf p.block with | some r => r.pages | none => 0) ||| fld 16 8 (irqBits p) ||| flag 24 (p.block != Block.slc)
  else if off = oStat then
    fld 0 2 (roleOf s p) ||| flag 2 (bitOf (rd s (pg + oErr0)) 16) ||| flag 3 (pageSpare s p)
  else if off = oIrqForce then 0
  else if off = oLock then
    flag 0 (p.block != Block.slc) ||| flag 1 ((semOf s 0).holder == some who) ||| fld 2 2 (holderCode (semOf s 0).holder) |||
      fld 32 16 (getF v 32 16)
  else v

/-! ### Slice pages, port pages and semaphores -/

def sliceCode : SliceMode → Nat
  | .absent => 0
  | .active => 1
  | .draining => 2
  | .squashing => 3
  | .quiesced => 4

def ringCode : RingMode → Nat
  | .disabled => 0
  | .running => 1
  | .error => 2
  | .held => 3

/-- The PASID bound on a port; 0 where the slice is not bound there. -/
def pasidOn (sl : Slice) (p : Port) : BitVec 20 :=
  match p with
  | .a => if sl.portA then sl.pasidA else 0
  | .b => if sl.portB then sl.pasidB else 0

/-- SLC_RING_CTL_n (Table 8 of the ports chapter). -/
def ringCtlWord (r : Ring) : Word :=
  flag 0 r.enable ||| fld 1 4 r.sizeCode ||| fld 5 2 r.home ||| flag 7 r.irqEn ||| fld 8 11 r.vector |||
    fld 19 8 r.coalCount ||| fld 32 16 r.coalTime ||| fld 56 2 (ringCode r.mode) ||| fld 58 2 r.portNow

/-- Slice page registers. -/
def readSlc (s : State) (who : Party) (n off : Nat) : Word :=
  let sl := sliceOf s n
  if off = 0x100 then
    fld 0 3 (sliceCode sl.mode) ||| flag 3 sl.portA ||| flag 4 sl.portB |||
      fld 8 20 (match partyPort who with | some p => (pasidOn sl p).toNat | none => 0) ||| fld 32 16 sl.contexts
  else if off = 0x108 then flag 2 sl.hold
  else if off = 0x110 then fld 0 32 sl.squashed ||| fld 32 16 sl.unwritten
  else
    let r := ringOf s n ((off - 0x200) / 0x40)
    match off % 0x40 with
    | 0x00 => r.sqBase
    | 0x08 => r.cqBase
    | 0x10 => r.stsAddr
    | 0x18 => ringCtlWord r
    | 0x30 => fld 0 32 r.sqHead.toNat ||| fld 32 32 r.sqTail.toNat
    | 0x38 => fld 0 32 r.cqTail.toNat ||| fld 32 32 r.cqHead.toNat
    | _ => 0

/-- No port carries the pair: it is held, or a doorbell put it in error while it was held (R74, R79). -/
def unplaced (r : Ring) : Bool := r.portNow == 0 && r.mode != .disabled

/-- Pairs of a slice that satisfy `p`. -/
def pairsWith (s : State) (n : Nat) (p : Ring → Bool) : Nat :=
  ((List.range 8).filter (fun i => p (ringOf s n i))).length

/-- Port page registers (Tables 11 to 15 of the ports chapter). pairs_here counts the pairs with enable 1 alone, not one with enable
0 that still owes completions: the model's choice (R79, log entry 35). -/
def readPortPage (s : State) (x : Port) (inst pg off : Nat) : Word :=
  let v := rd s (pg + off)
  let ps := portOf s x
  if inst = 0 then
    if off = 0x100 then
      (if ps.linkUp then fld 0 3 ps.speed ||| fld 3 4 ps.width ||| flag 7 true else 0) ||| fld 32 16 ps.retrains
    else v
  else if off = 0x108 then
    let n := getF (rd s (pg + 0x100)) 0 10
    let sl := sliceOf s n
    fld 0 3 (sliceCode sl.mode) ||| flag 3 sl.portA ||| flag 4 sl.portB ||| fld 8 20 (pasidOn sl x).toNat |||
      fld 32 4 (pairsWith s n (fun r => r.portNow == portCode x && r.mode != .disabled)) |||
      fld 36 4 (pairsWith s n unplaced)
  else if off = 0x110 then 0
  else v

/-- SEM_n (Table 17): lease left in µs. -/
def readSem (s : State) (who : Party) (pg off : Nat) : Word :=
  if inArray off 0x100 32 then
    let n := (off - 0x100) / 8
    let m := semOf s n
    let left :=
      match m.holder with
      | none => 0
      | some .warden => 0xFFFFFFFF
      | some _ => (m.leaseEnd - s.nt.ns) / 1000
    fld 3 2 (holderCode m.holder) ||| flag 5 (m.holder == some who) ||| flag 6 (n == 0 && s.wardenWaiting) ||| fld 32 32 left
  else rd s (pg + off)

/-! ### Network time -/

def trustCode : Trust → Nat
  | .untrusted => 0
  | .locked => 1
  | .holdover => 2

/-- 32-bit two's complement of an integer, saturating at ±(2^31 − 1). -/
def sat32 (i : Int) : Nat := (BitVec.ofInt 32 (max (-2147483647) (min 2147483647 i))).toNat

/-- The HOLDOVER error bound b in ns: 1 µs + w × t (R421). -/
def holdBound (n : NtUnit) : Nat := 1000 + n.wander * (n.ns - n.lastGood) / 1000000000000

/-- An edge is missing: none was accepted for more than 1.5 s (R418, R420). -/
def edgeMissing (n : NtUnit) : Bool := match n.lastEdge with | some t => decide (1500000000 < n.ns - t) | none => false

/-- NTU registers (Tables 7 to 10 of the network-time chapter). -/
def readNtu (s : State) (pg off : Nat) : Word :=
  let n := s.nt
  match off with
  | 0x100 => BitVec.ofNat 64 n.ns
  | 0x108 =>
    fld 0 2 (trustCode n.trust) ||| flag 2 n.refOk ||| flag 3 (!n.refOk) |||
      flag 4 (match n.lastEdge with | some t => decide (n.ns - t ≤ 1500000000) | none => false) |||
      flag 5 (match n.lastLabelled with | some t => decide (n.ns - t ≤ 64000000000) | none => false) |||
      flag 6 n.armed.isSome ||| fld 7 4 (if edgeMissing n then 0 else n.goodRun) ||| fld 11 4 n.cause
  | 0x110 => n.nextPulse
  | 0x118 => flag 0 n.allowBack ||| flag 2 n.ppsFalling
  | 0x120 => BitVec.ofNat 64 n.edgeNt
  | 0x128 => fld 0 32 (sat32 n.lastE) ||| fld 32 16 (min n.outliers 0xFFFF) ||| fld 48 16 (min n.ignored 0xFFFF)
  | 0x130 => fld 0 32 (BitVec.ofInt 32 n.correction).toNat ||| fld 32 32 n.wander
  | 0x138 =>
    fld 0 32 (min ((n.ns - n.since) / 1000000000) 0xFFFFFFFF) |||
      fld 32 32 (match n.trust with
        | .locked => 0
        | .untrusted => 0xFFFFFFFF
        | .holdover => min (holdBound n) 0xFFFFFFFF)
  | 0x140 => BitVec.ofInt 64 n.lastStep
  | 0x148 => fld 0 16 (min n.steps 0xFFFF) ||| fld 16 16 (min n.changes 0xFFFF)
  | _ => rd s (pg + off)

/-! ### Switchover and health -/

def healthCode : Health → Nat
  | .good => 0
  | .advisory => 1
  | .alarm => 2
  | .fatal => 3

/-- The slot timer of an arbiter half (0 A, 1 B) for a die. -/
def timerOf (s : State) (half : Nat) (d : Die) : SlotTimer := sget (fun _ => {}) s.sw.timers (half * 2 + dieNo d)

/-- A die's path has had no miss in the last four slots, in both halves. -/
def pathOk (s : State) (q : Bool) (d : Die) : Bool :=
  let ok := fun h => let t := timerOf s h d; decide (4 ≤ (if q then t.goodQ else t.goodP))
  ok 0 && ok 1

def dieSilent (s : State) (d : Die) : Bool := (timerOf s 0 d).silent || (timerOf s 1 d).silent

/-- SWO registers (Tables 8 to 12 of the switchover chapter). Without a holder, `active` names the last one (DEDUCED). -/
def readSwo (s : State) (pg off : Nat) : Word :=
  let w := s.sw
  let v := rd s (pg + off)
  match off with
  | 0x100 =>
    flag 0 (w.token.getD w.held == .d1) ||| fld 1 2 (modeCode s) ||| flag 3 w.hold ||| flag 4 w.gap.isSome |||
      flag 5 s.die0.inService ||| flag 6 s.die1.inService ||| flag 7 (pathOk s false .d0) ||| flag 8 (pathOk s false .d1) |||
      flag 9 (pathOk s true .d0) ||| flag 10 (pathOk s true .d1) ||| flag 11 w.half0Up ||| flag 12 w.half1Up |||
      flag 13 (dieSilent s .d0) ||| flag 14 (dieSilent s .d1) ||| flag 15 w.planned
  | 0x108 => fld 0 16 (min w.switchovers 0xFFFF) ||| fld 16 16 (min w.plannedCount 0xFFFF) ||| fld 32 16 (getF v 32 16) |||
      fld 48 16 (min w.rejoins 0xFFFF)
  | 0x110 => fld 0 4 w.lastCause ||| fld 4 1 w.lastOld ||| fld 16 16 w.gapCycles ||| fld 32 32 w.reexecuted
  | 0x118 => BitVec.ofNat 64 w.lastNt
  | 0x120 => BitVec.ofNat 64 w.lastSeq
  | 0x128 => 0
  | 0x130 => fld 0 4 w.holdCause ||| fld 32 32 (getF v 32 32)
  | 0x138 => fld 0 2 (healthCode w.health0) ||| fld 2 6 w.coresLeft0
  | 0x140 => fld 0 2 (healthCode w.health1) ||| fld 2 6 w.coresLeft1
  | _ => v

/-- A row group of a die's banks has no spare left. -/
def groupSpent (s : State) (d : Die) : Bool := s.banks.any (fun e => e.1 / 64 == dieNo d && e.2.used.any (fun n => decide (2 ≤ n)))

/-- HLT_ADVISORY bits from the counts left (Table 7 of the switchover chapter). -/
def advisoryBits (s : State) (d : Die) : Nat :=
  let x := dieOf s d
  (if sparesLeft x 1 ≤ 8 then 1 else 0) + (if sparesLeft x 2 ≤ 1 then 2 else 0) + (if sparesLeft x 3 = 0 then 4 else 0) +
    (if 1024 - x.sramRowsUsed ≤ 256 ∨ groupSpent s d = true then 8 else 0) + (if 32768 - sectorsUsed s d ≤ 8192 then 16 else 0) +
    (if 256 - fuseSparesUsed s ≤ 64 then 32 else 0)

/-- HLT registers (Table 13). -/
def readHlt (s : State) (d : Die) (pg off : Nat) : Word :=
  let x := dieOf s d
  match off with
  | 0x100 => fld 0 2 (healthCode x.health) ||| flag 2 x.selftestOn ||| fld 3 2 (modeCode s) ||| fld 16 16 (min x.testCycles 0xFFFF) |||
      fld 32 16 s.gauge.lifeLeft
  | 0x108 => fld 0 6 (sparesLeft x 1) ||| fld 6 3 (sparesLeft x 2) ||| fld 9 1 (sparesLeft x 3) ||| fld 10 11 (1024 - x.sramRowsUsed) |||
      fld 21 16 (32768 - sectorsUsed s d) ||| fld 37 9 (256 - fuseSparesUsed s)
  | 0x110 => fld 0 6 (advisoryBits s d)
  | 0x118 => fld 0 9 x.alarms
  | 0x120 => fld 0 4 x.lastFailKind ||| fld 4 16 x.lastFailInst
  | 0x128 => BitVec.ofNat 64 x.lastFailNt
  | _ => rd s (pg + off)

/-! ### Confluence, Weir, Pool, Eddy -/

/-- The ready list of a level. -/
def listOf (m : List (Nat × List Nat)) (level : Nat) : List Nat := sget (fun _ => []) m level

/-- Contexts in use. -/
def ctxUsed (s : State) : Nat := s.conf.ctxs.length

/-- Contexts kept for slices' first eight (CFL_CTX.reserve). -/
def ctxReserve (s : State) : Nat := 8192 - ((s.slices.map (fun e => min 8 e.2.contexts)).foldl (· + ·) 0)

/-- CFL_SLOTS code of a core. -/
def slotCode (s : State) (d : Die) (c : Nat) : Nat :=
  if unitUp (dieOf s d) 1 c then
    if curDie s = d then
      match (coreOf s c).exec, (coreOf s c).pre with
      | none, _ => 0
      | some _, none => 1
      | some _, some _ => 3
    else 0
  else 2

/-- CFL registers. The standby die dispatches nothing: its lists and slots are empty. -/
def readCfl (s : State) (d : Die) (inst pg off : Nat) : Word :=
  let c := s.conf
  let here := decide (curDie s = d)
  let v := rd s (pg + off)
  match inst with
  | 0 =>
    if inArray off 0x100 8 then
      let n := (off - 0x100) / 8
      if here then
        fld 0 19 (listOf c.ready n).length ||| fld 19 19 (listOf c.bnlReady n).length ||| fld 38 19 (listOf c.pipeReady n).length
      else 0
    else if off = 0x140 then fld 0 16 (32768 - ctxUsed s) ||| fld 16 16 c.ctxMin ||| fld 32 16 (ctxReserve s)
    else if off = 0x148 then
      let x := dieOf s d
      fld 0 9 (unitsUp x 1) ||| fld 9 5 (unitsUp x 2) ||| fld 14 3 (unitsUp x 3) ||| flag 17 (decide (unitsUp x 1 < 256) || (here && s.supply.clockStep != 0)) |||
        fld 32 14 (if here then c.yieldFree else 8192)
    else v
  | 1 => if inArray off 0x100 9 then pack 32 2 (fun i => slotCode s d (32 * ((off - 0x100) / 8) + i)) else v
  | _ => v

/-- WEI registers. On the standby die only WEI_SLC_USE is shown. -/
def readWei (s : State) (d : Die) (inst pg off : Nat) : Word :=
  let here := decide (curDie s = d)
  let v := if here then rd s (pg + off) else 0
  if inst = 0 then
    if off = 0x108 then (if here then fld 0 11 s.conf.owedList.length ||| fld 11 11 s.conf.openList.length else 0) else v
  else
    let sl := sliceOf s (16 * (inst - 1) + (off - 0x100) / 0x20)
    match off % 0x20 with
    | 0x00 => fld 0 16 sl.contexts ||| fld 16 16 sl.cells
    | 0x08 => if here then fld 0 32 (sl.rateLevel / 2 ^ 20) ||| fld 32 32 (sl.owedLevel / 2 ^ 20) else 0
    | 0x10 =>
      if here then
        fld 0 8 sl.waitRings ||| flag 8 sl.waitCtx ||| flag 9 sl.waitCells ||| flag 10 sl.waitReserve ||| flag 11 sl.waitRate |||
          flag 12 (decide (2 ^ 20 ≤ sl.owedLevel)) ||| fld 32 32 sl.deficit
      else 0
    | _ => v

/-- Queue 24 or 25 of a die's Pool (R346). -/
def poolQueue (s : State) (d : Die) (q : Nat) : PoolQueue :=
  if curDie s = d then (if q = 24 then s.conf.trace else s.conf.notes)
  else if q = 24 then (dieOf s d).idleTrace else (dieOf s d).idleNotes

def setPoolQueue (s : State) (d : Die) (q : Nat) (x : PoolQueue) : State :=
  if curDie s = d then (if q = 24 then { s with conf := { s.conf with trace := x } } else { s with conf := { s.conf with notes := x } })
  else setDie s d (if q = 24 then { dieOf s d with idleTrace := x } else { dieOf s d with idleNotes := x })

/-- Items in a queue of a die's Pool (Table 4 of the Confluence chapter), and the cells they occupy. Only the active die's
Confluence dispatches, so queues 0 to 23 of the other die are empty, and the journal is staged on the active die (R507). -/
def queueSize (s : State) (d : Die) (q : Nat) : Nat × Nat :=
  let c := s.conf
  let item := fun (n : Nat) => (n, 3 * n)
  if q = 24 ∨ q = 25 then ((poolQueue s d q).items.length, (poolQueue s d q).items.length)
  else if curDie s ≠ d then (0, 0)
  else if q < 8 then item (listOf c.ready q).length
  else if q < 16 then item (listOf c.bnlReady (q - 8)).length
  else if q < 24 then item (listOf c.pipeReady (q - 16)).length
  else if q = 26 then (s.gauge.q.staged.length, s.gauge.q.staged.length)
  else (0, 0)

/-- POL_QSEL of a die. -/
def qsel (s : State) (d : Die) : Nat := getF (rd s (pgPol d + 0x118)) 0 5

/-- Cells free in a die's Pool: on the standby die the requests' cells are those that the active die holds (R430). -/
def poolFreeOn (s : State) (d : Die) : Nat :=
  if curDie s = d then poolFree s
  else 262144 - ((s.slices.map (fun e => e.2.cells)).foldl (· + ·) 0 + (dieOf s d).idleTrace.items.length + (dieOf s d).idleNotes.items.length)

/-- POL registers. -/
def readPol (s : State) (d : Die) (pg off : Nat) : Word :=
  let q := qsel s d
  match off with
  | 0x100 => fld 0 19 (poolFreeOn s d) ||| fld 19 19 s.conf.poolMin
  | 0x120 => fld 0 19 (queueSize s d q).1 ||| fld 19 19 (queueSize s d q).2
  | 0x128 =>
    if q = 24 ∨ q = 25 then fld 0 32 (poolQueue s d q).lost
    else if q = 26 ∧ curDie s = d then fld 0 32 s.gauge.lostStaged else 0
  | 0x130 => if qsel s d = 24 then fld 0 19 (dieOf s d).capTrace else if qsel s d = 25 then fld 0 19 (dieOf s d).capNotes else 0
  | _ => rd s (pg + off)

def eddyCode : EddyMode → Nat
  | .free => 0
  | .ahead => 1
  | .held => 2
  | .order => 3
  | .commit => 4
  | .scrub => 5

/-- Entry `e` of core `c`: its state code and its step's slice. -/
def eddyShow (s : State) (d : Die) (c e : Nat) : Nat × Nat :=
  if !unitUp (dieOf s d) 1 c then (0xF, 0)
  else if curDie s = d then
    let x := (coreOf s c).eddy.getD e {}
    (eddyCode x.mode, if x.mode = .free then 0 else match stepOf s x.step with | some t => t.sliceNo | none => 0)
  else (0, 0)

/-- EDY registers. -/
def readEdy (s : State) (d : Die) (inst pg off : Nat) : Word :=
  if inArray off 0x100 16 then
    let c := 16 * inst + (off - 0x100) / 8
    pack 4 4 (fun e => (eddyShow s d c e).1) ||| (pack 4 10 (fun e => (eddyShow s d c e).2) <<< 16)
  else rd s (pg + off)

/-! ### Key-store controller -/

/-- The shadow frames that a directory word names. -/
def shadowsOf (d : Dir) : List Nat := d.shadowA.toList ++ d.shadowB.toList

/-- Shadow frames that hold a current or pending record or one of a transaction in progress, each once: a transaction keeps
both its new frames and those that it replaces until its end (R259, R262). -/
def shadowUsed (s : State) : List Nat :=
  let named := ((mramOf s (curDie s)).dirs.map (fun e => shadowsOf e.2)).flatten
  let inMarks := (s.kst.marks.map (fun e => (e.2.writes.map (fun w => shadowsOf w.oldDir ++ shadowsOf w.newDir)).flatten)).flatten
  distinct (named ++ inMarks)

/-- Shadow frames free (KST_SHADOW.free, R262). -/
def shadowFree (s : State) : Nat := 258032 - (shadowUsed s).length

/-- A step still needs the material of a slot's generation (R247). -/
def needsKey (t : Step) (slot gen : Nat) : Bool :=
  (match t.phase with | .executing _ | .yielded | .listed | .prefetched _ => true | _ => false) &&
    t.bound.any (fun b => !b.target && b.slot == slot && b.gen == gen)

/-- The slot's current generation; 0 for an empty slot. -/
def curGen (s : State) (slot : Nat) : Nat :=
  let m := mramOf s (curDie s)
  let d := sget (fun _ => {}) m.dirs slot
  let f := if !d.occupied then {} else if d.cur = 0 then sget (fun _ => {}) m.home slot
    else sget (fun _ => {}) m.shadow ((if d.cur = 1 then d.shadowA else d.shadowB).getD 0)
  match f.body with
  | .primary r => r.generation
  | _ => 0

/-- KST registers. -/
def readKst (s : State) (d : Die) (inst pg off : Nat) : Word :=
  let v := rd s (pg + off)
  let here := decide (curDie s = d)
  match inst, off with
  | 0, 0x100 => if s.kst.isOpen then fld 0 18 (shadowFree s) ||| fld 18 18 s.kst.shadowMin ||| fld 36 17 s.kst.pendings.length else 0
  | 0, 0x108 => fld 0 8 s.kst.marks.length ||| fld 32 32 (getF v 32 32)
  | 0, 0x110 => fld 0 32 (getF v 0 32) ||| fld 32 23 ((mramOf s d).dirs.filter (fun e => e.2.damaged)).length
  | 1, 0x100 =>
    if here then
      fld 0 19 s.kst.cache.length |||
        fld 19 19 (s.kst.cache.filter (fun e => e.gen != curGen s e.slot && (s.conf.steps.any (fun t => needsKey t.2 e.slot e.gen) || s.passes.any (fun p => p.slot == e.slot && p.gen == e.gen)))).length
    else 0
  | _, _ => v

/-! ### Levee, life cycle and fuses -/

/-- Kinds of hazards: the counted ones (R450). -/
def hazCounted (h : Nat) : Bool := h == 0x07 || h == 0x0B || h == 0x0D || h == 0x0E

/-- Default tier, threshold and window of a hazard (Tables 1 and 7 of the Levee chapter). -/
def hazDefault (h : Nat) : Nat × Nat × Nat :=
  match h with
  | 0x07 => (2, 3, 1000)
  | 0x09 => (0, 0, 0)
  | 0x0B => (2, 3, 1000)
  | 0x0C => (2, 0, 0)
  | 0x0D => (2, 2, 10000)
  | 0x0E => (2, 8, 10000)
  | _ => (3, 0, 0)

/-- Lowest and highest permitted tier of a hazard (Table 1). -/
def hazTiers (h : Nat) : Nat × Nat :=
  match h with
  | 0x01 | 0x06 | 0x0F | 0x10 => (3, 3)
  | 0x07 | 0x0B | 0x0E => (1, 3)
  | 0x09 => (0, 0)
  | _ => (2, 3)

/-- A hazard's configuration now: tier, threshold, window in µs. -/
def hazCfg (s : State) (h : Nat) : Nat × Nat × Nat := (mget s.vault.lev.haz h).getD (hazDefault h)

def pairOf (s : State) (p : Nat) : DetPair := sget (fun _ => {}) s.lev.pairs p

/-- Level of the ALARM output (R467). -/
def alarmPin (s : State) : Bool := decide (1 ≤ s.lev.tierNow) || s.lev.halted || !s.lev.flags.isEmpty

/-- LEV registers (Tables 5 to 9). -/
def readLev (s : State) (inst pg off : Nat) : Word :=
  let l := s.lev
  let v := rd s (pg + off)
  match inst, off with
  | 0, 0x100 =>
    fld 0 2 l.tierNow ||| flag 2 l.throttleEnd.isSome ||| flag 3 l.halted ||| flag 4 (alarmPin s) |||
      (pack 11 1 (fun p => if (pairOf s p).degraded then 1 else 0) <<< 8)
  | 0, 0x108 => (pack 17 1 (fun h => if l.flags.contains h then 1 else 0)) ||| flag 17 l.zeroised
  | 0, 0x110 => fld 0 8 l.lastHazard ||| fld 8 2 l.lastTier ||| flag 10 l.lastEscalated ||| fld 16 7 l.lastCount
  | 0, 0x118 => BitVec.ofNat 64 l.lastNt
  | 0, 0x120 => fld 0 32 (getF v 0 32) ||| fld 32 16 (min l.tier3Count 0xFFFF)
  | 0, 0x128 => fld 0 2 s.vault.lev.throttle ||| fld 8 16 s.vault.lev.throttleMs ||| fld 24 4 s.vault.lev.escalate
  | 1, _ =>
    let h := (off - 0x100) / 8
    let (t, n, w) := hazCfg s h
    fld 0 2 t ||| fld 2 7 n ||| fld 16 20 w |||
      fld 40 7 ((sget (fun _ => []) l.windows h).filter (fun t => decide (s.nt.ns - t < w * 1000))).length
  | 2, _ =>
    let p := pairOf s ((off - 0x100) / 8)
    flag 0 p.aNow ||| flag 1 p.bNow ||| flag 2 p.aFailed ||| flag 3 p.bFailed ||| flag 4 p.degraded ||| fld 16 32 (getF v 16 32)
  | 3, 0x100 => fld 0 16 (BitVec.ofInt 16 s.supply.temp).toNat ||| fld 16 16 s.supply.vbatMv ||| fld 32 16 s.supply.vauxMv |||
      flag 48 (!s.supply.vaux)
  | 3, 0x108 => pack 4 1 (fun i => if s.supply.encOpen.contains i then 1 else 0) ||| flag 4 s.supply.zeroiseLow |||
      (pack 8 1 (fun k => if s.supply.meshFault.contains k then 1 else 0) <<< 5)
  | _, _ => v

def lifeCode : LifeState → Nat
  | .raw => 0
  | .test => 1
  | .testOpen => 2
  | .factory => 3
  | .shipped => 4
  | .owned => 5
  | .analysis => 6
  | .scrap => 7

/-- The decided value and status of a primary word at the last sense (0 sound, 1 marginal, 2 ambiguous, 3 blank). -/
def fuseVal (s : State) (w : Nat) : Nat × Nat := sget (fun _ => (0, 3)) s.life.decided w

/-- A word of a table of decided words reads as burned: its programmed bit is set, or it is ambiguous in a restrictive class
(R480). -/
def burnedIn (l : List (Nat × (Nat × Nat))) (w : Nat) : Bool :=
  let e := sget (fun _ => (0, 3)) l w
  e.2 == 2 || e.1.testBit 24

/-- A word reads as burned by the last sense. -/
def fuseBurned (s : State) (w : Nat) : Bool := burnedIn s.life.decided w

/-- The decided words whose meanings are in force: a sense in service that changes one applies at the warm start (R481). -/
def fuseTable (s : State) : List (Nat × (Nat × Nat)) := s.life.inForce.getD s.life.decided

/-- The spare of a primary word is programmed. -/
def spareUsed (s : State) (w : Nat) : Bool := (mget s.life.fuses (256 + w)).isSome

/-- Unconsumed test tokens. -/
def tokensLeft (s : State) : Nat := ((List.range 12).filter (fun i => !burnedIn (fuseTable s) (35 + 4 * i))).length

/-- The anti-rollback counter: words 80 to 143 that read as burned (R478). -/
def rollbackIn (l : List (Nat × (Nat × Nat))) : Nat := ((List.range 64).filter (fun i => burnedIn l (80 + i))).length
def rollbackCounter (s : State) : Nat := rollbackIn (fuseTable s)

/-- Policy words programmed. -/
def policyUsed (s : State) : Nat := ((List.range 8).filter (fun i => fuseBurned s (144 + i))).length

/-- The effective policy: the OR of words 144 to 151 (R484). -/
def forbidIn (l : List (Nat × (Nat × Nat))) : Nat := (List.range 8).foldl (fun a i => a ||| (sget (fun _ => (0, 3)) l (144 + i)).1) 0
def policyForbid (s : State) : Nat := forbidIn (fuseTable s)

/-- LCC registers (Table 9 of the life-cycle chapter). -/
def readLcc (s : State) (pg off : Nat) : Word :=
  let l := s.life
  match off with
  | 0x100 => fld 0 8 (lifeCode l.state) ||| flag 8 s.vault.ownerRoot.isSome ||| flag 9 (s.vault.lifeMark.isSome || s.vault.fuseMark.isSome) |||
      fld 10 4 (tokensLeft s) ||| flag 14 l.resolved
  | 0x108 => fld 16 13 l.staging.length
  | 0x140 => fld 0 8 l.result ||| fld 8 8 l.target ||| flag 16 l.busy
  | 0x148 => match s.vault.lifeMark with
    | some m => fld 0 8 m.phase ||| fld 8 8 (lifeCode m.from_) ||| fld 16 8 (lifeCode m.target)
    | none => 0
  | 0x110 | 0x118 | 0x120 | 0x128 | 0x130 | 0x138 => 0
  | _ => rd s (pg + off)

/-- FUS registers (Table 10). -/
def readFus (s : State) (inst pg off : Nat) : Word :=
  let l := s.life
  match inst, off with
  | 0, 0x100 => fld 0 2 l.trigger ||| flag 2 l.sensing ||| flag 3 l.burning ||| fld 16 16 (BitVec.ofInt 16 l.senseTemp).toNat |||
      fld 32 16 l.marginal ||| fld 48 16 l.ambiguous
  | 0, 0x108 => fld 0 9 (256 - fuseSparesUsed s) ||| fld 9 9 l.rewrites.length
  | 0, 0x110 => fld 0 8 l.lastWord ||| fld 8 2 l.lastKind ||| flag 10 l.lastRestrictive
  | 0, 0x118 => BitVec.ofNat 64 l.lastNt
  | 1, 0x100 => fld 0 8 l.fusSel
  | 1, 0x108 =>
    let w := l.fusSel
    let secret := decide (8 ≤ w) && decide (w ≤ 18)
    fld 0 24 (if secret then 0 else (fuseVal s w).1) ||| fld 24 2 (fuseVal s w).2 ||| flag 26 (spareUsed s w) ||| flag 27 (!secret)
  | 1, 0x110 => 0
  | 1, 0x118 => fld 0 24 (policyForbid s) ||| fld 24 3 (policyUsed s - 1)
  | 2, _ => pack 32 2 (fun i => (fuseVal s (32 * ((off - 0x100) / 8) + i)).2)
  | 3, _ => pack 64 1 (fun i => if spareUsed s (64 * ((off - 0x100) / 8) + i) then 1 else 0)
  | _, _ => rd s (pg + off)

/-! ### Warden, firmware, custodians -/

/-- WDN registers (Tables 8 and 9 of the start chapter, Table 9 of the electrical chapter). -/
def readWdn (s : State) (inst pg off : Nat) : Word :=
  let v := s.vault
  let boot := fun (b : BootRec) => fld 0 1 b.slot ||| flag 1 b.trial ||| fld 2 1 b.prevSlot ||| flag 3 b.fallback |||
    fld 8 8 b.mirror ||| fld 32 32 b.version
  match inst, off with
  | 0, 0x100 => fld 0 2 s.starts.kind ||| fld 2 4 (if (activeDie s).isSome then 15 else s.starts.step) ||| fld 8 8 s.starts.failCause ||| fld 16 32 s.starts.elapsedMs
  | 0, 0x108 => fld 0 2 v.failsRecent ||| flag 2 v.recovery ||| fld 16 16 (min v.failsTotal 0xFFFF)
  | 0, 0x110 => BitVec.ofNat 64 v.lastFailNt
  | 0, 0x118 => 0
  | 0, 0x180 =>
    let x := s.supply
    flag 0 x.capped ||| fld 1 3 x.bnlStep ||| fld 4 4 x.clockStep ||| flag 8 x.emergency |||
      fld 16 16 (BitVec.ofInt 16 x.lid).toNat ||| fld 32 16 x.power
  | 1, 0x100 => boot v.boot0
  | 1, 0x108 => boot v.boot1
  | 1, 0x110 => fld 0 2 v.fwPhase ||| fld 2 2 v.trialFails ||| fld 4 7 v.burnTarget ||| fld 11 7 (rollbackCounter s)
  | 1, 0x118 => BitVec.ofNat 64 v.activatedNt
  | _, _ => rd s (pg + off)

/-- The slot a die's downloads go to: the one its boot record does not name (R496). -/
def inactiveSlot (s : State) (d : Die) : Nat :=
  1 - (match d with | .d0 => s.vault.boot0.slot | .d1 => s.vault.boot1.slot)

def fwSlotOf (s : State) (d : Die) (i : Nat) : FwSlot := if i = 0 then (mramOf s d).slotA else (mramOf s d).slotB

def setFwSlot (s : State) (d : Die) (i : Nat) (f : FwSlot) : State :=
  if i = 0 then setMram s d { mramOf s d with slotA := f } else setMram s d { mramOf s d with slotB := f }

/-- FWU registers (Table 10 of the start chapter). -/
def readFwu (s : State) (d : Die) (pg off : Nat) : Word :=
  let show1 := fun (f : FwSlot) => fld 0 3 f.stage ||| flag 3 f.accepted ||| fld 4 7 f.rollback ||| fld 16 8 f.mirror ||| fld 32 32 f.version
  let x := fwSlotOf s d (inactiveSlot s d)
  match off with
  | 0x100 => show1 (fwSlotOf s d 0)
  | 0x108 => show1 (fwSlotOf s d 1)
  | 0x110 | 0x118 => 0
  | 0x120 => fld 0 28 (8 * x.words.length) ||| fld 32 8 x.result ||| flag 40 (decide (x.stage = 3))
  | _ => rd s (pg + off)

def cardOf (s : State) (i : Nat) : CardPort := if i = 0 then s.card0 else s.card1

def setCard (s : State) (i : Nat) (c : CardPort) : State := if i = 0 then { s with card0 := c } else { s with card1 := c }

/-- CUS registers (Tables 6 to 8 of the custodian chapter). -/
def readCus (s : State) (inst pg off : Nat) : Word :=
  let c := cardOf s inst
  match off with
  | 0x100 => flag 0 c.present ||| flag 1 c.powered ||| fld 2 2 c.session ||| fld 4 8 c.cause ||| fld 12 4 c.op |||
      flag 16 c.result.isSome ||| fld 32 32 c.ceremony
  | 0x108 => 0
  | _ => rd s (pg + off)

/-! ### Gauge, trace and replay -/

/-- A record of the journal as the window shows it: bytes, CRC passes, read from the other die (R509, R510). -/
def journalRead (s : State) (crcOk : Bytes → Bool) (n : Nat) : Option (Bytes × Bool × Bool) :=
  if n < s.gauge.nextRec ∧ s.gauge.nextRec ≤ n + 8388608 then
    let a := (mget (mramOf s (curDie s)).journal (n % 8388608)).getD (zeros 64)
    let b := (mget (mramOf s (otherDie (curDie s))).journal (n % 8388608)).getD (zeros 64)
    if crcOk a then some (a, true, false) else some (b, crcOk b, true)
  else none

/-- GAU registers (Table 7 of the Gauge chapter). -/
def readGau (s : State) (crcOk : Bytes → Bool) (inst pg off : Nat) : Word :=
  let g := s.gauge
  let q := if journalHeld s then g.buf else g.q
  let v := rd s (pg + off)
  match inst, off with
  | 0, 0x100 =>
    fld 0 2 (if s.sw.gap.isSome then 3 else if (activeDie s).isSome then 1 else if 5 ≤ s.starts.step then 2 else 0) |||
      fld 2 5 q.staged.length ||| fld 7 16 (match q.cont with | some c => c.repeats | none => 0) ||| flag 23 q.summary.isSome
  | 0, 0x108 => fld 0 17 g.epochS
  | 1, 0x100 => BitVec.ofNat 64 g.nextRec
  | 1, 0x108 => g.jrnSel
  | 1, 0x110 => match journalRead s crcOk g.jrnSel.toNat with
    | some (_, ok, other) => flag 0 true ||| flag 1 ok ||| flag 2 other
    | none => 0
  | 1, _ => match journalRead s crcOk g.jrnSel.toNat with
    | some (b, _, _) => BitVec.ofNat 64 (leAt b (off - 0x140) 8)
    | none => 0
  | 2, 0x100 => g.histSel
  | 2, 0x108 => BitVec.ofNat 64 (if bitOf g.histSel 14 then g.curStart else g.closedStart)
  | 2, _ =>
    let bank := if bitOf g.histSel 14 then g.cur else g.closed
    let base := getF g.histSel 0 10 * 640 + getF g.histSel 10 4 * 64 + 2 * ((off - 0x140) / 8)
    if getF g.histSel 10 4 ≤ 9 then fld 0 32 (sget (fun _ => 0) bank base) ||| fld 32 32 (sget (fun _ => 0) bank (base + 1)) else 0
  | 3, 0x140 => fld 0 16 (BitVec.ofInt 16 g.loTemp).toNat ||| fld 16 16 (BitVec.ofInt 16 g.hiTemp).toNat ||| fld 32 16 g.loVin ||| fld 48 16 g.hiVin
  | 3, 0x148 => fld 0 16 g.loVaux ||| fld 16 16 g.hiVaux ||| fld 32 16 g.loVbat
  | 3, _ => fld 0 32 (g.tat.getD ((off - 0x100) / 8) 0)
  | _, _ => v

/-- Entries in the capture ring, with the newest and oldest commit sequence numbers (R519). -/
def captureEntries (m : Mram) : List Capture := m.capture.map (·.2)

/-- RPL registers (Table 8 of the Gauge chapter); both dies report the same values. -/
def readRpl (s : State) (pg off : Nat) : Word :=
  let l := captureEntries (mramOf s (curDie s))
  let seqs := l.map (·.seq)
  match off with
  | 0x100 => fld 0 17 l.length
  | 0x108 => BitVec.ofNat 64 (seqs.foldl max 0)
  | 0x110 => BitVec.ofNat 64 (match seqs with | [] => 0 | x :: r => r.foldl min x)
  | 0x118 => fld 0 2 s.gauge.replay.state ||| fld 2 10 s.gauge.replay.slice ||| fld 12 2 (s.gauge.replay.reg - 28) ||| fld 32 32 s.gauge.replay.runs
  | _ => rd s (pg + off)

/-! ### Shared units of a compute die -/

/-- State code of a unit's page: 0 idle, 1 busy, 2 out of service, 3 spare. -/
def unitCode (d : DieState) (kind inst : Nat) (busy : Bool) : Nat :=
  if d.failed.contains (kind, inst) then 2 else if d.spares.contains (kind, inst) then 3 else if busy then 1 else 0

/-- An engine of the active die; every engine of the other die idles. -/
def engineOf (s : State) (i : Nat) : Engine := sget (fun _ => {}) s.engines i

def setEngine (s : State) (i : Nat) (e : Engine) : State := { s with engines := sset (fun _ => {}) s.engines i e }

def pipeOf (s : State) (i : Nat) : Pipe := sget (fun _ => {}) s.pipes i

def setPipe (s : State) (i : Nat) (p : Pipe) : State := { s with pipes := sset (fun _ => {}) s.pipes i p }

def laneOf (s : State) (c : Nat) : Lane := sget (fun _ => {}) s.lanes c

def setLane (s : State) (c : Nat) (l : Lane) : State := { s with lanes := sset (fun _ => {}) s.lanes c l }

def rulesOf (s : State) (c : Nat) : RuleSets := sget (fun _ => {}) s.rules c

def setRules (s : State) (c : Nat) (r : RuleSets) : State := { s with rules := sset (fun _ => {}) s.rules c r }

def rngOf (s : State) : Die → Rng
  | .d0 => s.rng0
  | .d1 => s.rng1

def setRng (s : State) (d : Die) (r : Rng) : State :=
  match d with
  | .d0 => { s with rng0 := r }
  | .d1 => { s with rng1 := r }

def bankOf (s : State) (d : Die) (b : Nat) : Bank := sget (fun _ => {}) s.banks (64 * dieNo d + b)

def setBank (s : State) (d : Die) (b : Nat) (v : Bank) : State :=
  { s with banks := sset (fun _ => {}) s.banks (64 * dieNo d + b) v }

/-- BNL registers (Tables 2 to 4 of the public-key chapter). -/
def readBnl (s : State) (d : Die) (inst pg off : Nat) : Word :=
  let e := if curDie s = d then engineOf s inst else {}
  let x := dieOf s d
  match off with
  | 0x100 => fld 0 2 (unitCode x 2 inst e.job.isSome) ||| fld 2 10 e.lastSlice ||| flag 12 e.lastModule ||| flag 13 e.scrubbed
  | 0x110 => fld 0 16 (getF (rd s (pg + off)) 0 16) ||| flag 16 (x.failed.contains (2, inst))
  | _ => rd s (pg + off)

/-- LAN registers (Tables 3 and 4 of the cipher chapter). -/
def readLan (s : State) (d : Die) (inst pg off : Nat) : Word :=
  if inArray off 0x100 16 then
    let c := 16 * inst + (off - 0x100) / 8
    let here := decide (curDie s = d)
    let l := if here then laneOf s c else {}
    fld 0 2 (unitCode (dieOf s d) 1 c (here && (coreOf s c).exec.isSome)) ||| fld 2 3 l.key ||| flag 5 l.kcvOpen ||| fld 6 13 l.dataBytes
  else rd s (pg + off)

/-- STP registers (Tables 5 and 6 of the cipher chapter). -/
def readStp (s : State) (d : Die) (inst pg off : Nat) : Word :=
  match off with
  | 0x100 =>
    let p := if curDie s = d then pipeOf s inst else {}
    let pass := p.running.bind (fun k => s.passes.find? (fun q => q.step = k))
    fld 0 2 (unitCode (dieOf s d) 3 inst (p.running.isSome || p.sealing.isSome)) |||
      fld 2 3 (match pass with | some q => q.level | none => 0) ||| flag 5 p.sealing.isSome |||
      fld 6 4 (p.suspended.length + (if p.running.isSome then 1 else 0)) |||
      fld 16 10 (match pass with | some q => q.sliceNo | none => 0)
  | _ => rd s (pg + off)

/-- The value of a measurement register of a die. -/
def measVal (s : State) (d : Die) (r : Nat) : Bytes := (mget (dieOf s d).meas r).getD (zeros 64)

/-- Opcodes whose firmware hashes for its own purposes (R374). -/
def hashesInFirmware (op : Nat) : Bool := op == 0x0313 || op == 0x0314 || op / 256 == 6 || op / 256 == 8

/-- The digest slot of a core holds work: the core executes a step whose function has hashed and that is not ready (R372). -/
def slotBusy (s : State) (c : Nat) : Bool :=
  match (coreOf s c).exec.bind (fun k => mget s.conf.steps k) with
  | some t => t.result.isSome && (leAt t.desc 0 2 == 0x0701 || hashesInFirmware (leAt t.desc 0 2)) &&
      (match t.phase with | .executing _ => true | _ => false)
  | none => false

/-- Slots of an engine that hold work. -/
def busySlots (s : State) (inst : Nat) : Word :=
  (List.range 18).foldl (fun w j => w ||| flag j (slotBusy s (18 * inst + j))) 0

/-- The hash state in a slot of a digest engine of a die (R371). -/
def setDigest (s : State) (d : Die) (engine slot : Nat) (st : Bytes) : State :=
  setDie s d { dieOf s d with digests := mput (dieOf s d).digests (20 * engine + slot) st }

/-- DGE registers (Tables 12 and 13 of the cipher chapter). -/
def readDge (s : State) (d : Die) (inst pg off : Nat) : Word :=
  let x := dieOf s d
  if off = 0x100 then
    (if curDie s = d then busySlots s inst else 0) ||| flag 20 (!x.failed.contains (4, inst)) |||
      fld 21 2 (match x.services with
        | [l, j, m] => if l = inst then 1 else if j = inst then 2 else if m = inst then 3 else 0
        | _ => 0)
  else if inArray off 0x200 32 then
    let r := (off - 0x200) / 8
    if r < 8 then fld 10 2 2
    else if r < 28 then
      match mget s.measOwner r with
      | some o => fld 0 10 o ||| fld 10 2 1
      | none => 0
    else fld 10 2 3
  else if 0x800 ≤ off then
    BitVec.ofNat 64 (leAt (measVal s d ((off - 0x800) / 0x40)) (off % 0x40) 8)
  else rd s (pg + off)

/-- The source state as its page shows it: OFF while the die is not in service (R385). -/
def srcCode (s : State) (d : Die) (x : Source) : Nat :=
  if (dieOf s d).inService then
    match x.mode with
    | .off => 0 | .startup => 1 | .running => 2 | .restarting => 3 | .fatal => 4 | .raw => 5
  else 0

/-- The source that feeds the conditioner: the primary while it is RUNNING, else the secondary while it is; none
while raw sampling runs (R386, R392). -/
def feeding (r : Rng) : Option Nat :=
  if r.rawState ≠ 0 then none
  else
    let jnsFirst := bitOf r.ctl 0
    let l := r.lns.mode == .running
    let j := r.jns.mode == .running
    if jnsFirst then (if j then some 1 else if l then some 0 else none)
    else if l then some 0 else if j then some 1 else none

/-- RNG registers (Tables 16 and 17 of the cipher chapter). -/
def readRng (s : State) (d : Die) (inst pg off : Nat) : Word :=
  let r := rngOf s d
  let src := if inst = 0 then r.lns else r.jns
  let v := rd s (pg + off)
  match off with
  | 0x100 => fld 0 3 (srcCode s d src) ||| flag 3 (decide (feeding r = some inst)) |||
      fld 4 2 (min 3 (src.fails.filter (fun t => decide (s.nt.ns - t < 1000000000))).length)
  | 0x188 => fld 0 7 r.seeds.length ||| fld 32 32 (getF v 32 32)
  | 0x190 => fld 0 11 (if curDie s = d then s.drbg.length else 0) ||| fld 32 32 (getF v 32 32)
  | 0x1A0 => fld 0 2 r.rawState ||| fld 2 1 r.rawSource ||| fld 3 1 r.rawStage ||| fld 4 25 r.captured ||| fld 29 25 r.readSoFar
  | 0x1A8 => if r.rawState = 2 then r.rawBuf.getD (r.readSoFar / 64) 0 else 0
  | _ => v

/-- MEM registers (Tables 9 and 10 of the memory chapter). -/
def readMem (s : State) (d : Die) (inst pg off : Nat) : Word :=
  let b := bankOf s d inst
  match off with
  | 0x108 => pack 8 2 (fun g => b.used.getD g 0) ||| fld 16 5 (16 - b.used.foldl (· + ·) 0) ||| fld 21 4 b.marked.length
  | 0x110 => match b.errRow with
    | some r => fld 0 13 r ||| flag 13 true
    | none => 0
  | _ => rd s (pg + off)

/-- MPU registers (Table 11 of the memory chapter). -/
def readMpu (s : State) (d : Die) (inst pg off : Nat) : Word :=
  let here := decide (curDie s = d)
  let r := if here then rulesOf s inst else {}
  if off = 0x100 then
    fld 0 1 r.active ||| fld 1 11 r.activeOwner ||| fld 12 11 r.shadowOwner ||| flag 23 r.shadowReady |||
      fld 24 4 (if here then (coreOf s inst).buffer.length else 0) |||
      fld 28 2 (unitCode (dieOf s d) 1 inst (here && (coreOf s inst).exec.isSome))
  else if inArray off 0x200 32 then
    let i := (off - 0x200) / 8
    if i < 16 then r.set0.getD i 0 else r.set1.getD (i - 16) 0
  else rd s (pg + off)

end Sys2Proof.Machine
end

