-- ==== Sys2Proof/Machine/KeyOps.lean ====
section
/-!
DEFINITION. The key store (R230 to R263): frames and directory words, the records of a group, the generations of a
slot, the key cache, and the frame writes of a key transaction.
-/
namespace Sys2Proof.Machine

/-! ### Codes of key records (Tables 4 to 6 of the key-store chapter) -/

/-- ASCII of one character. -/
def chr (c : Char) : Nat := c.toNat

/-- A usage in its two-byte form (R241): first byte in bits 15 to 8. -/
def usage2 (t : String) : Nat := ofBe (ascii t)

/-- Strength of an algorithm in bits; 0 for an object and for a code that Table 4 lacks. -/
def strength : Nat → Nat
  | 0x10 => 80 | 0x11 => 112 | 0x20 => 128 | 0x21 => 192 | 0x22 => 256 | 0x30 => 256
  | 0x40 => 112 | 0x41 => 128 | 0x42 => 152
  | 0x50 => 128 | 0x51 => 192 | 0x52 => 256 | 0x58 => 128
  | 0x60 => 128 | 0x61 => 192 | 0x62 => 256
  | 0x68 => 128 | 0x69 => 192 | 0x6A => 256
  | _ => 0

def isTdes (a : Nat) : Bool := a == 0x10 || a == 0x11
def isAes (a : Nat) : Bool := a == 0x20 || a == 0x21 || a == 0x22
def isRsa (a : Nat) : Bool := a == 0x40 || a == 0x41 || a == 0x42
def isEc (a : Nat) : Bool := a == 0x50 || a == 0x51 || a == 0x52
def isKem (a : Nat) : Bool := a == 0x60 || a == 0x61 || a == 0x62
def isDsa (a : Nat) : Bool := a == 0x68 || a == 0x69 || a == 0x6A

/-- A code that Table 4 lists. -/
def algKnown (a : Nat) : Bool :=
  isTdes a || isAes a || a == 0x30 || isRsa a || isEc a || a == 0x58 || isKem a || isDsa a || a == 0xF0

/-- A usage that Table 5 lists. -/
def usageKnown (u : Nat) : Bool :=
  ((["B0", "C0", "D0", "D1", "E0", "E1", "E2", "E4", "K1", "M0", "M1", "M3", "M6", "M7", "P0", "S0", "V1", "V2"].map usage2) ++
    [61, 62, 63, 64, 65]).contains u

/-- A mode that Table 6 lists. -/
def modeKnown (m : Nat) : Bool := ("BCDEGNSVX".toList.map chr).contains m

/-- Table 5: the modes and algorithms of a usage. -/
def combinationOk (u m a : Nat) : Bool :=
  let md := fun (t : String) => (t.toList.map chr).contains m
  if u = usage2 "B0" then md "X" && (isAes a || a == 0x10)
  else if u = usage2 "C0" then md "CGV" && a == 0x10
  else if u = usage2 "D0" then md "BDE" && isAes a
  else if u = usage2 "D1" then md "DEX" && (isRsa a || isEc a || isKem a)
  else if u = usage2 "E0" ∨ u = usage2 "E1" ∨ u = usage2 "E2" then md "X" && (isTdes a || isAes a)
  else if u = usage2 "E4" then md "X" && isTdes a
  else if u = usage2 "K1" then md "BDE" && (isTdes a || isAes a)
  else if u = usage2 "M0" ∨ u = usage2 "M1" then md "CGV" && isTdes a
  else if u = usage2 "M3" then md "CGV" && a == 0x10
  else if u = usage2 "M6" then md "CGV" && (isTdes a || isAes a)
  else if u = usage2 "M7" then md "CGV" && a == 0x30
  else if u = usage2 "P0" then md "BDE" && (isTdes a || isAes a)
  else if u = usage2 "S0" then md "SV" && (isRsa a || isEc a || a == 0x58 || isDsa a)
  else if u = usage2 "V1" ∨ u = usage2 "V2" then md "CGV" && isTdes a
  else if 61 ≤ u ∧ u ≤ 64 then md "N" && a == 0xF0
  else if u = 65 then md "BDE" && isAes a
  else false

/-- Extension records that a key needs (R240). -/
def extNeeded (alg cls : Nat) : Nat :=
  match alg with
  | 0x40 => 1 | 0x41 => 2 | 0x42 => 2
  | 0x60 => if cls = 2 then 4 else 0
  | 0x61 => if cls = 2 then 5 else 0
  | 0x62 => if cls = 2 then 7 else 0
  | 0x68 => if cls = 2 then 6 else 0
  | 0x69 => if cls = 2 then 9 else 0
  | 0x6A => if cls = 2 then 12 else 0
  | _ => 0

/-- Material length that Table 4 fixes for a secret key; `none` where it varies. -/
def secretLen : Nat → Option Nat
  | 0x10 => some 16 | 0x11 => some 24 | 0x20 => some 16 | 0x21 => some 24 | 0x22 => some 32
  | _ => none

/-- The check value of R253: 3 bytes for TDES, 5 bytes for AES, none otherwise. -/
def checkValue (alg : Nat) (mat : Bytes) : Option Bytes :=
  if isTdes alg then some ((tdesEnc mat (zeros 8)).take 3)
  else if isAes alg then some ((cmac (.aes mat) (zeros 16)).take 5)
  else none

/-- The cipher of a secret key. -/
def cipherOf (alg : Nat) (mat : Bytes) : Cipher := if isTdes alg then .tdes mat else .aes mat

/-! ### Slots -/

def homeFrame (m : Mram) (slot : Nat) : Frame := sget (fun _ => {}) m.home slot
def shadowFrame (m : Mram) (n : Nat) : Frame := sget (fun _ => {}) m.shadow n
def slotDir (m : Mram) (slot : Nat) : Dir := sget (fun _ => {}) m.dirs slot

/-- The frame at a place of a slot: 0 home, 1 shadow A, 2 shadow B. -/
def placeFrame (m : Mram) (slot : Nat) (d : Dir) (place : Nat) : Frame :=
  match place with
  | 0 => homeFrame m slot
  | 1 => match d.shadowA with | some n => shadowFrame m n | none => {}
  | _ => match d.shadowB with | some n => shadowFrame m n | none => {}

/-- What a slot holds for the root in force (R231, R232, R235, R243, R264). -/
inductive SlotView where
  | empty
  | damaged
  | ext (primary : Nat)
  | held (r : KeyRecord)
deriving DecidableEq, Repr

/-- A frame as the root in force reads it. -/
def frameView (root : Nat) (f : Frame) : SlotView :=
  if f.rootId = root then
    match f.body with
    | .primary r => .held r
    | .extension p _ _ => .ext p
    | .never | .tombstone _ => .empty
  else .empty

/-- Material bytes of an extension frame. -/
def extMaterial (f : Frame) : Bytes :=
  match f.body with
  | .extension _ _ b => b
  | _ => []

/-- The current record of a slot on an MRAM die, with the whole group's material. -/
def slotViewIn (m : Mram) (root slot : Nat) : SlotView :=
  let d := slotDir m slot
  if d.damaged then .damaged
  else if !d.occupied then .empty
  else
    match frameView root (placeFrame m slot d d.cur) with
    | .held r =>
      let exts := (List.range r.extCount).map (fun j =>
        let dj := slotDir m (slot + j + 1)
        extMaterial (placeFrame m (slot + j + 1) dj dj.cur))
      .held { r with material := (r.material ++ exts.flatten).take r.matLen }
    | v => v

/-- The current record of a slot, as the active die reads it. -/
def slotView (s : State) (slot : Nat) : SlotView := slotViewIn (mramOf s (curDie s)) s.kst.rootId slot

/-- Any slot of a group is damaged. -/
def groupDamaged (s : State) (slot : Nat) : Bool :=
  match slotView s slot with
  | .damaged => true
  | .held r => (List.range r.extCount).any (fun j => (slotDir (mramOf s (curDie s)) (slot + j + 1)).damaged)
  | _ => false

/-- The pending record of a slot. -/
def pendingView (s : State) (slot : Nat) : Option KeyRecord :=
  let m := mramOf s (curDie s)
  let d := slotDir m slot
  if d.pend = 0 then none
  else
    match frameView s.kst.rootId (placeFrame m slot d (d.pend - 1)) with
    | .held r =>
      let exts := (List.range r.extCount).map (fun j =>
        let dj := slotDir m (slot + j + 1)
        extMaterial (placeFrame m (slot + j + 1) dj (dj.pend - 1)))
      some { r with material := (r.material ++ exts.flatten).take r.matLen }
    | _ => none

/-- The slot is in withdrawal after an immediate erase (R248). -/
def inWithdrawal (s : State) (slot : Nat) : Bool := (mget s.kst.withdrawal slot).isSome

/-- The last generation of a slot (R246). -/
def lastGenOf (s : State) (slot : Nat) : Nat := (slotDir (mramOf s (curDie s)) slot).lastGen

/-- The highest generation a slot may reach; a slot there is retired (R246). -/
def lastGenMax : Nat := 0x7FFFFFFE

/-- The slice owns the slot's range (R230). -/
def inRange (sl : Slice) (slot : Nat) : Bool := decide (sl.keyBase ≤ slot) && decide (slot < sl.keyBase + sl.keyCount)

/-- A group of slots from `slot` is empty, undamaged and in the slice's range (R231). -/
def groupEmpty (s : State) (sliceNo slot count : Nat) : Bool :=
  (List.range count).all (fun j =>
    inRange (sliceOf s sliceNo) (slot + j) && slotView s (slot + j) == .empty && !inWithdrawal s (slot + j))

/-! ### Frame writes of a key transaction (R259, R262) -/

/-- The lowest free shadow frame, among those not in `taken`. -/
def freeShadow (s : State) (taken : List Nat) : Option Nat :=
  let used := shadowUsed s ++ taken
  firstKey (fun n => decide (n < 258032) && !used.contains n) 0 (used.length + 1)

/-- The home frame of a slot holds its current record, a tombstone included. A frame never written, and one of another root,
holds none (R232, R262, R264). -/
def homeHolds (s : State) (m : Mram) (slot : Nat) : Bool :=
  (homeFrame m slot).body != .never && (homeFrame m slot).rootId == s.kst.rootId

/-- The directory word of a slot as the writes already made in the transaction leave it. -/
def dirAfter (m : Mram) (slot : Nat) (done : List FrameWrite) : Dir :=
  match done.find? (fun w => w.slot == slot) with
  | some w => w.newDir
  | none => slotDir m slot

/-- A place of a slot holds its current or its pending record, before the transaction or after the writes already made. -/
def placeUsed (s : State) (m : Mram) (slot : Nat) (done : List FrameWrite) (place : Nat) : Bool :=
  let d0 := slotDir m slot
  let d := dirAfter m slot done
  d0.pend == place + 1 || d.pend == place + 1 ||
    (if place = 0 then (d0.cur == 0 && homeHolds s m slot) || (d.cur == 0 && d0.cur != 0) else d0.cur == place || d.cur == place)

/-- The place of a new record: the home frame where it holds neither record, otherwise a shadow frame (R262). -/
def newPlace (s : State) (m : Mram) (slot : Nat) (done : List FrameWrite) : Nat :=
  ((List.range 3).find? (fun p => !placeUsed s m slot done p)).getD 2

/-- A directory word with a place given a shadow frame number. -/
def withShadow (d : Dir) (place : Nat) (n : Option Nat) : Dir :=
  match place with
  | 1 => { d with shadowA := n }
  | 2 => { d with shadowB := n }
  | _ => d

/-- A directory word whose replaced frame is freed: a shadow place that holds neither record names no frame. -/
def freeUnused (d : Dir) : Dir :=
  let d := if d.cur = 1 ∨ d.pend = 2 then d else { d with shadowA := none }
  if d.cur = 2 ∨ d.pend = 3 then d else { d with shadowB := none }

/-- How a frame write changes its slot: it writes the current record, the pending record, or the current record of a slot that
keeps no pending one. -/
inductive WriteKind | current | pending | only
deriving DecidableEq, Repr

/-- The shadow frames a list of writes has allocated. -/
def takenBy (ws : List FrameWrite) : List Nat :=
  (ws.map (fun w => (w.newDir.shadowA.toList ++ w.newDir.shadowB.toList))).flatten

/-- The write of one body into a slot, after the writes already made in the same transaction. -/
def frameWrite (s : State) (slot : Nat) (kind : WriteKind) (body : FrameBody) (gen : Nat) (done : List FrameWrite) : FrameWrite :=
  let m := mramOf s (curDie s)
  let d := dirAfter m slot done
  let place := newPlace s m slot done
  let d1 := if place = 0 then d else withShadow d place (freeShadow s (takenBy done))
  let isExt := match body with | .extension _ _ _ => true | _ => false
  let occ := match body with | .primary _ | .extension _ _ _ => true | _ => false
  let cur := { d1 with cur := place, occupied := occ, ext := isExt, damaged := false, lastGen := max d.lastGen gen }
  let d2 := match kind with
    | .current => cur
    | .only => { cur with pend := 0 }
    | .pending => { d1 with pend := place + 1, lastGen := max d.lastGen gen }
  { slot := slot, oldDir := slotDir m slot, newDir := freeUnused d2, place := place,
    frame := { rootId := s.kst.rootId, sealNo := 0, body := body } }

/-- A write joins the others of its transaction: every write of a slot carries the slot's final directory word. -/
def addWrite (done : List FrameWrite) (w : FrameWrite) : List FrameWrite :=
  done.map (fun x => if x.slot = w.slot then { x with newDir := w.newDir } else x) ++ [w]

/-- A shadow frame was free for every write that needs one. -/
def framesFound (ws : List FrameWrite) : Bool :=
  ws.all (fun w => match w.place with
    | 0 => true
    | 1 => w.newDir.shadowA.isSome
    | _ => w.newDir.shadowB.isSome)

/-- The bodies of a group: the primary record and its extension records (R236, R240, R243). -/
def groupBodies (slot : Nat) (r : KeyRecord) : List FrameBody :=
  .primary { r with material := r.material.take 144, matLen := r.material.length, extCount := extNeeded r.algorithm r.cls } ::
    (List.range (extNeeded r.algorithm r.cls)).map (fun j =>
      .extension slot r.generation (cut r.material (144 + 216 * j) 216))

/-- The writes of a whole group from a slot on. -/
def groupWrites (s : State) (slot : Nat) (kind : WriteKind) (gen : Nat) (bodies : List FrameBody) (done : List FrameWrite) : List FrameWrite :=
  match bodies with
  | [] => done
  | b :: r => groupWrites s (slot + 1) kind gen r (addWrite done (frameWrite s slot kind b gen done))

/-- The writes that put a record into a slot. -/
def recordWrites (s : State) (slot : Nat) (kind : WriteKind) (r : KeyRecord) (done : List FrameWrite := []) : List FrameWrite :=
  groupWrites s slot kind r.generation (groupBodies slot r) done

/-- The tombstone of a slot discards its pending record too (R246, R250). -/
def tombWrite (s : State) (slot gen : Nat) (done : List FrameWrite) : FrameWrite :=
  frameWrite s slot .only (.tombstone gen) gen done

/-- The tombstones of a group of `count` slots. -/
def tombWrites (s : State) (slot gen : Nat) (count : Nat) (done : List FrameWrite) : List FrameWrite :=
  match count with
  | 0 => done
  | n + 1 => tombWrites s (slot + 1) gen n (addWrite done (tombWrite s slot gen done))

/-- One die's MRAM with the frame of a write in its new place (step 2 of R259). -/
def putFrame (m : Mram) (w : FrameWrite) : Mram :=
  match w.place with
  | 0 => { m with home := sset (fun _ => {}) m.home w.slot w.frame }
  | 1 => match w.newDir.shadowA with
    | some n => { m with shadow := sset (fun _ => {}) m.shadow n w.frame }
    | none => m
  | _ => match w.newDir.shadowB with
    | some n => { m with shadow := sset (fun _ => {}) m.shadow n w.frame }
    | none => m

/-- One die's MRAM with the new directory word of a write (step 3 of R259). -/
def putDir (m : Mram) (w : FrameWrite) : Mram := { m with dirs := sset (fun _ => {}) m.dirs w.slot w.newDir }

/-- The frames that the old word named and the new one does not are zeroised (step 5 of R259): each reads as a
frame never written. -/
def clearOld (m : Mram) (w : FrameWrite) : Mram :=
  let gone := (w.oldDir.shadowA.toList ++ w.oldDir.shadowB.toList).filter
    (fun n => w.newDir.shadowA != some n && w.newDir.shadowB != some n)
  let m := { m with shadow := gone.foldl mdel m.shadow }
  let homeUsed := w.newDir.cur == 0 || w.newDir.pend == 1
  if homeUsed then m else { m with home := mdel m.home w.slot }

/-- Bit of the reset-expiry bitmap after a slot's new directory word stands (R263): the current record's flag. -/
def putExpiry (m : Mram) (slot : Nat) : Mram :=
  let d := slotDir m slot
  let on := match (placeFrame m slot d d.cur).body with | .primary r => d.occupied && r.expireAtReset | _ => false
  let rest := m.expiry.filter (fun x => decide (x ≠ slot))
  if on then { m with expiry := rest.filter (fun x => decide (x < slot)) ++ [slot] ++ rest.filter (fun x => decide (slot < x)) }
  else { m with expiry := rest }

/-- A roll-back: the old words stand again and the new frames are gone (R260). -/
def undoWrite (m : Mram) (w : FrameWrite) : Mram :=
  let m := { m with dirs := sset (fun _ => {}) m.dirs w.slot w.oldDir }
  match w.place with
  | 0 => { m with home := mdel m.home w.slot }
  | 1 => match w.newDir.shadowA with
    | some n => if w.oldDir.shadowA = some n then m else { m with shadow := mdel m.shadow n }
    | none => m
  | _ => match w.newDir.shadowB with
    | some n => if w.oldDir.shadowB = some n then m else { m with shadow := mdel m.shadow n }
    | none => m

/-- One die's MRAM with what step 2 of R259 writes for a mark: its new frames, and its new rosters (R301). -/
def putMark (x : Mark) (m : Mram) : Mram :=
  let m := x.writes.foldl putFrame m
  { m with rosters := x.rosters.foldl (fun r e => sset (fun _ => {}) r e.1 e.2.2) m.rosters }

/-- One die's MRAM after a mark is rolled back: the old directory words and rosters, and no new frame (R260). -/
def undoMark (x : Mark) (m : Mram) : Mram :=
  let m := x.writes.foldl undoWrite m
  { m with rosters := x.rosters.foldl (fun r e => sset (fun _ => {}) r e.1 e.2.1) m.rosters }

/-- The two MRAM dies that a change must reach: the active die's, and the standby die's in duplex running (R32). -/
def mramDies (s : State) : List Die :=
  match activeDie s with
  | none => []
  | some d => if duplex s then [d, otherDie d] else [d]

/-- An operation on the MRAM of every die of a list. -/
def onMram (s : State) (ds : List Die) (f : Mram → Mram) : State :=
  ds.foldl (fun s d => setMram s d (f (mramOf s d))) s

/-! ### The key cache (R247, R249) -/

/-- A step or a data pass still needs the material of a slot's generation (R247). -/
def keyHeld (s : State) (slot gen : Nat) : Bool :=
  s.conf.steps.any (fun t => needsKey t.2 slot gen) || s.passes.any (fun p => p.slot == slot && p.gen == gen)

def cacheFind (s : State) (slot gen : Nat) : Option CacheEntry :=
  s.kst.cache.find? (fun e => e.slot == slot && e.gen == gen)

/-- The entry that a load may displace: the unheld current-generation entry bound least recently. -/
def cacheVictim (s : State) : Option CacheEntry :=
  (s.kst.cache.filter (fun e => e.gen == curGen s e.slot && !keyHeld s e.slot e.gen)).foldl
    (fun a e => match a with
      | none => some e
      | some b => if e.stamp < b.stamp then some e else some b) none

/-- An entry placed in the cache, or `none` when no entry is free or unheld. -/
def cacheLoad (s : State) (slot gen : Nat) (r : KeyRecord) : Option State :=
  let k := s.kst
  let e : CacheEntry := ⟨slot, gen, r, k.clock⟩
  let rest := k.cache.filter (fun x => !(x.slot == slot && x.gen == gen))
  if rest.length < 262144 then some { s with kst := { k with cache := rest ++ [e], clock := k.clock + 1 } }
  else match cacheVictim s with
    | some v => some { s with kst := { k with cache := (rest.filter (fun x => !(x.slot == v.slot && x.gen == v.gen))) ++ [e], clock := k.clock + 1 } }
    | none => none

/-- The cache after a commit that replaced or erased a slot's record: entries that no step holds leave at once. -/
def cacheInvalidate (s : State) (slot : Nat) : State :=
  { s with kst := { s.kst with cache := s.kst.cache.filter (fun e => !(e.slot == slot) || keyHeld s e.slot e.gen) } }

/-- The record that a bound position of a step holds, from the key cache. -/
def boundKey (s : State) (t : Step) (pos : Nat) : KeyRecord :=
  match t.bound.find? (fun b => b.pos == pos && !b.target) with
  | some b => (match cacheFind s b.slot b.gen with | some e => e.key | none => {})
  | none => {}

/-- Uses of a slot's generation that uncommitted steps have reserved (R103, R244). -/
def reservedUses (s : State) (slot gen : Nat) : Nat :=
  (s.conf.steps.map (fun t =>
    match t.2.phase with
    | .committed => 0
    | _ => (t.2.bound.filter (fun b => b.counted && b.slot == slot && b.gen == gen)).length)).foldl (· + ·) 0

/-- A progress mark holds the slot (R261). -/
def markOn (s : State) (slot : Nat) : Bool := s.kst.marks.any (fun m => m.2.writes.any (fun w => w.slot == slot))

/-- A mark whose transaction creates, rewrites, erases or cuts over the slot (R261). -/
def changeOn (s : State) (slot : Nat) : Bool := s.kst.marks.any (fun m => m.2.changes.contains slot)

/-- The lowest free progress mark. -/
def freeMark (s : State) : Option Nat := firstKey (fun n => (mget s.kst.marks n).isNone) 0 128

end Sys2Proof.Machine
end

