-- ==== Sys2Proof/Machine/Fields.lean ====
section
/-!
DEFINITION. The request descriptor and its inline fields (R89 to R100, R107 to R113, R551): accessors, the opcode
catalogue of Table 6 of the request chapter, and for each opcode the inline bytes it uses, the ranges of its fields
and the lengths it accepts.
-/
namespace Sys2Proof.Machine

/-! ### The descriptor (R89) and handles (R98) -/

def dOp (d : Bytes) : Nat := leAt d 0 2
def dNoSpec (d : Bytes) : Bool := byteAt d 2 % 2 == 1
def dSignal (d : Bytes) : Bool := byteAt d 2 / 2 % 2 == 1
def dHalt (d : Bytes) : Bool := byteAt d 2 / 4 % 2 == 1
def dIndex (d : Bytes) : Nat := byteAt d 4 % 8
def dLast (d : Bytes) : Nat := byteAt d 4 / 16 % 8
def dGuard (d : Bytes) : Nat := byteAt d 5 % 8
def dGuarded (d : Bytes) : Bool := byteAt d 5 / 8 % 2 == 1
def dPrio (d : Bytes) : Nat := byteAt d 6 % 8
def dSgCount (d : Bytes) : Nat := byteAt d 7
def dTag (d : Bytes) : Nat := leAt d 8 4
def dSeq (d : Bytes) : Nat := leAt d 12 4
def dDeadline (d : Bytes) : Nat := leAt d 16 8
def dHandle (d : Bytes) (i : Nat) : Nat := leAt d (24 + 8 * i) 8
def dRef (d : Bytes) : Nat := leAt d 56 8

/-- The empty handle (R98). -/
def noHandle : Nat := 0xFFFFFFFFFFFFFFFF
def hSlice (h : Nat) : Nat := h >>> 54 % 1024
def hSlot (h : Nat) : Nat := (h >>> 31) % 2 ^ 23
def hGen (h : Nat) : Nat := h % 2 ^ 31

/-! ### The catalogue (R111) -/

/-- How an opcode's charge grows with its input (R111, R112). -/
inductive ChargeKind where
  | fixed
  | per256
  | perKib
  | per64k
  | bnl (column : Nat)
deriving DecidableEq, Repr

/-- One row of Table 6. `plus` is the charge of each further unit. -/
structure OpRow where
  code  : Nat
  need  : Nat := 0
  opt   : Nat := 0
  wu    : Nat
  kind  : ChargeKind := .fixed
  plus  : Nat := 0
  guard : Bool := false
  chain : Bool := true

/-- Classes 0x00 to 0x03 of Table 6. -/
def catalogueCards : List OpRow :=
  [{ code := 0x0000, wu := 1 },
   { code := 0x0101, need := 2, wu := 28 }, { code := 0x0102, need := 3, wu := 30, guard := true },
   { code := 0x0103, need := 2, wu := 30, guard := true }, { code := 0x0104, need := 3, wu := 24 },
   { code := 0x0105, need := 3, wu := 26 }, { code := 0x0106, need := 2, wu := 12, guard := true },
   { code := 0x0107, need := 3, wu := 40 }, { code := 0x0108, need := 2, wu := 24 },
   { code := 0x0201, need := 2, wu := 30, guard := true }, { code := 0x0202, need := 2, wu := 18 },
   { code := 0x0203, need := 2, wu := 34, guard := true },
   { code := 0x0204, need := 2, wu := 20, kind := .per256, plus := 12 },
   { code := 0x0205, need := 2, wu := 22, kind := .per256, plus := 12 },
   { code := 0x0211, need := 1, wu := 20 }, { code := 0x0212, need := 1, wu := 22, guard := true },
   { code := 0x0213, need := 2, wu := 24 }, { code := 0x0214, need := 2, wu := 26, guard := true },
   { code := 0x0301, need := 2, wu := 46 },
   { code := 0x0302, need := 1, wu := 36, kind := .per256, plus := 12, guard := true },
   { code := 0x0303, need := 1, wu := 40, kind := .per256, plus := 12 },
   { code := 0x0304, need := 2, wu := 60 },
   { code := 0x0311, need := 1, wu := 14, kind := .per256, plus := 12 },
   { code := 0x0312, need := 1, wu := 14, kind := .per256, plus := 12, guard := true },
   { code := 0x0313, need := 1, wu := 16, kind := .perKib, plus := 2 },
   { code := 0x0314, need := 1, wu := 16, kind := .perKib, plus := 2, guard := true }]

/-- Classes 0x04 and 0x05 of Table 6. -/
def catalogueKeys : List OpRow :=
  [{ code := 0x0401, need := 2, wu := 26 }, { code := 0x0402, need := 2, wu := 26 },
   { code := 0x0411, need := 1, wu := 10, chain := false },
   { code := 0x0412, wu := 4, kind := .per64k, plus := 1, chain := false },
   { code := 0x0413, wu := 6, chain := false },
   { code := 0x0414, need := 1, wu := 8, kind := .per64k, plus := 1, chain := false },
   { code := 0x0501, need := 1, wu := 40 }, { code := 0x0502, need := 2, wu := 60 },
   { code := 0x0503, need := 2, wu := 60 }, { code := 0x0504, need := 1, opt := 1, wu := 40 },
   { code := 0x0505, need := 1, wu := 20 }, { code := 0x0506, need := 1, wu := 8 },
   { code := 0x0507, need := 1, wu := 20 }, { code := 0x0508, need := 1, wu := 12 },
   { code := 0x0509, wu := 4, chain := false }, { code := 0x050A, need := 1, wu := 24, guard := true }]

/-- Classes 0x06 to 0x09 of Table 6. -/
def catalogueRest : List OpRow :=
  [{ code := 0x0601, need := 1, wu := 10, kind := .bnl 0 },
   { code := 0x0602, need := 1, wu := 10, kind := .bnl 1, guard := true },
   { code := 0x0603, need := 1, wu := 10, kind := .bnl 0 }, { code := 0x0604, need := 1, wu := 10, kind := .bnl 1 },
   { code := 0x0605, need := 1, wu := 20, kind := .bnl 2 }, { code := 0x0606, need := 2, wu := 20, kind := .bnl 0 },
   { code := 0x0607, need := 1, opt := 1, wu := 20, kind := .bnl 1 },
   { code := 0x0608, need := 2, wu := 20, kind := .bnl 0 },
   { code := 0x0611, need := 3, wu := 700 }, { code := 0x0612, need := 3, wu := 400 },
   { code := 0x0613, need := 3, wu := 250 }, { code := 0x0614, need := 3, wu := 190 },
   { code := 0x0621, need := 1, wu := 500 }, { code := 0x0622, wu := 500, chain := false },
   { code := 0x0701, wu := 2, kind := .perKib, plus := 1 }, { code := 0x0702, wu := 2 },
   { code := 0x0703, wu := 3 }, { code := 0x0704, wu := 1 }, { code := 0x0710, wu := 1, chain := false },
   { code := 0x0801, wu := 10, chain := false }, { code := 0x0802, wu := 40, chain := false },
   { code := 0x0803, wu := 10, chain := false }, { code := 0x0804, wu := 20, chain := false },
   { code := 0x0805, wu := 4, chain := false }, { code := 0x0806, wu := 2, chain := false },
   { code := 0x0901, wu := 20, chain := false }, { code := 0x0902, wu := 2, chain := false }]

/-- Table 6 of the request chapter. -/
def catalogue : List OpRow := catalogueCards ++ catalogueKeys ++ catalogueRest

/-- The catalogue row of an opcode. -/
def opRow (op : Nat) : Option OpRow := catalogue.find? (fun r => r.code = op)

/-- Table 7: private, public and generate charges of an algorithm. -/
def bnlRow : Nat → Option (Nat × Nat × Nat)
  | 0x40 => some (233, 12, 4000)
  | 0x41 => some (700, 24, 9000)
  | 0x42 => some (1600, 40, 16000)
  | 0x50 => some (41, 80, 41)
  | 0x51 => some (94, 180, 94)
  | 0x52 => some (230, 440, 230)
  | 0x58 => some (30, 60, 30)
  | 0x60 => some (44, 36, 40)
  | 0x61 => some (64, 50, 60)
  | 0x62 => some (90, 70, 84)
  | 0x68 => some (160, 50, 60)
  | 0x69 => some (248, 80, 100)
  | 0x6A => some (380, 120, 150)
  | _ => none

/-- The BNL charge of an algorithm in a column of Table 7; `none` for an algorithm that the table lacks. -/
def bnlCharge (alg column : Nat) : Option Nat :=
  (bnlRow alg).map (fun t => if column = 0 then t.1 else if column = 1 then t.2.1 else t.2.2)

/-- Started 256-byte units of input beyond the first 64 bytes (R111). -/
def units256 (n : Nat) : Nat := ceilDiv (n - 64) 256

/-! ### Digit fields (R123, R551) -/

/-- The nibbles of a byte string, high nibble first. -/
def nibbles (bs : Bytes) : List Nat := (bs.map (fun b => [b.toNat / 16, b.toNat % 16])).flatten

/-- Nibbles packed into bytes, high nibble first. -/
def packNibbles : List Nat → Bytes
  | a :: b :: r => BitVec.ofNat 8 (a * 16 + b) :: packNibbles r
  | [a] => [BitVec.ofNat 8 (a * 16)]
  | [] => []

/-- The digit nibbles at the head of a field. -/
def digitRun (bs : Bytes) : List Nat := (nibbles bs).takeWhile (fun n => n ≤ 9)

/-- The shape of R551: digits, then only 0xF nibbles. -/
def runShape (bs : Bytes) : Bool := ((nibbles bs).drop (digitRun bs).length).all (fun n => n == 15)

/-- A field of exactly `n` digits, padded with 0xF nibbles. -/
def digitsExactly (n : Nat) (bs : Bytes) : Bool := runShape bs && (digitRun bs).length == n

/-- `v` lies from `lo` to `hi`. -/
def within (lo hi v : Nat) : Bool := decide (lo ≤ v) && decide (v ≤ hi)

/-- PIN block formats of a request field (R117). -/
def formatOk (f : Nat) : Bool := f == 0 || f == 1 || f == 3 || f == 4

/-- Formats 0, 3 and 4 are bound to a PAN (R118). -/
def panBound (f : Nat) : Bool := f == 0 || f == 3 || f == 4

/-- An inbound block field: formats 0, 1 and 3 leave its last 8 bytes zero (R123). -/
def blockFieldOk (f : Nat) (bs : Bytes) : Bool := f == 4 || allZero (bs.drop 8)

/-! ### Fields of the PIN opcodes (R123 to R125) -/

/-- The opcode uses in_format, and its block. -/
def pinUsesIn (op : Nat) : Bool := op != 0x0104
/-- The opcode uses out_format. -/
def pinUsesOut (op : Nat) : Bool := op == 0x0101 || op == 0x0104
/-- The opcode uses screen_rules. -/
def pinUsesScreen (op : Nat) : Bool := op == 0x0104 || op == 0x0105 || op == 0x0106 || op == 0x0107
/-- The opcode always needs a PAN. -/
def pinPanAlways (op : Nat) : Bool := op == 0x0103 || op == 0x0107 || op == 0x0108

/-- Inline bytes that a PIN opcode uses (Table 4). -/
def pinUsed (op : Nat) : List (Nat × Nat) :=
  [(66, 1), (68, 10)] ++ (if pinUsesIn op then [(64, 1), (80, 16)] else []) ++ (if pinUsesOut op then [(65, 1)] else []) ++
    (if pinUsesScreen op then [(113, 1)] else []) ++
    (match op with
     | 0x0102 => [(78, 1), (96, 6), (104, 8)]
     | 0x0103 => [(79, 1), (102, 2)]
     | 0x0104 => [(67, 1), (104, 8), (112, 1)]
     | 0x0105 => [(78, 1), (104, 8)]
     | 0x0107 => [(114, 2), (116, 1)]
     | 0x0108 => [(79, 1)]
     | _ => [])

/-- Fields of a PIN opcode other than length fields. -/
def pinFmt (op : Nat) (d : Bytes) : Bool :=
  (!pinUsesIn op || (formatOk (byteAt d 64) && blockFieldOk (byteAt d 64) (cut d 80 16))) &&
  (!pinUsesOut op || formatOk (byteAt d 65)) && (!pinUsesScreen op || decide (byteAt d 113 < 8)) &&
  runShape (cut d 68 10) &&
  (match op with
   | 0x0102 => runShape (cut d 96 6)
   | 0x0103 => decide (byteAt d 79 ≤ 9) && digitsExactly 4 (cut d 102 2)
   | 0x0104 => decide (byteAt d 112 ≤ 1)
   | 0x0107 => digitsExactly 2 (cut d 116 1)
   | 0x0108 => decide (byteAt d 79 ≤ 9)
   | _ => true)

/-- The request needs a PAN (R124). -/
def pinNeedsPan (op : Nat) (d : Bytes) : Bool :=
  pinPanAlways op || (pinUsesIn op && panBound (byteAt d 64)) || (pinUsesOut op && panBound (byteAt d 65)) ||
    (pinUsesScreen op && bitOf (BitVec.ofNat 64 (byteAt d 113)) 2)

/-- Length fields of a PIN opcode. -/
def pinLen (op : Nat) (d : Bytes) : Bool :=
  (if pinNeedsPan op d then within 12 19 (byteAt d 66) else byteAt d 66 == 0) &&
  (digitRun (cut d 68 10)).length == byteAt d 66 &&
  (match op with
   | 0x0102 => within 4 12 (byteAt d 78) && (digitRun (cut d 96 6)).length == byteAt d 78
   | 0x0104 => within 4 12 (byteAt d 67)
   | 0x0105 => within 4 12 (byteAt d 78)
   | _ => true)

/-! ### Fields of the EMV and card-code opcodes (R152, R153) -/

def emvUsed : Nat → List (Nat × Nat)
  | 0x0201 => [(64, 1), (65, 1), (66, 10), (76, 2), (80, 8)]
  | 0x0202 => [(64, 1), (65, 1), (66, 10), (76, 2), (80, 8), (88, 2), (90, 4), (78, 1), (96, 8)]
  | 0x0203 => [(64, 1), (65, 1), (66, 10), (76, 2), (80, 8), (88, 2), (90, 4), (78, 1), (96, 8)]
  | 0x0204 => [(64, 1), (65, 1), (66, 10), (76, 2), (80, 8), (110, 4), (114, 1)]
  | 0x0205 => [(64, 1), (65, 1), (66, 10), (76, 2), (80, 8)]
  | 0x0211 => [(64, 1), (66, 10), (104, 2), (106, 2)]
  | 0x0212 => [(64, 1), (66, 10), (104, 2), (106, 2), (108, 2)]
  | 0x0213 => [(64, 1), (65, 1), (66, 10), (76, 2), (104, 2), (106, 2)]
  | 0x0214 => [(64, 1), (65, 1), (66, 10), (76, 2), (104, 2), (106, 2), (108, 2)]
  | _ => []

/-- YYMM in packed BCD with a month from 01 to 12. -/
def expiryOk (bs : Bytes) : Bool :=
  digitsExactly 4 bs && (match nibbles bs with
    | [_, _, a, b] => within 1 12 (a * 10 + b)
    | _ => false)

def emvFmt (op : Nat) (d : Bytes) : Bool :=
  runShape (cut d 66 10) &&
  (if op = 0x0211 ∨ op = 0x0212 then true else digitsExactly 2 (cut d 65 1)) &&
  (if op = 0x0202 ∨ op = 0x0203 then allZero ((cut d 96 8).drop (byteAt d 78)) else true) &&
  (if 0x0211 ≤ op then expiryOk (cut d 104 2) && digitsExactly 3 (cut d 106 2) else true) &&
  (if op = 0x0212 ∨ op = 0x0214 then digitsExactly 3 (cut d 108 2) else true)

def emvLen (op : Nat) (d : Bytes) : Bool :=
  within 12 19 (byteAt d 64) && (digitRun (cut d 66 10)).length == byteAt d 64 &&
  (if op = 0x0202 ∨ op = 0x0203 then decide (byteAt d 78 ≤ 8) else true)

/-! ### Fields of the DUKPT and MAC opcodes (R186, R198) -/

def popCount (n v : Nat) : Nat := ((List.range n).filter (fun i => v.testBit i)).length

/-- The transaction counter of a KSN (R178). -/
def ksnCounter (variant : Nat) (ksn : Bytes) : Nat :=
  if variant = 1 then beAt ksn 8 4 else beAt ksn 0 10 % 2 ^ 21

/-- R179: not zero, and at most 16 (AES) or 10 (TDES) bits set. -/
def ksnOk (variant : Nat) (ksn : Bytes) : Bool :=
  let c := ksnCounter variant ksn
  c != 0 && (if variant = 1 then decide (popCount 32 c ≤ 16) else decide (popCount 21 c ≤ 10) && allZero (ksn.drop 10))

def dukptUsed : Nat → List (Nat × Nat)
  | 0x0301 => [(64, 1), (65, 1), (66, 1), (67, 1), (68, 1), (72, 10), (82, 12), (96, 16)]
  | 0x0302 => [(64, 1), (65, 1), (69, 1), (70, 1), (71, 1), (82, 12), (96, 16)]
  | 0x0303 => [(64, 1), (65, 1), (82, 12), (96, 16)]
  | 0x0304 => [(64, 1)]
  | _ => [(64, 1), (65, 1), (66, 1), (80, 48)]

/-- The range of mac_len of a MAC algorithm at parsing (Table 8, R198). -/
def macLenRange (alg : Nat) : Nat × Nat :=
  match alg with
  | 0x05 => (4, 16)
  | 0x07 => (16, 32)
  | 0x08 => (24, 48)
  | _ => (4, 8)

/-- mac_len of DUKPT_MAC_VERIFY: to 16 for CMAC with an AES working key (R186). -/
def dukptMacRange (d : Bytes) : Nat × Nat :=
  if byteAt d 69 = 5 ∧ 2 ≤ byteAt d 65 then (4, 16) else (4, 8)

/-- A MAC field: the bytes after mac_len are zero, checked only when mac_len is in its range (R198). -/
def macFieldOk (range : Nat × Nat) (len : Nat) (bs : Bytes) : Bool :=
  !within range.1 range.2 len || allZero (bs.drop len)

def dukptFmt (op : Nat) (d : Bytes) : Bool :=
  within 1 2 (byteAt d 64) &&
  (op == 0x0304 ||
    (decide (byteAt d 65 ≤ 4) && (byteAt d 64 == 1 || byteAt d 65 == 0) && ksnOk (byteAt d 64) (cut d 82 12) &&
     (match op with
      | 0x0301 => formatOk (byteAt d 66) && formatOk (byteAt d 67) && runShape (cut d 72 10) &&
          blockFieldOk (byteAt d 66) (cut d 96 16)
      | 0x0302 => [1, 3, 5].contains (byteAt d 69) &&
          (if byteAt d 69 = 5 then byteAt d 71 == 0 else within 1 2 (byteAt d 71)) &&
          macFieldOk (dukptMacRange d) (byteAt d 70) (cut d 96 16)
      | _ => decide (2 ≤ byteAt d 65) || allZero (cut d 104 8))))

def dukptLen (op : Nat) (d : Bytes) : Bool :=
  match op with
  | 0x0301 =>
    (if panBound (byteAt d 66) || panBound (byteAt d 67) then within 12 19 (byteAt d 68) else byteAt d 68 == 0) &&
      (digitRun (cut d 72 10)).length == byteAt d 68
  | 0x0302 => within (dukptMacRange d).1 (dukptMacRange d).2 (byteAt d 70)
  | _ => true

def macFmt (op : Nat) (d : Bytes) : Bool :=
  let alg := byteAt d 64
  (if op = 0x0311 ∨ op = 0x0312 then [1, 3, 5].contains alg else within 7 8 alg) &&
  (if alg = 1 ∨ alg = 3 then within 1 2 (byteAt d 66) else byteAt d 66 == 0) &&
  (if op = 0x0312 ∨ op = 0x0314 then macFieldOk (macLenRange alg) (byteAt d 65) (cut d 80 48) else allZero (cut d 80 48))

def macLen (d : Bytes) : Bool := within (macLenRange (byteAt d 64)).1 (macLenRange (byteAt d 64)).2 (byteAt d 65)

/-! ### Templates (R237, R238, R252) -/

/-- The inline bytes of a template: bytes 65, 71 and 76 to 79 are reserved. -/
def tplUsed : List (Nat × Nat) := [(64, 1), (66, 5), (72, 4), (80, 32)]
/-- The part of a template that an import takes: flags, uses and window. -/
def tplPartUsed : List (Nat × Nat) := [(70, 1), (72, 4), (80, 16)]

/-- The flags, uses and window of a template (R238). -/
def tplPartOk (t : Bytes) : Bool :=
  let f := byteAt t 6
  decide (f < 8) && !(f % 2 == 1 && f / 2 % 2 == 1) && (f % 2 == 0 || leAt t 8 4 != 0) &&
    (f / 4 == 0 || decide (leAt t 16 8 < leAt t 24 8))

/-- The algorithm parameters of a template (R237). -/
def paramsOk (usage : Nat) (p : Bytes) : Bool :=
  if usage = usage2 "B0" then
    allZero (cut p 2 2) &&
    (if byteAt p 0 = 1 then byteAt p 1 == 0 && allZero (cut p 8 8)
     else byteAt p 0 == 2 && (byteAt p 1 == 0 || within 8 27 (byteAt p 1)) && allZero (cut p 4 4) &&
       decide (leAt p 8 8 < 2 ^ (59 - byteAt p 1)))
  else if usage = usage2 "M7" then within 1 2 (byteAt p 0) && allZero (p.drop 1)
  else allZero p

/-- The 48 bytes of a template against R237, R238 and the codes of Tables 4 to 6. -/
def tplOk (t : Bytes) : Bool :=
  algKnown (byteAt t 0) && usageKnown (beAt t 2 2) && modeKnown (byteAt t 4) &&
    [chr 'E', chr 'S', chr 'N'].contains (byteAt t 5) && tplPartOk t && paramsOk (beAt t 2 2) (cut t 32 16) &&
    allZero (cut t 1 1) && allZero (cut t 7 1) && allZero (cut t 12 4)

/-! ### Fields of the remaining opcodes -/

/-- Inline bytes that an opcode uses; all others are reserved (R90). -/
def usedBytes (op : Nat) : List (Nat × Nat) :=
  if 0x0101 ≤ op ∧ op ≤ 0x0108 then pinUsed op
  else if 0x0201 ≤ op ∧ op ≤ 0x0214 then emvUsed op
  else if 0x0301 ≤ op ∧ op ≤ 0x0314 then dukptUsed op
  else match op with
    | 0x0401 | 0x0402 => [(64, 1), (80, 16)]
    | 0x0411 => [(64, 1), (72, 16)]
    | 0x0412 => [(64, 4), (72, 8)]
    | 0x0413 => [(64, 4)]
    | 0x0414 => [(64, 1), (72, 8), (80, 16)]
    | 0x0501 => tplUsed
    | 0x0502 => tplPartUsed
    | 0x0504 => tplUsed ++ [(112, 1), (120, 8)]
    | 0x0505 => [(64, 1)]
    | 0x0507 => [(64, 1), (72, 8)]
    | 0x0509 => [(64, 4)]
    | 0x0601 | 0x0602 => [(64, 6), (96, 32)]
    | 0x0603 | 0x0604 => [(64, 1)]
    | 0x0605 => tplUsed ++ [(112, 2)]
    | 0x0606 | 0x0607 | 0x0608 => tplUsed ++ [(112, 16)]
    | 0x0611 => tplPartUsed ++ [(96, 16), (112, 1), (114, 2)]
    | 0x0612 => [(96, 16), (112, 1), (114, 2)]
    | 0x0614 => tplPartUsed ++ [(112, 2)]
    | 0x0621 | 0x0622 => [(64, 32)]
    | 0x0701 => [(64, 3)]
    | 0x0702 => [(64, 2)]
    | 0x0703 => [(64, 3), (80, 48)]
    | 0x0704 => [(64, 2)]
    | 0x0710 => [(64, 1), (72, 8)]
    | 0x0801 => [(64, 3), (68, 4)]
    | 0x0802 | 0x0804 => [(64, 5)]
    | 0x0803 | 0x0805 | 0x0806 => [(64, 4)]
    | 0x0901 => [(64, 8)]
    | _ => []

/-- No inline byte outside the used ranges is set (R90). -/
def inlineClean (op : Nat) (d : Bytes) : Bool :=
  (List.range 64).all (fun i =>
    (usedBytes op).any (fun r => decide (r.1 ≤ 64 + i) && decide (64 + i < r.1 + r.2)) || byteAt d (64 + i) == 0)

/-- The auth fields of the TR-34 opcodes (R285). -/
def trFmt (d : Bytes) : Bool :=
  (byteAt d 112 == 1 && leAt d 114 2 == 0) || (byteAt d 112 == 2 && within 1 600 (leAt d 114 2) && allZero (cut d 96 16))

/-- The action codes of Table 2 of the ceremony chapter. -/
def actionKnown (a : Nat) : Bool :=
  [0x01, 0x02, 0x03, 0x04, 0x10, 0x11, 0x12, 0x13, 0x20, 0x21, 0x30, 0x31, 0x32, 0x40].contains a

/-- Inline fields other than length fields lie in their ranges (the ST_FORMAT stage of R114 and R551). -/
def inlineFmt (op : Nat) (d : Bytes) : Bool :=
  if 0x0101 ≤ op ∧ op ≤ 0x0108 then pinFmt op d
  else if 0x0201 ≤ op ∧ op ≤ 0x0214 then emvFmt op d
  else if 0x0301 ≤ op ∧ op ≤ 0x0304 then dukptFmt op d
  else if 0x0311 ≤ op ∧ op ≤ 0x0314 then macFmt op d
  else match op with
    | 0x0401 | 0x0402 => runShape (cut d 80 16)
    | 0x0411 => within 1 3 (byteAt d 64) && (byteAt d 64 != 1 || allZero (cut d 72 16)) &&
        (byteAt d 64 != 2 || allZero (cut d 80 8))
    | 0x0414 => within 3 4 (byteAt d 64)
    | 0x0501 => tplOk (cut d 64 48)
    | 0x0502 | 0x0611 | 0x0614 => tplPartOk (cut d 64 48) && (op != 0x0611 || trFmt d)
    | 0x0504 => tplOk (cut d 64 48) && within 1 3 (byteAt d 112) &&
        (if byteAt d 112 = 2 then dHandle d 1 != noHandle else dHandle d 1 == noHandle && dRef d == 0)
    | 0x0505 => within 1 2 (byteAt d 64)
    | 0x0507 => within 1 3 (byteAt d 64) && (byteAt d 64 == 1) == (leAt d 72 8 != 0)
    | 0x0601 | 0x0602 =>
      let sch := byteAt d 64
      within 1 5 sch && (if sch ≤ 3 then (hashOf (byteAt d 65)).isSome else byteAt d 65 == 0) && within 1 2 (byteAt d 66) &&
        (decide (sch ≤ 3) || byteAt d 66 == 2) && (sch == 5 || byteAt d 67 == 0) && allZero ((cut d 96 32).drop (byteAt d 67))
    | 0x0603 | 0x0604 => byteAt d 64 == 1
    | 0x0605 => tplOk (cut d 64 48) && decide (byteAt d 112 ≤ 1)
    | 0x0606 | 0x0607 | 0x0608 => tplOk (cut d 64 48) && allZero ((cut d 113 15).drop (byteAt d 112))
    | 0x0612 => trFmt d
    | 0x0701 => (hashOf (byteAt d 64)).isSome && decide (byteAt d 65 < 8) &&
        (if byteAt d 65 / 4 = 1 then byteAt d 65 / 2 % 2 == 1 && within 8 27 (byteAt d 66) else byteAt d 66 == 0)
    | 0x0703 => within 8 31 (byteAt d 64) && decide (byteAt d 65 ≤ 1) && macFieldOk (1, 48) (byteAt d 66) (cut d 80 48)
    | 0x0704 => decide (byteAt d 64 ≤ 31) && decide (byteAt d 65 ≤ 1) && (byteAt d 65 == 0 || within 8 27 (byteAt d 64))
    | 0x0710 => within 1 2 (byteAt d 64) && leAt d 72 8 % 4096 == 0 && (byteAt d 64 == 1 || leAt d 72 8 == 0)
    | 0x0801 => within 60 3600 (leAt d 68 4) && actionKnown (byteAt d 66)
    | 0x0802 | 0x0804 => within 1 3 (byteAt d 68) && (byteAt d 68 == 3 || dRef d == 0)
    | _ => true

/-- How an opcode takes external data (R92, R552). -/
inductive DataForm | none | list | outOnly | inOnly | bulk
deriving DecidableEq, Repr

/-- The data reference that an opcode's chapter gives it. -/
def dataForm (op : Nat) : DataForm :=
  match op with
  | 0x0201 | 0x0203 | 0x0204 => .inOnly
  | 0x0205 | 0x0302 | 0x0303 | 0x0311 | 0x0312 | 0x0313 | 0x0314 | 0x0502 | 0x0504 | 0x050A | 0x0601 | 0x0602 | 0x0603
  | 0x0604 | 0x0606 | 0x0607 | 0x0608 | 0x0611 | 0x0612 | 0x0614 | 0x0701 | 0x0801 | 0x0802 | 0x0804 => .list
  | 0x0304 | 0x0503 | 0x0605 | 0x0613 | 0x0621 | 0x0622 | 0x0702 | 0x0704 => .outOnly
  | 0x0412 | 0x0414 => .bulk
  | _ => .none

/-- Length fields of an opcode, its input of `n` bytes and, for bulk, whether a scatter list is used (the
ST_LENGTH stage of R114, R93, R551). -/
def lengthsOk (op : Nat) (d : Bytes) (n : Nat) : Bool :=
  let plain := decide (n ≤ 4096)
  if 0x0101 ≤ op ∧ op ≤ 0x0108 then pinLen op d
  else if 0x0201 ≤ op ∧ op ≤ 0x0214 then
    emvLen op d && (match op with
      | 0x0201 | 0x0203 => within 1 512 n
      | 0x0204 => dRef d == 0 || within 1 128 n
      | 0x0205 => within 1 128 n
      | _ => true)
  else if 0x0301 ≤ op ∧ op ≤ 0x0304 then
    dukptLen op d && (match op with
      | 0x0302 => within 1 4096 n
      | 0x0303 => within 8 4096 n && n % (if 2 ≤ byteAt d 65 then 16 else 8) == 0
      | _ => n == 0)
  else if 0x0311 ≤ op ∧ op ≤ 0x0314 then macLen d && within 1 4096 n
  else match op with
    | 0x0401 | 0x0402 => within 6 32 (byteAt d 64) && (digitRun (cut d 80 16)).length == byteAt d 64
    | 0x0412 | 0x0414 => within 1 67108864 (leAt d 72 8) && (dRef d % 16 == 1 || n == leAt d 72 8) &&
        (op == 0x0412 || byteAt d 64 == 4 || leAt d 72 8 % 16 == 0)
    | 0x0502 | 0x050A => within 1 1024 n
    | 0x0504 => byteAt d 112 != 2 || within 1 1024 n
    | 0x0601 | 0x0602 =>
      let sig := leAt d 68 2
      let body := if byteAt d 66 = 1 then (match hashOf (byteAt d 65) with
        | some h => n == hashLen h + sig
        | none => false) else within (1 + sig) (4096 + sig) n
      decide (byteAt d 67 ≤ 32) && (if op = 0x0601 then sig == 0 else within 1 4627 sig) && body
    | 0x0606 | 0x0607 | 0x0608 => decide (byteAt d 112 ≤ 15) && plain
    | 0x0611 => within 1 16384 n
    | 0x0612 => within 1 4096 n
    | 0x0701 =>
      (match hashOf (byteAt d 64) with
       | some h =>
         let st := if byteAt d 65 % 2 = 1 then hashStateLen h else 0
         decide (st + hashBlock h ≤ n) && (n - st) % hashBlock h == 0 && plain
       | none => false)
    | 0x0702 => within 1 4096 (leAt d 64 2) && n == 0
    | 0x0703 => within 1 48 (byteAt d 66)
    | 0x0802 | 0x0804 => if byteAt d 68 = 3 then within 5550 5687 n else n == 0
    | _ => if dataForm op = .outOnly then n == 0 else plain

/-- Positions that name the target of a creation (R231). -/
def isTarget (op p : Nat) : Bool :=
  p == 0 && [0x0501, 0x0502, 0x0605, 0x0606, 0x0607, 0x0608, 0x0611, 0x0614].contains op

end Sys2Proof.Machine
end

