-- ==== Sys2Proof/Machine/Draw.lean ====
section
/-!
DEFINITION. The random bits a step draws (R388 to R390), what a step's function reads, and the shape of its result.
-/
namespace Sys2Proof.Machine

/-- What the draws of one step read and change: the DRBG instance, the seed buffer, the parts of the
personalisation string, and the outputs drawn so far. `dry` says that a call needed a seed and found none.
In a replayed step `replayed` holds the captured outputs, and draws take them in order (R521). -/
structure Rnd where
  inst   : Option Drbg := none
  seeds  : List Bytes := []
  nt     : Nat := 0
  person : Bytes := []
  count  : Nat := 0
  drawn  : List Bytes := []
  dry    : Bool := false
  replayed : Option (List Bytes) := none
deriving DecidableEq, Repr

/-- The next generate call needs a seed (R388, R389). -/
def rndNeedsSeed (r : Rnd) : Bool :=
  match r.inst with
  | none => true
  | some i => decide (65536 ≤ i.calls) || decide (i.seedNt + 1000000000 ≤ r.nt)

/-- The instance made ready for a generate call: instantiated or reseeded where needed. -/
def rndReady (r : Rnd) : Rnd :=
  if r.replayed.isSome || r.dry || !rndNeedsSeed r then r
  else match r.seeds with
    | [] => { r with dry := true }
    | sd :: rest =>
      match r.inst with
      | none =>
        let p := padTo 48 (r.person ++ leBytes 8 r.count)
        let (k, v) := drbgUpdate (zeros 32) (zeros 16) (xorB sd p)
        { r with inst := some ⟨k, v, 0, r.nt⟩, seeds := rest, count := r.count + 1 }
      | some i =>
        let (k, v) := drbgUpdate i.key i.v sd
        { r with inst := some ⟨k, v, 0, r.nt⟩, seeds := rest }

/-- One generate call of at most 4,096 bytes. -/
def rndGen (r : Rnd) (n : Nat) : Bytes × Rnd :=
  match r.replayed with
  | some (x :: rest) => (padTo n x, { r with replayed := some rest, drawn := r.drawn ++ [x] })
  | some [] => (zeros n, r)
  | none =>
    let r := rndReady r
    if r.dry then (zeros n, r)
    else match r.inst with
      | some i =>
        let (out, k, v) := drbgGenerate i.key i.v n
        (out, { r with inst := some { i with key := k, v := v, calls := i.calls + 1 }, drawn := r.drawn ++ [out] })
      | none => (zeros n, r)

/-- Bytes drawn one call at a time until one lies below `lim`. -/
def rndBelow (fuel : Nat) (r : Rnd) (lim : Nat) : Nat × Rnd :=
  match fuel with
  | 0 => (0, r)
  | f + 1 =>
    let (b, r) := rndGen r 1
    let v := byteAt b 0
    if r.dry then (0, r) else if v < lim then (v, r) else rndBelow f r lim

/-- `n` values of single bytes below `lim`. -/
def rndList (n : Nat) (r : Rnd) (lim : Nat) : List Nat × Rnd :=
  match n with
  | 0 => ([], r)
  | m + 1 =>
    let (v, r) := rndBelow 1000 r lim
    let (l, r) := rndList m r lim
    (v :: l, r)

/-- What the function of a step reads. -/
structure FnIn where
  op    : Nat
  desc  : Bytes
  input : Bytes := []
  keys  : List KeyRecord := []
  slice : Nat := 0
  nt    : Nat := 0
  trusted : Bool := true
  pinGrants : Nat := 0
  pinScreenMin : Nat := 0
  exportGrant : Bool := false
deriving DecidableEq, Repr

/-- The record at a handle position. -/
def keyAt (i : FnIn) (p : Nat) : KeyRecord := i.keys.getD p {}

/-- The cipher of the record at a position. -/
def cipherAt (i : FnIn) (p : Nat) : Cipher := cipherOf (keyAt i p).algorithm (keyAt i p).material

/-- A result without output. -/
def fails (st : Status) : Result := { status := st }

/-- ST_OK with an inline output. -/
def returns (out : Bytes) : Result := { status := stOk, out := out }

/-- ST_OK with an output of up to 32 bytes inline, and a longer one in output segments (R95). -/
def returnsAny (out : Bytes) : Result :=
  if out.length ≤ 32 then { status := stOk, out := out } else { status := stOk, ext := out }

/-- ST_OK or ST_VERIFY_FAIL. -/
def verdict (ok : Bool) : Result := if ok then returns [] else fails stVerifyFail

end Sys2Proof.Machine
end

