-- ==== Sys2Proof/Machine/CardKeys.lean ====
section
/-!
DEFINITION. Derivations for chip cards: SHA-1 for option B, the value Y, ICC master keys and session keys
(R157 to R159), and the MACs under a derived key (R161, R164, R167).
-/
namespace Sys2Proof.Machine

/-! ### SHA-1 (R157, option B only) -/

def rotl32 (x n : Nat) : Nat := (x <<< n ||| x >>> (32 - n)) % 2 ^ 32

/-- The message schedule, newest word first. -/
def sha1Sched (acc : List Nat) (fuel : Nat) : List Nat :=
  match fuel with
  | 0 => acc
  | f + 1 =>
    sha1Sched (rotl32 (Nat.xor (Nat.xor (acc.getD 2 0) (acc.getD 7 0)) (Nat.xor (acc.getD 13 0) (acc.getD 15 0))) 1 :: acc) f

def sha1Round (t : Nat) (st : List Nat) (w : Nat) : List Nat :=
  match st with
  | [a, b, c, d, e] =>
    let (f, k) :=
      if t < 20 then (b &&& c ||| (0xFFFFFFFF - b) &&& d, 0x5A827999)
      else if t < 40 then (Nat.xor b (Nat.xor c d), 0x6ED9EBA1)
      else if t < 60 then (b &&& c ||| b &&& d ||| c &&& d, 0x8F1BBCDC)
      else (Nat.xor b (Nat.xor c d), 0xCA62C1D6)
    [(rotl32 a 5 + f + e + k + w) % 2 ^ 32, a, rotl32 b 30, c, d]
  | _ => st

def sha1Rounds (t : Nat) (st ws : List Nat) : List Nat :=
  match ws with
  | [] => st
  | w :: r => sha1Rounds (t + 1) (sha1Round t st w) r

/-- SHA-1 of a message of at most 55 bytes, which is one block. -/
def sha1Short (msg : Bytes) : Bytes :=
  let block := msg ++ [0x80] ++ zeros (55 - msg.length) ++ beBytes 8 (8 * msg.length)
  let ws := (sha1Sched ((chunks 4 block).map ofBe).reverse 64).reverse
  let h := [0x67452301, 0xEFCDAB89, 0x98BADCFE, 0x10325476, 0xC3D2E1F0]
  let out := sha1Rounds 0 h ws
  ((List.zipWith (fun a b => (a + b) % 2 ^ 32) h out).map (beBytes 4)).flatten

/-! ### Digits taken from nibbles (R140, R157, R169) -/

/-- The first `n` digits of a nibble string: 0 to 9 as they stand, then 0xA to 0xF less 10. -/
def takeDigits (n : Nat) (ns : List Nat) : List Nat :=
  (ns.filter (fun x => x ≤ 9) ++ (ns.filter (fun x => 10 ≤ x)).map (fun x => x - 10)).take n

/-- The last `n` entries of a list, filled on the left with zeros. -/
def lastDigits (n : Nat) (ds : List Nat) : List Nat :=
  let t := ds.drop (ds.length - n)
  List.replicate (n - t.length) 0 ++ t

/-- R157: the 8-byte value Y of a PAN and its sequence number. -/
def formY (pan psn : List Nat) : Bytes :=
  let ds := pan ++ psn
  if pan.length ≤ 16 then packNibbles (lastDigits 16 ds)
  else
    let ds := if ds.length % 2 = 1 then 0 :: ds else ds
    packNibbles (takeDigits 16 (nibbles (sha1Short (packNibbles ds))))

/-- The bytes with every bit inverted. -/
def invB (bs : Bytes) : Bytes := bs.map (fun b => ~~~b)

/-- R158: the ICC master key from an issuer master key. -/
def deriveMk (alg : Nat) (imk y : Bytes) : Bytes :=
  if isTdes alg then oddParity (tdesEnc imk y ++ tdesEnc imk (invB y))
  else (aesEnc imk (y ++ invB y) ++ aesEnc imk (invB y ++ y)).take imk.length

/-- R159: a session key from a master key and an 8-byte diversifier. -/
def deriveSk (alg : Nat) (mk v : Bytes) : Bytes :=
  let vl := v.take 2 ++ [0xF0] ++ v.drop 3
  let vr := v.take 2 ++ [0x0F] ++ v.drop 3
  if isTdes alg then tdesEnc mk vl ++ tdesEnc mk vr
  else (aesEnc mk (vl ++ zeros 8) ++ aesEnc mk (vr ++ zeros 8)).take mk.length

/-- The MAC of issuer scripts and of response method 2: algorithm 3 with padding method 2 under a TDES key, CMAC
under an AES key. -/
def skMac (alg : Nat) (sk msg : Bytes) : Bytes :=
  if isTdes alg then retailMac sk (pad2 8 msg) else cmac (.aes sk) msg

end Sys2Proof.Machine
end

