-- ==== Sys2Proof/Machine/PinFns.lean ====
section
/-!
DEFINITION. The PIN functions (R117 to R148): block formats, the translation matrix, the offset and PVV methods,
screening, and the eight PIN opcodes as functions of the bound records and the request.
-/
namespace Sys2Proof.Machine

/-! ### Blocks (R118 to R122) -/

/-- The PIN field of a format: format nibble, length, digits, and the fill that follows. -/
def pinField (fmt : Nat) (pin fill : List Nat) : Bytes := packNibbles (fmt :: pin.length :: (pin ++ fill))

/-- The PAN field of a format (R119). -/
def panField (fmt : Nat) (pan : List Nat) : Bytes :=
  if fmt = 4 then
    packNibbles ((pan.length - 12) :: pan ++ List.replicate (31 - pan.length) 0)
  else packNibbles ([0, 0, 0, 0] ++ lastDigits 12 pan.dropLast)

/-- The length of a format's block. -/
def pinBlockLen (fmt : Nat) : Nat := if fmt = 4 then 16 else 8

/-- R120: an outbound block from its PIN field. -/
def sealPin (fmt : Nat) (c : Cipher) (field : Bytes) (pan : List Nat) : Bytes :=
  if fmt = 4 then enc c (xorB (enc c field) (panField 4 pan))
  else if fmt = 1 then enc c field
  else enc c (xorB field (panField fmt pan))

/-- R120: the clear PIN field of an inbound block. -/
def openPin (fmt : Nat) (c : Cipher) (block : Bytes) (pan : List Nat) : Bytes :=
  if fmt = 4 then dec c (xorB (dec c block) (panField 4 pan))
  else if fmt = 1 then dec c (block.take 8)
  else xorB (dec c (block.take 8)) (panField fmt pan)

/-- R121: the PIN digits of a clear PIN field, or `none` where its structure is wrong. -/
def pinOfField (fmt : Nat) (field : Bytes) : Option (List Nat) :=
  let ns := nibbles field
  let n := ns.getD 1 0
  let pin := (ns.drop 2).take n
  let fill := (ns.drop (2 + n)).take (14 - n)
  let fillOk :=
    if fmt = 0 then fill.all (· == 15)
    else if fmt = 3 then fill.all (fun x => decide (10 ≤ x))
    else if fmt = 4 then fill.all (· == 10)
    else true
  if ns.headD 16 = fmt && within 4 12 n && pin.all (fun x => decide (x ≤ 9)) && fillOk then some pin else none

/-- R122: the fill of an outbound block, drawn where the format needs it. -/
def drawFill (fmt n : Nat) (r : Rnd) : List Nat × Rnd :=
  if fmt = 0 then (List.replicate (14 - n) 15, r)
  else if fmt = 1 then
    let (b, r) := rndGen r (ceilDiv (14 - n) 2)
    ((nibbles b).take (14 - n), r)
  else if fmt = 3 then
    let (l, r) := rndList (14 - n) r 252
    (l.map (fun x => 10 + x % 6), r)
  else
    let (b, r) := rndGen r 8
    (List.replicate (14 - n) 10 ++ nibbles b, r)

/-- The format draws random bits. -/
def fmtDraws (fmt : Nat) : Bool := fmt != 0

/-- An outbound block with fresh fill. -/
def sealFresh (fmt : Nat) (c : Cipher) (pin pan : List Nat) (r : Rnd) : Bytes × Rnd :=
  let (fill, r) := drawFill fmt pin.length r
  (sealPin fmt c (pinField fmt pin fill) pan, r)

/-! ### The translation matrix (R131 to R133) -/

def grantBit (g b : Nat) : Bool := g / 2 ^ b % 2 == 1

/-- R131 to R133: the translation is permitted under the grants. -/
def translationOk (fin fout algIn algOut grants : Nat) : Bool :=
  (!(fin == 4 && fout != 4) || grantBit grants 0) && (!(fin == 3 && fout == 0) || grantBit grants 1) &&
  (!(fin != 1 && fout == 1) || grantBit grants 2) &&
  (!(decide (strength algOut < strength algIn) && !(fin == 4 && algOut == 0x11)) || grantBit grants 3)

/-- R127: the algorithm of a PIN key fits the format. -/
def pinKeyFits (fmt alg : Nat) : Bool := if fmt = 4 then isAes alg else isTdes alg

/-! ### Screening (R141) -/

/-- Every digit is the previous one plus `k`, modulo 10. -/
def stepsBy (k : Nat) : List Nat → Bool
  | a :: b :: r => (a + k) % 10 == b && stepsBy k (b :: r)
  | _ => true

/-- R141: the PIN is rejected by a rule of the mask. -/
def screened (mask : Nat) (pin pan : List Nat) : Bool :=
  (mask % 2 == 1 && stepsBy 0 pin) ||
  (mask / 2 % 2 == 1 && (stepsBy 1 pin || stepsBy 9 pin)) ||
  (mask / 4 % 2 == 1 && decide (pin.length ≤ pan.length - 1) && pan.dropLast.drop (pan.length - 1 - pin.length) == pin)

/-- R129, R141: the PIN matches an entry of a weak-PIN list. -/
def onList (mat : Bytes) (pin : List Nat) : Bool :=
  (List.range (byteAt mat 0)).any (fun e => digitRun (cut mat (1 + 3 * e) 3) == pin)

/-! ### Natural digits and PVV (R136, R140) -/

/-- R136: the decimalised digits of the enciphered validation data. -/
def natDigits (c : Cipher) (table valData : Bytes) : List Nat := (nibbles (enc c valData)).map (fun x => byteAt table x)

/-- Digits in packed BCD, padded with 0xF nibbles to `n` bytes. -/
def bcdField (n : Nat) (ds : List Nat) : Bytes := packNibbles (ds ++ List.replicate (2 * n - ds.length) 15)

/-- Digit-wise difference modulo 10. -/
def subDigits (a b : List Nat) : List Nat := List.zipWith (fun x y => (x + 10 - y) % 10) a b
def addDigits (a b : List Nat) : List Nat := List.zipWith (fun x y => (x + y) % 10) a b

/-- R140: the PVV of a PIN. -/
def pvvOf (c : Cipher) (pan : List Nat) (pvki : Nat) (pin : List Nat) : List Nat :=
  takeDigits 4 (nibbles (enc c (packNibbles (lastDigits 11 pan.dropLast ++ [pvki] ++ pin.take 4))))

/-! ### The opcodes -/

/-- The PAN digits of a PIN opcode. -/
def pinPan (d : Bytes) : List Nat := digitRun (cut d 68 10)

/-- R121: the PIN of the inbound block under the key at position 0. -/
def inboundPin (i : FnIn) : Option (List Nat) :=
  pinOfField (byteAt i.desc 64) (openPin (byteAt i.desc 64) (cipherAt i 0) (cut i.desc 80 16) (pinPan i.desc))

/-- The effective mask of R141. -/
def screenMask (i : FnIn) : Nat := byteAt i.desc 113 ||| i.pinScreenMin

/-- R135 from the decipherment on: an inbound block under one key to an outbound block under another. -/
def translatePin (fin fout : Nat) (kin kout : Cipher) (block : Bytes) (pan : List Nat) (r : Rnd) : Result × Rnd :=
  let r := if fmtDraws fout then rndReady r else r
  match pinOfField fin (openPin fin kin block pan) with
  | none => (fails stVerifyFail, r)
  | some pin =>
    let (c, r) := sealFresh fout kout pin pan r
    (returns c, r)

/-- PIN_TRANSLATE (R135). -/
def fnPinTranslate (i : FnIn) (r : Rnd) : Result × Rnd :=
  let fin := byteAt i.desc 64
  let fout := byteAt i.desc 65
  if translationOk fin fout (keyAt i 0).algorithm (keyAt i 1).algorithm i.pinGrants then
    translatePin fin fout (cipherAt i 0) (cipherAt i 1) (cut i.desc 80 16) (pinPan i.desc) r
  else (fails stPolicyTranslation, r)

/-- PIN_VERIFY_OFFSET (R137). -/
def fnPinVerifyOffset (i : FnIn) : Result :=
  let n := byteAt i.desc 78
  match inboundPin i with
  | none => fails stVerifyFail
  | some pin =>
    let nat := natDigits (cipherAt i 1) (keyAt i 2).material (cut i.desc 104 8)
    verdict (decide (n ≤ pin.length) && addDigits (nat.take n) (digitRun (cut i.desc 96 6)) == pin.take n)

/-- PIN_VERIFY_VALUE (R140). -/
def fnPinVerifyValue (i : FnIn) : Result :=
  match inboundPin i with
  | none => fails stVerifyFail
  | some pin => verdict (pvvOf (cipherAt i 1) (pinPan i.desc) (byteAt i.desc 79) pin == nibbles (cut i.desc 102 2))

/-- PIN_VALUE_DERIVE (R140). -/
def fnPinValueDerive (i : FnIn) : Result :=
  match inboundPin i with
  | none => fails stVerifyFail
  | some pin => returns (packNibbles (pvvOf (cipherAt i 1) (pinPan i.desc) (byteAt i.desc 79) pin))

/-- Random PINs of `n` digits until screening accepts one (R139): the PIN, if one of 64 was accepted, and the number
rejected. -/
def drawPin (tries n mask : Nat) (pan : List Nat) (r : Rnd) (rejected : Nat) : Option (List Nat) × Nat × Rnd :=
  match tries with
  | 0 => (none, rejected, r)
  | t + 1 =>
    let (l, r) := rndList n r 250
    let pin := l.map (· % 10)
    if r.dry then (none, rejected, r)
    else if screened mask pin pan then drawPin t n mask pan r (rejected + 1)
    else (some pin, rejected, r)

/-- PIN_GENERATE (R139). Each rejected random PIN adds 1,500 core cycles (R145). -/
def fnPinGenerate (i : FnIn) (r : Rnd) : Result × Rnd :=
  let fout := byteAt i.desc 65
  let n := byteAt i.desc 67
  let pan := pinPan i.desc
  let nat := (natDigits (cipherAt i 0) (keyAt i 1).material (cut i.desc 104 8)).take n
  let done := fun (pin : List Nat) (extra : Nat) (r : Rnd) =>
    let (c, r) := sealFresh fout (cipherAt i 2) pin pan r
    ({ returns (padTo 16 c ++ bcdField 6 (subDigits pin nat)) with cycles := extra }, r)
  if byteAt i.desc 112 = 0 then
    if screened (screenMask i) nat pan then (fails stWeakPin, r) else done nat 0 r
  else
    match drawPin 64 n (screenMask i) pan r 0 with
    | (some pin, k, r) => done pin (1500 * k) r
    | (none, k, r) => ({ fails stRngUnavailable with cycles := 1500 * k }, r)

/-- PIN_OFFSET_DERIVE (R138). -/
def fnPinOffsetDerive (i : FnIn) : Result :=
  let n := byteAt i.desc 78
  match inboundPin i with
  | none => fails stVerifyFail
  | some pin =>
    if pin.length < n then fails stVerifyFail
    else if screened (screenMask i) pin (pinPan i.desc) then fails stWeakPin
    else
      let nat := natDigits (cipherAt i 1) (keyAt i 2).material (cut i.desc 104 8)
      returns (bcdField 6 (subDigits (pin.take n) (nat.take n)))

/-- PIN_SCREEN (R142). -/
def fnPinScreen (i : FnIn) : Result :=
  match inboundPin i with
  | none => fails stVerifyFail
  | some pin =>
    if screened (screenMask i) pin (pinPan i.desc) || onList (keyAt i 1).material pin then fails stWeakPin else returns []

/-- PIN_CHANGE_SCRIPT (R143). -/
def fnPinChangeScript (i : FnIn) : Result :=
  match inboundPin i with
  | none => fails stVerifyFail
  | some pin =>
    if screened (screenMask i) pin (pinPan i.desc) then fails stWeakPin
    else
      let y := formY (pinPan i.desc) (nibbles (cut i.desc 116 1))
      let alg := (keyAt i 1).algorithm
      let p2 := pinField 2 pin (List.replicate (14 - pin.length) 15)
      let d := xorB p2 ((deriveMk (keyAt i 2).algorithm (keyAt i 2).material y).take 8)
      let sk := deriveSk alg (deriveMk alg (keyAt i 1).material y) (cut i.desc 114 2 ++ zeros 6)
      let c := cipherOf alg sk
      returns (cbcEnc c (zeros (blockLen c)) ([0x08] ++ d ++ [0x80] ++ zeros 6))

end Sys2Proof.Machine
end

