-- ==== Sys2Proof/Machine/EmvFns.lean ====
section
/-!
DEFINITION. The EMV and card-code functions (R149 to R171): issuer profiles, element lists, application cryptograms,
response cryptograms, issuer scripts and card verification codes.
-/
namespace Sys2Proof.Machine

/-! ### Issuer profiles (R149, R150) and element lists (R154) -/

/-- One entry of a profile's element list: tag, take_offset, take_len. -/
def profEntry (m : Bytes) (e : Nat) : Bytes × Nat × Nat := (cut m (16 + 4 * e) 2, byteAt m (18 + 4 * e), byteAt m (19 + 4 * e))

def profEntries (m : Bytes) : List (Bytes × Nat × Nat) := (List.range (byteAt m 10)).map (profEntry m)

def tagAtc : Bytes := [0x9F, 0x36]

/-- No two entries of a list are equal. -/
def noRepeat (l : List Bytes) : Bool :=
  match l with
  | [] => true
  | a :: r => !r.contains a && noRepeat r

/-- R150: the material of a usage-63 record. -/
def profileOk (m : Bytes) : Bool :=
  let es := profEntries m
  m.length == 96 && byteAt m 0 == 1 && within 1 2 (byteAt m 1) && within 1 2 (byteAt m 2) &&
  (if byteAt m 1 = 1 then within 1 2 (byteAt m 3) else byteAt m 3 == 0x11) && within 1 2 (byteAt m 4) &&
  within 1 2 (byteAt m 5) && within 4 8 (byteAt m 6) && decide (byteAt m 7 < 4) && decide (byteAt m 8 < 2) &&
  within 3 5 (byteAt m 9) && within 1 16 (byteAt m 10) && byteAt m 11 == 0 && allZero (cut m 80 16) &&
  es.all (fun e => !allZero e.1 && within 1 32 e.2.2 && decide (e.2.1 + e.2.2 ≤ 64) &&
    (e.1 != tagAtc || decide (e.2.1 + e.2.2 ≤ 2))) &&
  noRepeat (es.map (·.1)) && decide ((es.map (·.2.2)).foldl (· + ·) 0 ≤ 128) &&
  allZero (cut m (16 + 4 * byteAt m 10) (64 - 4 * byteAt m 10))

/-- R154: the entries of an element list, or `none` where they do not end at the end of the input. -/
def elements (fuel : Nat) (bs : Bytes) : Option (List (Bytes × Bytes)) :=
  match fuel with
  | 0 => none
  | f + 1 =>
    if bs.isEmpty then some []
    else
      let l := byteAt bs 2
      if within 1 64 l && decide (3 + l ≤ bs.length) then
        (elements f (bs.drop (3 + l))).map (fun r => (bs.take 2, cut bs 3 l) :: r)
      else none

def elemValue (es : List (Bytes × Bytes)) (tag : Bytes) : Option Bytes := (es.find? (fun e => e.1 == tag)).map (·.2)

/-- R154: the list is accepted for a profile. -/
def elementsOk (m : Bytes) (es : List (Bytes × Bytes)) : Bool :=
  noRepeat (es.map (·.1)) && !(es.any (fun e => e.1 == tagAtc)) &&
  (profEntries m).all (fun e => e.1 == tagAtc ||
    (match elemValue es e.1 with
     | some v => decide (e.2.1 + e.2.2 ≤ v.length)
     | none => false))

/-- R160: the cryptogram input. -/
def cryptoInput (m : Bytes) (es : List (Bytes × Bytes)) (atc : Bytes) : Bytes :=
  ((profEntries m).map (fun e => cut (if e.1 = tagAtc then atc else (elemValue es e.1).getD []) e.2.1 e.2.2)).flatten

/-! ### Cryptograms (R161 to R165) -/

def emvPan (d : Bytes) : List Nat := digitRun (cut d 66 10)
def emvPsn (d : Bytes) : List Nat := nibbles (cut d 65 1)
def emvAtc (d : Bytes) : Bytes := cut d 76 2
def emvArqc (d : Bytes) : Bytes := cut d 80 8

/-- The ICC master key of the card under the key at position 0. -/
def emvMk (i : FnIn) : Bytes := deriveMk (keyAt i 0).algorithm (keyAt i 0).material (formY (emvPan i.desc) (emvPsn i.desc))

/-- The session key of the application cryptogram (R159, R162). -/
def emvSk (i : FnIn) : Bytes :=
  if byteAt (keyAt i 1).material 2 = 2 then emvMk i
  else deriveSk (keyAt i 0).algorithm (emvMk i) (emvAtc i.desc ++ zeros 6)

/-- R161: the ARQC over an input. -/
def arqcOf (acMac : Nat) (sk m : Bytes) : Bytes :=
  if acMac = 1 then retailMac sk (pad1 8 m)
  else if acMac = 2 then retailMac sk (pad2 8 m)
  else (cmac (.aes sk) m).take 8

/-- R162: the ARQC of the request verifies. -/
def arqcGood (i : FnIn) : Bool :=
  let m := (keyAt i 1).material
  match elements 200 i.input with
  | none => false
  | some es => elementsOk m es && arqcOf (byteAt m 3) (emvSk i) (cryptoInput m es (emvAtc i.desc)) == emvArqc i.desc

/-- R163, R164: the response data. -/
def arpcData (i : FnIn) : Bytes :=
  let alg := (keyAt i 0).algorithm
  let sk := emvSk i
  let d := i.desc
  if byteAt (keyAt i 1).material 4 = 1 then
    let x := xorB (emvArqc d) (cut d 88 2 ++ zeros 6)
    (if isTdes alg then tdesEnc sk x else (aesEnc sk (x ++ zeros 8)).take 8) ++ cut d 88 2
  else
    let pad := cut d 96 (byteAt d 78)
    (skMac alg sk (emvArqc d ++ cut d 90 4 ++ pad)).take 4 ++ cut d 90 4 ++ pad

/-- ARQC_VERIFY (R162). -/
def fnArqcVerify (i : FnIn) : Result := verdict (arqcGood i)

/-- ARPC_GENERATE (R165). -/
def fnArpcGenerate (i : FnIn) : Result := returns (arpcData i)

/-- ARQC_VERIFY_ARPC (R165). -/
def fnArqcVerifyArpc (i : FnIn) : Result := if arqcGood i then returns (arpcData i) else fails stVerifyFail

/-! ### Issuer scripts (R166 to R168) -/

/-- The session key of a script (R166). -/
def scriptSk (i : FnIn) : Bytes :=
  let v := if byteAt (keyAt i 1).material 5 = 1 then emvAtc i.desc ++ zeros 6 else emvArqc i.desc
  deriveSk (keyAt i 0).algorithm (emvMk i) v

/-- SCRIPT_MAC (R167). -/
def fnScriptMac (i : FnIn) : Result :=
  let m := (keyAt i 1).material
  let f := byteAt m 7
  let msg := cut i.desc 110 5 ++ (if f % 2 = 1 then emvAtc i.desc else []) ++ (if f / 2 % 2 = 1 then emvArqc i.desc else []) ++ i.input
  returns ((skMac (keyAt i 0).algorithm (scriptSk i) msg).take (byteAt m 6))

/-- SCRIPT_ENCRYPT (R168). -/
def fnScriptEncrypt (i : FnIn) : Result :=
  let c := cipherOf (keyAt i 0).algorithm (scriptSk i)
  returnsAny (cbcEnc c (zeros (blockLen c)) (pad2 (blockLen c) i.input))

/-! ### Card verification codes (R169 to R171) -/

/-- R169: three code digits from a two-key TDES key and a digit string. -/
def cardCode (key : Bytes) (ds : List Nat) : List Nat :=
  let ds := ds ++ List.replicate (32 - ds.length) 0
  let x := xorB (desEnc (key.take 8) (packNibbles (ds.take 16))) (packNibbles (ds.drop 16))
  takeDigits 3 (nibbles (tdesEnc key x))

/-- The digits of a 16-bit counter, five decimal digits (R171). -/
def fiveDigits (v : Nat) : List Nat := [v / 10000 % 10, v / 1000 % 10, v / 100 % 10, v / 10 % 10, v % 10]

/-- R170: the static code of the request. -/
def cvcCode (i : FnIn) : List Nat :=
  cardCode (keyAt i 0).material (emvPan i.desc ++ nibbles (cut i.desc 104 2) ++ (nibbles (cut i.desc 106 2)).take 3)

/-- R171: the dynamic code of the request. -/
def dcvcCode (i : FnIn) : List Nat :=
  let m := (keyAt i 1).material
  cardCode (emvMk i) (emvPan i.desc ++ nibbles (cut i.desc 104 2) ++
    (if byteAt m 8 % 2 = 1 then (nibbles (cut i.desc 106 2)).take 3 else []) ++
    lastDigits (byteAt m 9) (fiveDigits (ofBe (emvAtc i.desc))))

/-- CVC_GENERATE (R170). -/
def fnCvcGenerate (i : FnIn) : Result := returns (bcdField 2 (cvcCode i))

/-- CVC_VERIFY (R170). -/
def fnCvcVerify (i : FnIn) : Result := verdict (bcdField 2 (cvcCode i) == cut i.desc 108 2)

/-- DCVC_GENERATE (R171). -/
def fnDcvcGenerate (i : FnIn) : Result := returns (bcdField 2 (dcvcCode i))

/-- DCVC_VERIFY (R171). -/
def fnDcvcVerify (i : FnIn) : Result := verdict (bcdField 2 (dcvcCode i) == cut i.desc 108 2)

end Sys2Proof.Machine
end

