-- ==== Sys2Proof/Machine/KeyBlock.lean ====
section
/-!
DEFINITION. Key blocks of ANSI X9.143, versions 'B' and 'D' (R255): the derived block keys, building and opening a
block, and the mapping of a header to the codes of the key-store chapter. The layout and the derivation are the
standard's (PRESUMED, log entry 6).
-/
namespace Sys2Proof.Machine

/-- A value from 0 to 15 as an upper-case hexadecimal character. -/
def hexChar (n : Nat) : Byte := if n < 10 then BitVec.ofNat 8 (48 + n) else BitVec.ofNat 8 (55 + n)

/-- Bytes in upper-case hexadecimal. -/
def toHex (bs : Bytes) : Bytes := (nibbles bs).map hexChar

/-- The value of an upper-case hexadecimal character. -/
def hexVal (b : Byte) : Option Nat :=
  let n := b.toNat
  if within 48 57 n then some (n - 48) else if within 65 70 n then some (n - 55) else none

/-- Hexadecimal characters as nibbles. -/
def hexNibbles (bs : Bytes) : Option (List Nat) :=
  match bs with
  | [] => some []
  | b :: r => match hexVal b, hexNibbles r with
    | some v, some l => some (v :: l)
    | _, _ => none

/-- Hexadecimal characters, an even number of them, as bytes. -/
def ofHex (bs : Bytes) : Option Bytes :=
  if bs.length % 2 = 0 then (hexNibbles bs).map packNibbles else none

/-- Decimal characters as a number. -/
def ofDec (bs : Bytes) : Option Nat :=
  if bs.all (fun b => within 48 57 b.toNat) then some (bs.foldl (fun a b => a * 10 + (b.toNat - 48)) 0) else none

/-- A number as `n` decimal characters. -/
def toDec (n v : Nat) : Bytes :=
  match n with
  | 0 => []
  | m + 1 => toDec m (v / 10) ++ [BitVec.ofNat 8 (48 + v % 10)]

/-- The algorithm indicator of a derivation (Table 3 of the DUKPT chapter). -/
def algIndicator : Nat → Nat
  | 0x10 => 0
  | 0x11 => 1
  | 0x20 => 2
  | 0x21 => 3
  | _ => 4

/-- A key derived from a block protection key by CMAC: usage 0 encipherment, 1 authentication. -/
def blockSubKey (alg : Nat) (kbpk : Bytes) (usage : Nat) : Bytes :=
  let c := cipherOf alg kbpk
  let n := kbpk.length
  (((List.range (ceilDiv n (blockLen c))).map (fun j =>
    cmac c ([BitVec.ofNat 8 (j + 1)] ++ beBytes 2 usage ++ [0] ++ beBytes 2 (algIndicator alg) ++ beBytes 2 (8 * n)))).flatten).take n

/-- The version character under a block protection key (R255). -/
def blockVersion (alg : Nat) : Byte := BitVec.ofNat 8 (if isTdes alg then chr 'B' else chr 'D')

/-- Bytes of padding that a key of `n` bytes needs in a block. -/
def blockPad (alg n : Nat) : Nat :=
  let b := if isTdes alg then 8 else 16
  (b - (n + 2) % b) % b

/-- Length of a block: header and optional blocks of `h` characters, a key of `n` bytes. -/
def blockTotal (alg h n : Nat) : Nat := h + 2 * (n + 2 + blockPad alg n) + (if isTdes alg then 16 else 32)

/-- A key block: fields of the header after its length, optional blocks with their count, the key and its padding. -/
def buildBlock (alg : Nat) (kbpk fields : Bytes) (optCount : Nat) (opts key pad : Bytes) : Bytes :=
  let total := blockTotal alg (16 + opts.length) key.length
  let head := [blockVersion alg] ++ toDec 4 total ++ fields ++ toDec 2 optCount ++ ascii "00" ++ opts
  let plain := beBytes 2 (8 * key.length) ++ key ++ pad
  let mac := cmac (cipherOf alg (blockSubKey alg kbpk 1)) (head ++ plain)
  head ++ toHex (cbcEnc (cipherOf alg (blockSubKey alg kbpk 0)) mac plain) ++ toHex mac

/-- The number that `n` hexadecimal characters at `lo` spell. -/
def hexAt (bs : Bytes) (lo n : Nat) : Option Nat :=
  if lo + n ≤ bs.length then (hexNibbles (cut bs lo n)).map (fun l => l.foldl (fun a v => a * 16 + v) 0) else none

/-- Length of the first optional block, and where its data begins. The length 00 announces an extended one: two characters that
give its bytes, then two characters for each byte. -/
def optLen (bs : Bytes) : Option (Nat × Nat) :=
  match hexAt bs 2 2 with
  | some 0 => (hexAt bs 4 2).bind (fun n => (hexAt bs 6 (2 * n)).map (fun l => (l, 6 + 2 * n)))
  | some l => some (l, 4)
  | none => none

/-- The optional blocks of a header: identifier and data. -/
def optBlocks (count : Nat) (bs : Bytes) : Option (List (Bytes × Bytes) × Nat) :=
  match count with
  | 0 => some ([], 0)
  | n + 1 =>
    match optLen bs with
    | some (l, at_) =>
      if at_ ≤ l ∧ l ≤ bs.length then
        (optBlocks n (bs.drop l)).map (fun r => ((bs.take 2, cut bs at_ (l - at_)) :: r.1, l + r.2))
      else none
    | none => none

/-- A key block whose framing and MAC are right: its header, optional blocks and key. -/
structure OpenBlock where
  header : Bytes
  opts   : List (Bytes × Bytes)
  key    : Bytes
deriving DecidableEq, Repr

/-- R255, import step 1: framing, length, version and MAC. -/
def openBlock (alg : Nat) (kbpk blk : Bytes) : Option OpenBlock :=
  let ml := if isTdes alg then 16 else 32
  let bl := if isTdes alg then 8 else 16
  match ofDec (cut blk 1 4), ofDec (cut blk 12 2) with
  | some total, some count =>
    if blk.take 1 = [blockVersion alg] ∧ total = blk.length ∧ 16 < total ∧ cut blk 14 2 = ascii "00" then
      match optBlocks count (blk.drop 16) with
      | some (opts, used) =>
        let rest := blk.drop (16 + used)
        if ml < rest.length then
          match ofHex (rest.take (rest.length - ml)), ofHex (rest.drop (rest.length - ml)) with
          | some ct, some mac =>
            if ct.length % bl = 0 then
              let plain := cbcDec (cipherOf alg (blockSubKey alg kbpk 0)) mac ct
              let bits := beAt plain 0 2
              if cmac (cipherOf alg (blockSubKey alg kbpk 1)) (blk.take (16 + used) ++ plain) = mac ∧ bits % 8 = 0 ∧
                  0 < bits ∧ 2 + bits / 8 ≤ plain.length then
                some ⟨blk.take 16, opts, cut plain 2 (bits / 8)⟩
              else none
            else none
          | _, _ => none
        else none
      | none => none
    else none
  | _, _ => none

/-- The character of a secret key's algorithm in a header. -/
def algChar (alg : Nat) : Byte := BitVec.ofNat 8 (if isTdes alg then chr 'T' else if isAes alg then chr 'A' else chr 'H')

/-- A held usage as a header writes it (R241). -/
def usageHeader (u : Nat) : Bytes := if u = 65 then ascii "65" else beBytes 2 u

/-- The held usage that a header names. -/
def headerUsage (h : Bytes) : Nat := if h = ascii "65" then 65 else ofBe h

/-- The header fields of a record: usage, algorithm, mode, key version "00", exportability. -/
def headerFields (r : KeyRecord) : Bytes :=
  usageHeader r.usage ++ [algChar r.algorithm, BitVec.ofNat 8 r.mode] ++ ascii "00" ++ [BitVec.ofNat 8 r.exportab]

/-- The data of an optional block. -/
def optData (b : OpenBlock) (id : String) : Option Bytes := (b.opts.find? (fun e => e.1 == ascii id)).map (·.2)

/-- R255: the algorithm parameters that a header supplies: bdk_id of BI for B0, the hash of HM for M7. -/
def headerParams (usage alg : Nat) (b : OpenBlock) : Option Bytes :=
  if usage = usage2 "B0" then
    match (optData b "BI").bind ofHex with
    | some d =>
      let id := d.drop 1
      if isAes alg then
        if byteAt d 0 = 1 ∧ id.length = 4 then some ([0x01, 0, 0, 0] ++ id ++ zeros 8) else none
      else if byteAt d 0 = 0 ∧ 4 ≤ id.length ∧ id.length ≤ 6 then
        some ([0x02, BitVec.ofNat 8 (59 - 8 * id.length), 0, 0, 0, 0, 0, 0] ++ leBytes 8 (ofBe id))
      else none
    | none => none
  else if usage = usage2 "M7" then
    if optData b "HM" = some (ascii "21") then some ([0x01] ++ zeros 15)
    else if optData b "HM" = some (ascii "22") then some ([0x02] ++ zeros 15)
    else none
  else some (zeros 16)

/-- The material of an asymmetric key has the form of Table 4: its length, and for RSA an odd public exponent of at least 3
(Table 1 of the public-key chapter). -/
def asymFormOk (alg cls : Nat) (mat : Bytes) : Bool :=
  let n := rsaLen alg
  let e := beAt mat n 4
  if isRsa alg then mat.length == n + 4 && e % 2 == 1 && decide (3 ≤ e)
  else match curveOf alg with
    | some c => mat.length == (if cls = 1 then c.len else 2 * c.len)
    | none =>
      if alg = 0x58 then mat.length == 32
      else if isKem alg then mat.length == (if cls = 1 then 64 else kemKeyLen alg)
      else isDsa alg && mat.length == (if cls = 1 then 32 else dsaKeyLen alg)

/-- The algorithm code, class and material that a block's header and key name. -/
def blockKey (b : OpenBlock) : Option (Nat × Nat × Bytes) :=
  let a := byteAt b.header 7
  let n := b.key.length
  if a = chr 'T' then (if n = 16 then some (0x10, 0, b.key) else if n = 24 then some (0x11, 0, b.key) else none)
  else if a = chr 'A' then
    (if n = 16 then some (0x20, 0, b.key) else if n = 24 then some (0x21, 0, b.key) else if n = 32 then some (0x22, 0, b.key) else none)
  else if a = chr 'H' then (if within 32 64 n then some (0x30, 0, b.key) else none)
  else
    match Config.asymBlock b.header b.key with
    | some (alg, cls, mat) =>
      if asymFormOk alg cls mat && within 1 2 cls then some (alg, cls, mat) else none
    | none => none

/-- R255, import step 2: the record that a header maps to, without flags, uses and window; `none` gives
ST_KEY_USAGE. `limit` is the strength of the key that protects the block. -/
def mapHeader (limit prov : Nat) (b : OpenBlock) : Option KeyRecord :=
  let h := cut b.header 5 2
  let usage := headerUsage h
  let mode := byteAt b.header 8
  let exp := byteAt b.header 11
  match blockKey b with
  | some (alg, cls, mat) =>
    match headerParams usage alg b with
    | some params =>
      if usageKnown usage && !(61 ≤ usage && usage ≤ 64) && combinationOk usage mode alg &&
          [chr 'E', chr 'S', chr 'N'].contains exp && decide (strength alg ≤ limit) && usageHeader usage == h &&
          decide (leAt params 8 8 < 2 ^ (59 - byteAt params 1)) then
        some { algorithm := alg, cls := cls, usage := usage, mode := mode, exportab := exp, provenance := prov,
               algParams := params, material := mat, matLen := mat.length, extCount := extNeeded alg cls }
      else none
    | none => none
  | none => none

end Sys2Proof.Machine
end

