-- ==== Sys2Proof/Machine/DukptFns.lean ====
section
/-!
DEFINITION. DUKPT and message authentication (R176 to R199): working keys, the four DUKPT opcodes, and the MAC and
HMAC opcodes.
-/
namespace Sys2Proof.Machine

/-! ### AES DUKPT (R181 to R183) -/

/-- The key algorithm that a work_alg field names. -/
def workAlg : Nat → Nat
  | 0 => 0x10
  | 1 => 0x11
  | 2 => 0x20
  | 3 => 0x21
  | _ => 0x22

def algLen (alg : Nat) : Nat := (secretLen alg).getD 0

/-- R181: one derivation. -/
def aesDukpt (key : Bytes) (usage alg : Nat) (ident : Bytes) : Bytes :=
  let n := algLen alg
  (((List.range (ceilDiv n 16)).map (fun j =>
    aesEnc key ([0x01, BitVec.ofNat 8 (j + 1)] ++ beBytes 2 usage ++ beBytes 2 (algIndicator alg) ++ beBytes 2 (8 * n) ++ ident))).flatten).take n

/-- The set bits of a counter from bit `n − 1` down. -/
def setBits (n c : Nat) : List Nat := (((List.range n).filter (fun i => c.testBit i)).map (fun i => 2 ^ i)).reverse

/-- R182: a working key. -/
def aesWorkKey (alg : Nat) (bdk ksn : Bytes) (usage work : Nat) : Bytes :=
  let c := ksnCounter 1 ksn
  let did := cut ksn 4 4
  let ik := aesDukpt bdk 0x8001 alg (ksn.take 8)
  let (k, _) := (setBits 32 c).foldl (fun (p : Bytes × Nat) b =>
    (aesDukpt p.1 0x8000 alg (did ++ beBytes 4 (p.2 + b)), p.2 + b)) (ik, 0)
  aesDukpt k usage work (did ++ beBytes 4 c)

/-! ### TDES DUKPT (R184, R185) -/

def maskC0 : Bytes := [0xC0, 0xC0, 0xC0, 0xC0, 0, 0, 0, 0, 0xC0, 0xC0, 0xC0, 0xC0, 0, 0, 0, 0]

def oneWay (k d : Bytes) : Bytes :=
  let half := fun (x : Bytes) => xorB (desEnc (x.take 8) (xorB d (x.drop 8))) (x.drop 8)
  half (xorB k maskC0) ++ half k

/-- The initial PIN encryption key of a KSN. -/
def ipek (bdk ksn : Bytes) : Bytes :=
  let seed := beBytes 8 (beAt ksn 0 8 / 32 * 32)
  tdesEnc bdk seed ++ tdesEnc (xorB bdk maskC0) seed

/-- R184: the current key of a terminal. -/
def tdesCurrent (bdk ksn : Bytes) : Bytes :=
  let base := beAt ksn 2 8 / 2 ^ 21 * 2 ^ 21
  let (k, _) := (setBits 21 (ksnCounter 2 ksn)).foldl (fun (p : Bytes × Nat) b =>
    (oneWay p.1 (beBytes 8 (base + p.2 + b)), p.2 + b)) (ipek bdk ksn, 0)
  k

/-- R185: the working key of an opcode. -/
def tdesWorkKey (op : Nat) (bdk ksn : Bytes) : Bytes :=
  let v : Bytes := match op with
    | 0x0301 => [0, 0, 0, 0, 0, 0, 0, 0xFF]
    | 0x0302 => [0, 0, 0, 0, 0, 0, 0xFF, 0]
    | _ => [0, 0, 0, 0, 0, 0xFF, 0, 0]
  let k := xorB (tdesCurrent bdk ksn) (v ++ v)
  if op = 0x0303 then tdesEnc k (k.take 8) ++ tdesEnc k (k.drop 8) else k

/-! ### The DUKPT opcodes (R180, R183, R189 to R193) -/

/-- Derivation attributes of a B0 record (R177, Table 3 of the key-store chapter). -/
def bdkVariant (r : KeyRecord) : Nat := byteAt r.algParams 0
def bdkDevBits (r : KeyRecord) : Nat := byteAt r.algParams 1
def bdkIdAes (r : KeyRecord) : Bytes := cut r.algParams 4 4
def bdkIdTdes (r : KeyRecord) : Nat := leAt r.algParams 8 8

/-- R180, R183, R188: the KSN, the variant and work_alg fit the base derivation key. -/
def dukptKeyOk (i : FnIn) : Bool :=
  let r := keyAt i 0
  let d := i.desc
  let ksn := cut d 82 12
  (if bdkVariant r = 1 then ksn.take 4 == bdkIdAes r
   else bdkDevBits r == 0 || beAt ksn 0 10 / 2 ^ (21 + bdkDevBits r) == bdkIdTdes r) &&
  bdkVariant r == byteAt d 64 && decide (strength (workAlg (byteAt d 65)) ≤ strength r.algorithm)

/-- The working key of the request and its algorithm. -/
def dukptWork (i : FnIn) : Nat × Bytes :=
  let r := keyAt i 0
  let d := i.desc
  let ksn := cut d 82 12
  if byteAt d 64 = 1 then
    let w := workAlg (byteAt d 65)
    let u := match i.op with | 0x0301 => 0x1000 | 0x0302 => 0x2000 | _ => 0x3000
    (w, aesWorkKey r.algorithm r.material ksn u w)
  else (0x10, tdesWorkKey i.op r.material ksn)

/-- DUKPT_PIN_TRANSLATE (R189). -/
def fnDukptPinTranslate (i : FnIn) (r : Rnd) : Result × Rnd :=
  let d := i.desc
  let fin := byteAt d 66
  let fout := byteAt d 67
  if !dukptKeyOk i || !pinKeyFits fin (workAlg (byteAt d 65)) then (fails stKeyUsage, r)
  else if !translationOk fin fout (workAlg (byteAt d 65)) (keyAt i 1).algorithm i.pinGrants then (fails stPolicyTranslation, r)
  else
    let (w, k) := dukptWork i
    translatePin fin fout (cipherOf w k) (cipherAt i 1) (cut d 96 16) (digitRun (cut d 72 10)) r

/-- R196: a block-cipher MAC before truncation. -/
def blockMac (macAlg pad : Nat) (alg : Nat) (key msg : Bytes) : Bytes :=
  let c := cipherOf alg key
  if macAlg = 5 then cmac c msg
  else
    let p := if pad = 1 then pad1 8 msg else pad2 8 msg
    if macAlg = 1 then cbcMac c p else retailMac key p

/-- DUKPT_MAC_VERIFY (R190). -/
def fnDukptMacVerify (i : FnIn) : Result :=
  let d := i.desc
  let w := workAlg (byteAt d 65)
  let m := byteAt d 69
  if !dukptKeyOk i || !(if isAes w then m == 5 else if w = 0x10 then true else m == 1 || m == 5) then fails stKeyUsage
  else
    let (w, k) := dukptWork i
    verdict ((blockMac m (byteAt d 71) w k i.input).take (byteAt d 70) == cut d 96 (byteAt d 70))

/-- DUKPT_DECRYPT_DATA (R191). -/
def fnDukptDecryptData (i : FnIn) : Result :=
  if !dukptKeyOk i then fails stKeyUsage
  else
    let (w, k) := dukptWork i
    let c := cipherOf w k
    returnsAny (cbcDec c (cut i.desc 96 (blockLen c)) i.input)

/-- The first value that an originating counter cannot issue (R193). -/
def originEnd (r : KeyRecord) : Nat := if bdkVariant r = 1 then 2 ^ 32 else 2 ^ bdkDevBits r

/-- The largest key block of DUKPT_INITIAL_KEY for the capacity check (R192). -/
def initialKeyMax : Nat := 256

/-- DUKPT_INITIAL_KEY (R192): the key block for the drawn value `v` of the originating counter. The refusals of R255 (export
grant, a wrapping key weaker than the key) are not applied to it: the model's choice (log entry 21). -/
def fnDukptInitialKey (i : FnIn) (v : Nat) (r : Rnd) : Result × Rnd :=
  let k := keyAt i 0
  let p := keyAt i 1
  let r := rndReady r
  let (key, id, data) :=
    if bdkVariant k = 1 then
      let ident := bdkIdAes k ++ beBytes 4 v
      (aesDukpt k.material 0x8001 k.algorithm ident, ascii "IK", toHex ident)
    else
      let ksn := beBytes 10 ((bdkIdTdes k * 2 ^ bdkDevBits k + v) * 2 ^ 21)
      (ipek k.material ksn, ascii "KS", toHex ksn)
  let opt := id ++ toHex [BitVec.ofNat 8 (4 + data.length)] ++ data
  let (pad, r) := rndGen r (blockPad p.algorithm key.length)
  let fields := ascii "41" ++ [algChar k.algorithm] ++ ascii "X" ++ ascii "00" ++ [Config.initialKeyExport]
  let blk := buildBlock p.algorithm p.material fields 1 opt key pad
  ({ status := stOk, ext := blk, counter := v }, r)

/-! ### MAC and HMAC opcodes (R195 to R199) -/

/-- Table 8: the record fits the mac_alg of the request. -/
def macKeyFits (alg : Nat) (r : KeyRecord) : Bool :=
  match alg with
  | 0x01 => (r.usage == usage2 "M0" || r.usage == usage2 "M1") && isTdes r.algorithm
  | 0x03 => r.usage == usage2 "M3" && r.algorithm == 0x10
  | 0x05 => r.usage == usage2 "M6" && (isTdes r.algorithm || isAes r.algorithm)
  | 0x07 => r.usage == usage2 "M7" && r.algorithm == 0x30 && byteAt r.algParams 0 == 1
  | 0x08 => r.usage == usage2 "M7" && r.algorithm == 0x30 && byteAt r.algParams 0 == 2
  | _ => false

/-- The MAC of the request over its message, cut to mac_len. -/
def requestMac (i : FnIn) : Bytes :=
  let d := i.desc
  let k := keyAt i 0
  let m := byteAt d 64
  (if m = 7 then hmac .sha256 k.material i.input
   else if m = 8 then hmac .sha384 k.material i.input
   else blockMac m (byteAt d 66) k.algorithm k.material i.input).take (byteAt d 65)

/-- R198: mac_len exceeds what CMAC gives under the key's algorithm. -/
def macTooLong (i : FnIn) : Bool := byteAt i.desc 64 == 5 && isTdes (keyAt i 0).algorithm && decide (8 < byteAt i.desc 65)

/-- MAC_GENERATE and HMAC_GENERATE (R198). -/
def fnMacGenerate (i : FnIn) : Result := if macTooLong i then fails stLength else returnsAny (requestMac i)

/-- MAC_VERIFY and HMAC_VERIFY (R198, R199). -/
def fnMacVerify (i : FnIn) : Result :=
  if macTooLong i then fails stLength else verdict (requestMac i == cut i.desc 80 (byteAt i.desc 65))

end Sys2Proof.Machine
end

