-- ==== Sys2Proof/Machine/TokenFns.lean ====
section
/-!
DEFINITION. Format-preserving tokens (R205 to R213): token domains and FF1.
-/
namespace Sys2Proof.Machine

/-- R206: the material of a usage-64 record. -/
def domainOk (m : Bytes) : Bool :=
  m.length == 32 && byteAt m 0 == 1 && byteAt m 1 == 10 && within 6 32 (byteAt m 2) && within (byteAt m 2) 32 (byteAt m 3) &&
  decide (byteAt m 4 ≤ 8) && decide (byteAt m 5 ≤ 4) && decide (byteAt m 6 ≤ 1) && decide (byteAt m 7 ≤ 8) &&
  allZero ((cut m 8 8).drop (byteAt m 7)) && allZero (cut m 20 12) && decide (byteAt m 4 + byteAt m 5 + 6 ≤ byteAt m 2)

/-- The value of a digit string. -/
def numOf (ds : List Nat) : Nat := ds.foldl (fun a d => a * 10 + d) 0

/-- A number as `n` decimal digits. -/
def digitsOf (n v : Nat) : List Nat :=
  match n with
  | 0 => []
  | m + 1 => digitsOf m (v / 10) ++ [v % 10]

/-- The tweak of a value (R208). -/
def tokenTweak (m : Bytes) (lead trail : List Nat) : Bytes :=
  cut m 8 (byteAt m 7) ++
    (if byteAt m 6 % 2 = 1 then
      let ds := lead ++ trail
      packNibbles (if ds.length % 2 = 1 then ds ++ [15] else ds)
     else [])

/-- The number of bytes that hold `v` decimal digits: ceil(ceil(v × log2 10) / 8). -/
def ff1Len (v : Nat) : Nat := ceilDiv ((10 ^ v - 1).log2 + 1) 8

/-- The round value y of FF1 (R209). -/
def ff1Round (key tweak : Bytes) (u m i b v : Nat) : Nat :=
  let t := tweak.length
  let bl := ff1Len v
  let d := 4 * ceilDiv bl 4 + 4
  let p := [0x01, 0x02, 0x01] ++ beBytes 3 10 ++ beBytes 1 10 ++ beBytes 1 u ++ beBytes 4 m ++ beBytes 4 t
  let q := tweak ++ zeros ((16 - (t + bl + 1) % 16) % 16) ++ beBytes 1 i ++ beBytes bl b
  ofBe ((cbcMac (.aes key) (p ++ q)).take d)

/-- Rounds of FF1 encipherment from round `i` on. -/
def ff1Enc (key tweak : Bytes) (u v m : Nat) (a b : List Nat) (rounds : List Nat) : List Nat :=
  match rounds with
  | [] => a ++ b
  | i :: r =>
    let len := if i % 2 = 0 then u else v
    let c := (numOf a + ff1Round key tweak u m i (numOf b) v) % 10 ^ len
    ff1Enc key tweak u v m b (digitsOf len c) r

/-- Rounds of FF1 decipherment, from round 9 down. -/
def ff1Dec (key tweak : Bytes) (u v m : Nat) (a b : List Nat) (rounds : List Nat) : List Nat :=
  match rounds with
  | [] => a ++ b
  | i :: r =>
    let len := if i % 2 = 0 then u else v
    let y := ff1Round key tweak u m i (numOf a) v % 10 ^ len
    let c := (numOf b + 10 ^ len - y) % 10 ^ len
    ff1Dec key tweak u v m (digitsOf len c) a r

/-- TOKEN_ENCODE (R209) and, with `dec` true, TOKEN_DECODE (R210). -/
def fnToken (i : FnIn) (inverse : Bool) : Result :=
  let m := (keyAt i 1).material
  let ds := digitRun (cut i.desc 80 16)
  let n := ds.length
  if within (byteAt m 2) (byteAt m 3) n then
    let lead := ds.take (byteAt m 4)
    let trail := ds.drop (n - byteAt m 5)
    let mid := (ds.drop (byteAt m 4)).take (n - byteAt m 4 - byteAt m 5)
    let u := mid.length / 2
    let v := mid.length - u
    let t := tokenTweak m lead trail
    let k := (keyAt i 0).material
    let out := if inverse then ff1Dec k t u v mid.length (mid.take u) (mid.drop u) (List.range 10).reverse
      else ff1Enc k t u v mid.length (mid.take u) (mid.drop u) (List.range 10)
    returns (bcdField 16 (lead ++ out ++ trail))
  else fails stLength

end Sys2Proof.Machine
end

