-- ==== Sys2Proof/Machine/KeyFns.lean ====
section
/-!
DEFINITION. The key opcodes (R230 to R258): templates and records, generation, import, export, rewrite, erase and the
other functions of class 0x05. A function answers a result whose key changes the step's commit applies.
-/
namespace Sys2Proof.Machine

/-! ### Templates (R252) -/

/-- The 48 template bytes of a descriptor. -/
def tplOf (d : Bytes) : Bytes := cut d 64 48
def tplAlg (t : Bytes) : Nat := byteAt t 0
def tplUsage (t : Bytes) : Nat := beAt t 2 2
def tplMode (t : Bytes) : Nat := byteAt t 4
def tplExport (t : Bytes) : Nat := byteAt t 5
def tplCounted (t : Bytes) : Bool := byteAt t 6 % 2 == 1
def tplExpire (t : Bytes) : Bool := byteAt t 6 / 2 % 2 == 1
def tplWindowed (t : Bytes) : Bool := byteAt t 6 / 4 % 2 == 1

/-- A record with the flags, uses and window of a template; a record without a window opens at 0 and never closes. -/
def withTplPart (s : State) (t : Bytes) (r : KeyRecord) : KeyRecord :=
  { r with
    counted := tplCounted t
    expireAtReset := tplExpire t
    windowed := tplWindowed t
    usesLeft := if tplCounted t then leAt t 8 4 else 0
    resetEpoch := if tplExpire t then s.vault.resetEpoch else 0
    validFrom := if tplWindowed t then leAt t 16 8 else 0
    validUntil := if tplWindowed t then leAt t 24 8 else 0xFFFFFFFFFFFFFFFF }

/-- The record that a whole template describes. An object of class 0x03 is never exportable (R239). -/
def recOfTpl (s : State) (t : Bytes) (cls prov : Nat) (mat : Bytes) : KeyRecord :=
  withTplPart s t
    { algorithm := tplAlg t, cls := cls, usage := tplUsage t, mode := tplMode t, exportab := if cls = 3 then chr 'N' else tplExport t, provenance := prov,
      algParams := cut t 32 16, material := mat, matLen := mat.length, extCount := extNeeded (tplAlg t) cls }

/-- R177: the variant of a B0 template fits its algorithm. -/
def variantFits (usage alg : Nat) (params : Bytes) : Bool :=
  usage != usage2 "B0" || (byteAt params 0 == 1) == isAes alg

/-- A class 0x00 combination that Table 5 of the key-store chapter permits. -/
def secretTplOk (t : Bytes) : Bool :=
  (isTdes (tplAlg t) || isAes (tplAlg t) || tplAlg t == 0x30) && combinationOk (tplUsage t) (tplMode t) (tplAlg t) &&
    variantFits (tplUsage t) (tplAlg t) (cut t 32 16)

/-- R252: the material length of a generated or derived secret key. -/
def tplKeyLen (t : Bytes) : Nat :=
  match secretLen (tplAlg t) with
  | some n => n
  | none => if byteAt t 32 = 1 then 32 else 48

/-- The output of a creation: generation, filled in when the transaction is sealed, and the check value (Table 10). -/
def createOut (r : KeyRecord) : Bytes := zeros 4 ++ padTo 8 ((checkValue r.algorithm r.material).getD [])

/-! ### Target slots (R231, R246, R261) -/

/-- A slot is at the last generation it may reach (R246). -/
def retired (s : State) (slot : Nat) : Bool := lastGenOf s slot == lastGenMax

/-- The group of `count` slots from a target may be created: in range, empty and not in a change (R231, R261). -/
def targetFree (s : State) (sliceNo slot count : Nat) : Bool :=
  groupEmpty s sliceNo slot count && (List.range count).all (fun j => !changeOn s (slot + j))

/-- The status with which creations into `count` slots fail now; ST_OK where they may proceed. -/
def createStatus (s : State) (sliceNo slot count : Nat) : Status :=
  if !targetFree s sliceNo slot count then stKeySlotBusy
  else if (List.range count).any (fun j => retired s (slot + j)) then stCounterExhausted
  else stOk

/-- A creation of one record: its result, or the status of R231, R246 or R261. -/
def createResult (s : State) (sliceNo slot : Nat) (r : KeyRecord) (ext : Bytes := []) : Result :=
  let st := createStatus s sliceNo slot (1 + extNeeded r.algorithm r.cls)
  if st = stOk then { status := stOk, out := createOut r, ext := ext, keys := [.create slot r] } else fails st

/-! ### The opcodes -/

/-- Bytes drawn in as many generate calls as their number needs (R389). -/
def rndBytes (fuel : Nat) (r : Rnd) (n : Nat) : Bytes × Rnd :=
  match fuel with
  | 0 => ([], r)
  | f + 1 =>
    if n ≤ 4096 then rndGen r n
    else
      let (a, r) := rndGen r 4096
      let (b, r) := rndBytes f r (n - 4096)
      (a ++ b, r)

/-- KEY_GENERATE (R252, R253). -/
def fnKeyGenerate (s : State) (i : FnIn) (r : Rnd) : Result × Rnd :=
  let t := tplOf i.desc
  let slot := hSlot (dHandle i.desc 0)
  if !secretTplOk t then (fails stKeyUsage, r)
  else
    let st := createStatus s i.slice slot 1
    if st ≠ stOk then (fails st, r)
    else
      let (m, r) := rndGen r (tplKeyLen t)
      (createResult s i.slice slot (recOfTpl s t 0 1 m), r)

/-- KEY_IMPORT_BLOCK (R255). -/
def fnKeyImport (s : State) (i : FnIn) : Result :=
  let k1 := keyAt i 1
  match openBlock k1.algorithm k1.material i.input with
  | none => fails stVerifyFail
  | some b =>
    match mapHeader (strength k1.algorithm) 2 b with
    | none => fails stKeyUsage
    | some r =>
      if variantFits r.usage r.algorithm r.algParams then
        createResult s i.slice (hSlot (dHandle i.desc 0)) (withTplPart s (tplOf i.desc) r)
      else fails stKeyUsage

/-- KEY_EXPORT_BLOCK (R255): the key block of the record at position 0 under the key at position 1. -/
def fnKeyExport (i : FnIn) (r : Rnd) : Result × Rnd :=
  let k := keyAt i 0
  let p := keyAt i 1
  if k.cls ≠ 0 ∨ k.exportab = chr 'N' ∨ i.exportGrant = false ∨ strength p.algorithm < strength k.algorithm then
    (fails stPolicyExport, r)
  else
    let (pad, r) := rndGen r (blockPad p.algorithm k.material.length)
    ({ status := stOk, ext := buildBlock p.algorithm p.material (headerFields k) 0 [] k.material pad }, r)

/-- R239: exportability may move from `a` to `b`. -/
def exportMoves (a b : Nat) : Bool := a == b || (a == chr 'S' && (b == chr 'E' || b == chr 'N')) || (a == chr 'E' && b == chr 'N')

/-- R254: a template narrows a record under source 0x03. -/
def narrows (r : KeyRecord) (t : Bytes) : Bool :=
  let m := tplMode t
  (m == r.mode || (r.mode == chr 'B' && (m == chr 'D' || m == chr 'E')) || (r.mode == chr 'C' && (m == chr 'G' || m == chr 'V'))) &&
  (tplExpire t == r.expireAtReset || (tplExpire t && !r.counted && !tplCounted t)) &&
  (!r.counted || (tplCounted t && decide (leAt t 8 4 ≤ r.usesLeft))) &&
  (!r.windowed || (tplWindowed t && decide (r.validFrom ≤ leAt t 16 8) && decide (leAt t 24 8 ≤ r.validUntil)))

/-- R254: the template keeps what every rewrite keeps. -/
def rewriteKeeps (r : KeyRecord) (t : Bytes) : Bool :=
  tplAlg t == r.algorithm && tplUsage t == r.usage && combinationOk (tplUsage t) (tplMode t) (tplAlg t) &&
    cut t 32 16 == r.algParams && exportMoves r.exportab (tplExport t)

/-- Slots that hold a pending record, and those for which a transaction in progress writes one (R251). -/
def pendingCount (s : State) : Nat :=
  s.kst.pendings.length +
    (s.kst.marks.filter (fun m => !m.2.flipped && m.2.writes.any (fun w => !w.newDir.ext && w.oldDir.pend == 0 && w.newDir.pend != 0))).length

/-- The status with which a rewrite of a slot fails now: retired, in a change, pending held or pending limit
(R246, R250, R251, R261). -/
def rewriteStatus (s : State) (slot activateAt : Nat) : Status :=
  if retired s slot then stCounterExhausted
  else if changeOn s slot || (pendingView s slot).isSome || (decide (activateAt ≠ 0) && decide (65536 ≤ pendingCount s)) then
    stKeySlotBusy
  else stOk

/-- KEY_REWRITE (R254). -/
def fnKeyRewrite (s : State) (i : FnIn) (gen : Nat) (r : Rnd) : Result × Rnd :=
  let t := tplOf i.desc
  let k := keyAt i 0
  let slot := hSlot (dHandle i.desc 0)
  let src := byteAt i.desc 112
  let at_ := leAt i.desc 120 8
  let st := rewriteStatus s slot at_
  let done := fun (n : KeyRecord) =>
    if st = stOk then ({ status := stOk, out := createOut n, keys := [.rewrite slot gen src n at_] } : Result) else fails st
  if src = 2 then
    let k1 := keyAt i 1
    match openBlock k1.algorithm k1.material i.input with
    | none => (fails stVerifyFail, r)
    | some b =>
      match mapHeader (strength k1.algorithm) 2 b with
      | none => (fails stKeyUsage, r)
      | some n =>
        if rewriteKeeps k t && n.algorithm == k.algorithm && n.cls == k.cls && n.usage == k.usage && n.algParams == k.algParams &&
            n.mode == tplMode t && n.exportab == tplExport t then (done (withTplPart s t n), r)
        else (fails stKeyUsage, r)
  else if !rewriteKeeps k t then (fails stKeyUsage, r)
  else if src = 1 then
    if !secretTplOk t || k.cls != 0 then (fails stKeyUsage, r)
    else if st ≠ stOk then (fails st, r)
    else
      let (m, r) := rndGen r (tplKeyLen t)
      (done (recOfTpl s t 0 1 m), r)
  else if !narrows k t then (fails stKeyUsage, r)
  else
    let n := withTplPart s t { k with mode := tplMode t, exportab := tplExport t }
    (done { n with resetEpoch := if k.expireAtReset then k.resetEpoch else n.resetEpoch }, r)

/-- KEY_ERASE (R235, R248). `gen` is `none` for a damaged slot. -/
def fnKeyErase (s : State) (i : FnIn) (gen : Option Nat) : Result :=
  let slot := hSlot (dHandle i.desc 0)
  let imm := byteAt i.desc 64 == 2
  if changeOn s slot then fails stKeySlotBusy
  else match gen with
    | none => { status := stOk, keys := [.eraseDamaged slot] }
    | some g =>
      if !imm && (pendingView s slot).isSome then fails stKeySlotBusy
      else { status := stOk, keys := [.erase slot g imm] }

/-- Bytes 16 to 23 of a record's body (Table 2 of the key-store chapter). -/
def recHead (r : KeyRecord) : Bytes :=
  [BitVec.ofNat 8 r.algorithm, BitVec.ofNat 8 r.cls] ++ beBytes 2 r.usage ++ [BitVec.ofNat 8 r.mode, BitVec.ofNat 8 r.exportab,
    (if r.counted then 1 else 0) ||| (if r.expireAtReset then 2 else 0) ||| (if r.windowed then 4 else 0) |||
      (if r.pending then 8 else 0), BitVec.ofNat 8 r.provenance]

/-- KEY_READ_ATTR (Table 10). -/
def fnKeyReadAttr (i : FnIn) : Result :=
  let r := keyAt i 0
  returns (recHead r ++ leBytes 4 r.generation ++ leBytes 4 r.usesLeft ++ leBytes 8 r.validFrom ++ leBytes 8 r.validUntil)

/-- KEY_ACTIVATE_AT (R251). -/
def fnKeyActivateAt (s : State) (i : FnIn) (gen : Nat) : Result :=
  let slot := hSlot (dHandle i.desc 0)
  if changeOn s slot || (pendingView s slot).isNone then fails stKeySlotBusy
  else
    match byteAt i.desc 64 with
    | 1 => { status := stOk, keys := [.setActivate slot gen (leAt i.desc 72 8)] }
    | 2 => { status := stOk, keys := [.dropPending slot gen] }
    | _ => { status := stOk, keys := [.cutNow slot gen] }

/-- KEY_CHECK_VALUE (R253). Binding has refused algorithms without a check value. -/
def fnKeyCheckValue (i : FnIn) : Result :=
  match checkValue (keyAt i 0).algorithm (keyAt i 0).material with
  | some v => returns v
  | none => fails stKeyUsage

/-- A slice's log on an MRAM die. -/
def logOf (m : Mram) (n : Nat) : TxnLog := sget (fun _ => {}) m.logs n

/-- The transaction has a log entry: a request made it, and its commit writes a frame (R257, R258). -/
def isLogged (x : Mark) : Bool := !x.writes.isEmpty && (match x.kind with | .step _ => true | _ => false)

/-- Log entries still held in FLIPPED marks, for a slice: log position and client_seq. -/
def logMarks (s : State) (n : Nat) : List (Nat × Nat) :=
  ((s.kst.marks.map (·.2)).filter (fun m => m.flipped && m.sliceNo == n && isLogged m)).map
    (fun m => (m.logPos, m.clientSeq % 2 ^ 24))

/-- R258: what KEY_TXN_QUERY answers, as it stands at the activation of the query. An entry of the log whose position a mark
holds has left the window. -/
def txnQuery (s : State) (sliceNo seq : Nat) : Bytes :=
  let l := logOf (mramOf s (curDie s)) sliceNo
  let marks := logMarks s sliceNo
  let logged := l.entries.filter (fun e => marks.all (fun m => m.1 != e.1))
  let found := (marks ++ logged).any (fun e => e.2 == seq % 2 ^ 24)
  [if found then 1 else 0, 0, 0, 0] ++ leBytes 4 (marks.length + logged.length)

/-- KEY_BLOCK_VERIFY (R255). -/
def fnKeyBlockVerify (i : FnIn) : Result :=
  verdict (openBlock (keyAt i 0).algorithm (keyAt i 0).material i.input).isSome

end Sys2Proof.Machine
end

