-- ==== Sys2Proof/Machine/PkFns.lean ====
section
/-!
DEFINITION. Public-key functions (R267 to R294): signatures, OAEP, agreement and encapsulation, key pairs, the TR-34
and hybrid transports, and attestation.
-/
namespace Sys2Proof.Machine

/-! ### Scalars -/

/-- A scalar from 1 to n − 1 by the rejection sampling of FIPS 186-5: a draw of the bits of n that is at most n − 2, plus 1
(R276, R282). -/
def drawScalar (fuel : Nat) (c : Curve) (r : Rnd) : Nat × Rnd :=
  match fuel with
  | 0 => (1, r)
  | f + 1 =>
    let (b, r) := rndGen r c.len
    let v := ofBe b % 2 ^ (c.n.log2 + 1)
    if r.dry then (1, r) else if v + 2 ≤ c.n then (v + 1, r) else drawScalar f c r

/-- An ECDSA signature r ‖ s with a fresh per-message secret, and whether its check holds. -/
def ecdsaDraw (fuel : Nat) (c : Curve) (d : Nat) (digest : Bytes) (r : Rnd) : Bytes × Bool × Rnd :=
  match fuel with
  | 0 => (zeros (2 * c.len), false, r)
  | f + 1 =>
    let (k, r) := drawScalar 1000 c r
    let (x, y) := ecdsaSign c d k digest
    if r.dry then (zeros (2 * c.len), false, r)
    else if x = 0 ∨ y = 0 then ecdsaDraw f c d digest r
    else (beBytes c.len x ++ beBytes c.len y, ecdsaHolds c d k digest x y, r)

/-! ### Signatures (R274 to R276) -/

/-- R275: the scheme fits the key's algorithm. -/
def schemeFits (scheme alg : Nat) : Bool :=
  match scheme with
  | 1 => isRsa alg
  | 2 => isRsa alg
  | 3 => isEc alg
  | 4 => alg == 0x58
  | _ => isDsa alg

/-- The length of a key's signatures. -/
def sigLength (alg : Nat) : Nat :=
  if isRsa alg then rsaLen alg
  else match curveOf alg with
    | some c => 2 * c.len
    | none => if alg = 0x58 then 64 else dsaSigLen alg

/-- The hash of a request and the digest it signs. -/
def signDigest (d msg : Bytes) : Hash × Bytes :=
  let h := (hashOf (byteAt d 65)).getD .sha256
  (h, if byteAt d 66 = 1 then msg else hash h msg)

/-- The ML-DSA context of a request. -/
def signCtx (d : Bytes) : Bytes := cut d 96 (byteAt d 67)

/-- PK_SIGN (R274 to R276). -/
def fnPkSign (i : FnIn) (r : Rnd) : Result × Rnd :=
  let k := keyAt i 0
  let sch := byteAt i.desc 64
  let (h, dg) := signDigest i.desc i.input
  if !schemeFits sch k.algorithm then (fails stKeyUsage, r)
  else if sch ≤ 2 then
    let key := rsaKeyOf k.algorithm k.material
    let n := rsaLen k.algorithm
    let sign := fun (em : Bytes) =>
      let y := rsaPriv key (ofBe em)
      ({ status := stOk, ext := beBytes n y, holds := rsaHolds key (ofBe em) y } : Result)
    if sch = 1 then (sign (emsaPkcs h dg n), r)
    else
      let (salt, r) := rndGen r (hashLen h)
      (sign (emsaPss h dg salt n), r)
  else if sch = 3 then
    match curveOf k.algorithm with
    | some c =>
      let (sg, ok, r) := ecdsaDraw 10 c (ofBe k.material) dg r
      ({ status := stOk, ext := sg, holds := ok }, r)
    | none => (fails stKeyUsage, r)
  else if sch = 4 then
    let sg := edSign k.material i.input
    ({ status := stOk, ext := sg, holds := edHolds k.material i.input sg }, r)
  else
    let (rnd, r) := rndGen r 32
    let sg := mlDsaSign k.algorithm k.material (signCtx i.desc) i.input rnd
    ({ status := stOk, ext := sg, holds := mlDsaVerify k.algorithm (mlDsaPublic k.algorithm k.material) (signCtx i.desc) i.input sg }, r)

/-- PK_VERIFY (R271, R275). -/
def fnPkVerify (i : FnIn) : Result :=
  let k := keyAt i 0
  let sch := byteAt i.desc 64
  let n := i.input.length - leAt i.desc 68 2
  let msg := i.input.take n
  let sg := i.input.drop n
  let (h, dg) := signDigest i.desc msg
  if !schemeFits sch k.algorithm then fails stKeyUsage
  else if sch ≤ 2 then
    let len := rsaLen k.algorithm
    let (m, e) := rsaPubOf k.algorithm k.material
    let em := beBytes len (powMod (ofBe sg) e m)
    verdict (sg.length == len && decide (ofBe sg < m) && (if sch = 1 then em == emsaPkcs h dg len else pssOk h dg em))
  else if sch = 3 then
    match curveOf k.algorithm with
    | some c =>
      verdict (sg.length == 2 * c.len && ecdsaOk c (beAt k.material 0 c.len, beAt k.material c.len c.len) dg (beAt sg 0 c.len) (beAt sg c.len c.len))
    | none => fails stKeyUsage
  else if sch = 4 then verdict (edOk k.material msg sg)
  else verdict (sg.length == dsaSigLen k.algorithm && mlDsaVerify k.algorithm k.material (signCtx i.desc) msg sg)

/-! ### Encryption (R277) -/

/-- PK_ENCRYPT. -/
def fnPkEncrypt (i : FnIn) (r : Rnd) : Result × Rnd :=
  let k := keyAt i 0
  let n := rsaLen k.algorithm
  if within 1 (n - 66) i.input.length then
    let (seed, r) := rndGen r 32
    let (m, e) := rsaPubOf k.algorithm k.material
    ({ status := stOk, ext := beBytes n (powMod (ofBe (oaepEncode i.input seed n)) e m) }, r)
  else (fails stPkeInput, r)

/-- PK_DECRYPT. -/
def fnPkDecrypt (i : FnIn) : Result :=
  let k := keyAt i 0
  let n := rsaLen k.algorithm
  let key := rsaKeyOf k.algorithm k.material
  if i.input.length = n ∧ ofBe i.input < key.p * key.q then
    let y := rsaPriv key (ofBe i.input)
    let res := match oaepDecode (beBytes n y) with
      | some m => returnsAny m
      | none => fails stPkeInput
    { res with holds := rsaHolds key (ofBe i.input) y }
  else fails stPkeInput

/-! ### Agreement and encapsulation (R278 to R280) -/

/-- R278: the key that Z yields for a request's template and other_info. -/
def kasKey (d z : Bytes) : Bytes :=
  let fixed := ascii "SUNDIEN KAS" ++ cut d 64 1 ++ cut d 66 2 ++ cut d 68 1 ++ cut d 113 (byteAt d 112)
  (hash .sha384 (beBytes 4 1 ++ z ++ fixed) ++ hash .sha384 (beBytes 4 2 ++ z ++ fixed)).take (tplKeyLen (tplOf d))

/-- The target key that a shared secret creates. -/
def kasResult (s : State) (i : FnIn) (z ext : Bytes) : Result :=
  createResult s i.slice (hSlot (dHandle i.desc 0)) (recOfTpl s (tplOf i.desc) 0 1 (kasKey i.desc z)) ext

/-- The result of an agreement whose shared point fails its check: nothing derived from it is released (R269). -/
def noSecret : Result := { status := stOk, holds := false }

/-- ECDH_DERIVE (R279). -/
def fnEcdhDerive (s : State) (i : FnIn) : Result :=
  let k := keyAt i 1
  if !secretTplOk (tplOf i.desc) then fails stKeyUsage
  else match curveOf k.algorithm with
    | some c =>
      match ptOfBytes c i.input with
      | some q =>
        match ecdhZ c (ofBe k.material) q with
        | some z => kasResult s i z []
        | none => noSecret
      | none => fails stPkeInput
    | none => fails stKeyUsage

/-- KEM_ENCAPS (R280). -/
def fnKemEncaps (s : State) (i : FnIn) (r : Rnd) : Result × Rnd :=
  if !secretTplOk (tplOf i.desc) then (fails stKeyUsage, r)
  else
    let pos := dHandle i.desc 1 != noHandle
    let ek := if pos then (keyAt i 1).material else i.input
    match kemOfLen ek.length with
    | some set =>
      if pos || mlKemKeyOk set ek then
        let st := createStatus s i.slice (hSlot (dHandle i.desc 0)) 1
        if st ≠ stOk then (fails st, r)
        else
          let (m, r) := rndGen r 32
          (kasResult s i (mlKemSecret ek m) (mlKemCipher set ek m), r)
      else (fails stPkeInput, r)
    | none => (fails stPkeInput, r)

/-- KEM_DECAPS (R280). -/
def fnKemDecaps (s : State) (i : FnIn) : Result :=
  let k := keyAt i 1
  if !secretTplOk (tplOf i.desc) then fails stKeyUsage
  else if i.input.length = kemCtLen k.algorithm then kasResult s i (mlKemDecaps k.algorithm k.material i.input) []
  else fails stPkeInput

/-! ### Key pairs (R281, R282) -/

/-- R281: template and pub_mode of KEY_PAIR_GENERATE. -/
def pairTplOk (d : Bytes) : Bool :=
  let t := tplOf d
  let u := tplUsage t
  let m := tplMode t
  let pm := byteAt d 113
  (isRsa (tplAlg t) || isEc (tplAlg t) || tplAlg t == 0x58 || isKem (tplAlg t) || isDsa (tplAlg t)) && tplExport t == chr 'N' &&
  combinationOk u m (tplAlg t) &&
  ((u == usage2 "S0" && m == chr 'S' && pm == chr 'V') ||
   (u == usage2 "D1" && ((m == chr 'D' && pm == chr 'E') || (m == chr 'X' && pm == chr 'X'))))

/-- Slots of the private and, where asked, the public group. -/
def pairSlots (d : Bytes) : Nat :=
  let a := byteAt d 64
  1 + extNeeded a 1 + (if byteAt d 112 = 1 then 1 + extNeeded a 2 else 0)

/-- One Miller–Rabin round on an odd number `w` = 1 + 2^`twos` · `rest` with the base `b`: it may be prime. -/
def mrPasses (w twos rest b : Nat) : Bool :=
  let z := powMod b rest w
  z == 1 || (List.range twos).any (fun j => powMod z (2 ^ j) w == w - 1)

/-- Factors of two of a number. -/
def twosOf (fuel v : Nat) : Nat :=
  match fuel with
  | 0 => 0
  | f + 1 => if v % 2 = 0 then 1 + twosOf f (v / 2) else 0

/-- `n` Miller–Rabin rounds with bases drawn from the DRBG; a base outside 2 to w − 2 is drawn again. -/
def mrRounds (fuel n w len : Nat) (r : Rnd) : Bool × Rnd :=
  match fuel, n with
  | 0, _ => (false, r)
  | _, 0 => (true, r)
  | f + 1, m + 1 =>
    let (x, r) := rndGen r len
    let b := ofBe x
    let t := twosOf (8 * len) (w - 1)
    if r.dry then (false, r)
    else if b ≤ 1 ∨ w - 1 ≤ b then mrRounds f (m + 1) w len r
    else if mrPasses w t ((w - 1) / 2 ^ t) b then mrRounds f m w len r else (false, r)

/-- Miller–Rabin rounds of a candidate: no fewer than FIPS 186-5 asks for at any of the three sizes (log entry 7). -/
def mrCount : Nat := 5

/-- An RSA prime of `len` bytes by the method of FIPS 186-5 for probable primes, at least √2 · 2^(8·len − 1), with p − 1 prime to
e, and for the second prime not too close to the first. -/
def drawPrime (fuel len : Nat) (first : Option Nat) (r : Rnd) : Nat × Rnd :=
  match fuel with
  | 0 => (0, r)
  | f + 1 =>
    let (x, r) := rndGen r len
    let c := ofBe x / 2 * 2 + 1
    let apart := match first with | none => true | some p => decide (2 ^ (8 * len - 100) < (p - c) + (c - p))
    if r.dry then (0, r)
    else if c * c < 2 ^ (16 * len - 1) ∨ apart = false ∨ Nat.gcd (c - 1) 65537 ≠ 1 then drawPrime f len first r
    else
      let (ok, r) := mrRounds 1000 mrCount c len r
      if ok then (c, r) else drawPrime f len first r

/-- A private key's material. -/
def drawPrivate (alg : Nat) (r : Rnd) : Bytes × Rnd :=
  if isRsa alg then
    let n := rsaLen alg
    let (p, r) := drawPrime (80 * n) (n / 2) none r
    let (q, r) := drawPrime (160 * n) (n / 2) (some p) r
    (beBytes (n / 2) p ++ beBytes (n / 2) q ++ beBytes 4 65537, r)
  else match curveOf alg with
    | some c =>
      let (k, r) := drawScalar 1000 c r
      (beBytes c.len k, r)
    | none =>
      if isKem alg then
        let (a, r) := rndGen r 32
        let (b, r) := rndGen r 32
        (a ++ b, r)
      else rndGen r 32

/-- KEY_PAIR_GENERATE. -/
def fnKeyPair (s : State) (i : FnIn) (r : Rnd) : Result × Rnd :=
  let d := i.desc
  let t := tplOf d
  let slot := hSlot (dHandle d 0)
  if !pairTplOk d then (fails stKeyUsage, r)
  else
    let st := createStatus s i.slice slot (pairSlots d)
    if st ≠ stOk then (fails st, r)
    else
      let (mat, r) := drawPrivate (tplAlg t) r
      let pub := publicForm (tplAlg t) mat
      let priv := recOfTpl s t 1 1 mat
      let pubRec := { recOfTpl s t 2 1 pub with mode := byteAt d 113 }
      let next := slot + 1 + extNeeded (tplAlg t) 1
      ({ status := stOk, out := zeros 8, ext := pub,
         keys := [.create slot priv] ++ (if byteAt d 112 = 1 then [.create next pubRec] else []) }, r)

/-! ### TR-34 (R284 to R286) -/

/-- A time lies from NT − max_age to NT + 5 s. -/
def ageOk (nt t maxAge : Nat) : Bool := decide (nt ≤ t + maxAge * 1000000000) && decide (t ≤ nt + 5000000000)

/-- An RSA signature by PKCS #1 v1.5 (scheme 1) or PSS (scheme 2) verifies under a public key. -/
def rsaVerifies (scheme : Nat) (h : Hash) (alg : Nat) (pub dg sg : Bytes) : Bool :=
  let len := rsaLen alg
  let (m, e) := rsaPubOf alg pub
  let em := beBytes len (powMod (ofBe sg) e m)
  sg.length == len && decide (ofBe sg < m) && (if scheme = 1 then em == emsaPkcs h dg len else pssOk h dg em)

/-- The KDH certificate verifies under the record at position 2, which issued it directly (Table 7). -/
def certVerifies (ca : KeyRecord) (c : Config.Cert) : Bool :=
  match hashOf c.hash with
  | none => false
  | some h =>
    if c.scheme = 3 then
      match curveOf ca.algorithm with
      | some cv => ecdsaOk cv (beAt ca.material 0 cv.len, beAt ca.material cv.len cv.len) (hash h c.signed) (beAt c.signature 0 cv.len)
          (beAt c.signature cv.len cv.len) && c.signature.length == 2 * cv.len
      | none => false
    else within 1 2 c.scheme && isRsa ca.algorithm && rsaVerifies c.scheme h ca.algorithm ca.material (hash h c.signed) c.signature

/-- The token signature verifies under the certificate's RSA key, over attributes that name the content's digest (SHA-256). -/
def tokenVerifies (t : Config.Token) : Bool :=
  within 1 2 t.scheme && isRsa t.cert.alg && t.digest == hash .sha256 t.content &&
    rsaVerifies t.scheme .sha256 t.cert.alg t.cert.key (hash .sha256 t.attrs) t.signature

/-- The content of a token under the KRD key, by RSAES-OAEP and CBC with AES or three-key TDES, and whether the private operation
passes its check; none where a length, a padding or the algorithm is wrong. The last byte gives the number of padding bytes. -/
def tokenContent (krd : KeyRecord) (t : Config.Token) : Option Bytes × Bool :=
  let n := rsaLen krd.algorithm
  let key := rsaKeyOf krd.algorithm krd.material
  if t.wrapped.length ≠ n ∨ key.p * key.q ≤ ofBe t.wrapped then (none, true)
  else
    let y := rsaPriv key (ofBe t.wrapped)
    let out := (oaepDecode (beBytes n y)).bind (fun cek =>
      let c := cipherOf t.cipher cek
      let clear := cbcDec c t.iv t.body
      let pad := byteAt clear (clear.length - 1)
      if (isAes t.cipher || t.cipher == 0x11) && some cek.length == secretLen t.cipher && t.iv.length == blockLen c &&
          !t.body.isEmpty && t.body.length % blockLen c == 0 && within 1 (blockLen c) pad &&
          clear.drop (clear.length - pad) == List.replicate pad (BitVec.ofNat 8 pad) then
        some (clear.take (clear.length - pad))
      else none)
    (out, rsaHolds key (ofBe t.wrapped) y)

/-- Steps 1 to 3 of TR34_IMPORT (R285): the status with which they end, ST_OK where they pass. -/
def tokenStatus (i : FnIn) (t : Config.Token) : Status :=
  let d := i.desc
  let one := byteAt d 112 == 2
  if !certVerifies (keyAt i 2) t.cert then stPkeInput
  else if !i.trusted then stTimeUntrusted
  else if i.nt < t.cert.notBefore ∨ t.cert.notAfter < i.nt then stPkeInput
  else if !tokenVerifies t then stPkeInput
  else if !one && t.random != cut d 96 16 then stPkeInput
  else if one && !ageOk i.nt t.time (leAt d 114 2) then stPkeInput
  else if 4096 < t.body.length then stPkeInput
  else stOk

/-- TR34_IMPORT. -/
def fnTr34Import (s : State) (i : FnIn) : Result :=
  let krd := keyAt i 1
  match Config.tokenOf i.input with
  | none => fails stPkeInput
  | some t =>
    let st := tokenStatus i t
    if st ≠ stOk then fails st
    else
      let (clear, ok) := tokenContent krd t
      let res := match clear.bind (fun c => Config.contentOf c t.attrs) with
        | none => fails stPkeInput
        | some (h, opts, key) =>
          match mapHeader (strength krd.algorithm) 3 ⟨h, opts, key⟩ with
          | some r =>
            if r.cls = 0 ∧ variantFits r.usage r.algorithm r.algParams = true then
              createResult s i.slice (hSlot (dHandle i.desc 0)) (withTplPart s (tplOf i.desc) r)
            else fails stKeyUsage
          | none => fails stKeyUsage
      { res with holds := ok }

/-- TR34_EXPORT (Table 7): AES-256 in CBC, RSAES-OAEP under position 2, RSASSA-PKCS1-v1_5 with SHA-256 under position 1. -/
def fnTr34Export (i : FnIn) (r : Rnd) : Result × Rnd :=
  let k := keyAt i 0
  let sg := keyAt i 1
  let krd := keyAt i 2
  let cert := Config.certOf i.input
  if k.exportab = chr 'N' ∨ i.exportGrant = false ∨ strength krd.algorithm < strength k.algorithm then (fails stPolicyExport, r)
  else if cert.map (fun c => (c.alg, c.key)) ≠ some (sg.algorithm, publicForm sg.algorithm sg.material) then (fails stPkeInput, r)
  else
    let (cek, r) := rndGen r 32
    let (seed, r) := rndGen r 32
    let (drawn, r) := rndGen r 16
    let iv := padTo 16 (Config.contentIv (cek ++ seed ++ drawn))
    let fields := headerFields k
    let (m, e) := rsaPubOf krd.algorithm krd.material
    let wrapped := beBytes (rsaLen krd.algorithm) (powMod (ofBe (oaepEncode cek seed (rsaLen krd.algorithm))) e m)
    let clear := Config.contentBytes fields k.material i.input drawn
    let pad := 16 - clear.length % 16
    let body := cbcEnc (.aes cek) iv (clear ++ List.replicate pad (BitVec.ofNat 8 pad))
    let env := Config.envelopeBytes krd.material wrapped iv body
    let attrs := Config.attrBytes (hash .sha256 env) fields (cut i.desc 96 20) i.nt
    let key := rsaKeyOf sg.algorithm sg.material
    let em := ofBe (emsaPkcs .sha256 (hash .sha256 attrs) (rsaLen sg.algorithm))
    let y := rsaPriv key em
    ({ status := stOk, holds := rsaHolds key em y,
       ext := (Config.tokenBytes i.input env attrs (beBytes (rsaLen sg.algorithm) y)).take 8192 }, r)

/-! ### The hybrid transport block (R287 to R290) -/

/-- R287: recipient_id of an encapsulation key and a P-384 public key. -/
def recipientId (ek pt : Bytes) : Bytes := (hash .sha384 (ek ++ [0x04] ++ pt)).take 16

/-- R288: the key block protection key. -/
def hybridKbpk (zKem zEcdh rid created nonce eph ct : Bytes) : Bytes :=
  (hash .sha384 (beBytes 4 1 ++ zKem ++ zEcdh ++ ascii "SUNDIEN HTB1" ++ [0x01] ++ rid ++ created ++ nonce ++
    hash .sha384 (eph ++ ct))).take 32

/-- TRANSPORT_HYBRID_SEAL. -/
def fnHybridSeal (i : FnIn) (r : Rnd) : Result × Rnd :=
  let k := keyAt i 0
  let ek := (keyAt i 1).material
  let pt := (keyAt i 2).material
  if k.exportab = chr 'N' ∨ i.exportGrant = false ∨ 192 < strength k.algorithm then (fails stPolicyExport, r)
  else
    let (e, r) := drawScalar 1000 p384 r
    let (m, r) := rndGen r 32
    let (nonce, r) := rndGen r 16
    let eph := ptBytes p384 (ptMul p384 e (basePt p384))
    let zx := ecdhZ p384 e (beAt pt 0 48, beAt pt 48 48)
    let ct := mlKemCipher 0x61 ek m
    let rid := recipientId ek pt
    let created := beBytes 8 i.nt
    let kbpk := hybridKbpk (mlKemSecret ek m) (zx.getD []) rid created nonce eph ct
    let (pad, r) := rndGen r (blockPad 0x22 k.material.length)
    let kb := buildBlock 0x22 kbpk (headerFields k) 0 [] k.material pad
    ({ status := stOk, holds := zx.isSome,
       ext := ascii "SHTB" ++ [0x01, 0x01] ++ beBytes 2 (1235 + kb.length) ++ rid ++ created ++ nonce ++ eph ++ ct ++
        beBytes 2 kb.length ++ kb }, r)

/-- TRANSPORT_HYBRID_OPEN. -/
def fnHybridOpen (s : State) (i : FnIn) : Result :=
  let b := i.input
  let kem := keyAt i 1
  let ec := keyAt i 2
  let kbLen := beAt b 1233 2
  let maxAge := leAt i.desc 112 2
  if b.length < 1236 ∨ 2259 < b.length ∨ b.take 4 ≠ ascii "SHTB" ∨ byteAt b 4 ≠ 1 ∨ byteAt b 5 ≠ 1 ∨ beAt b 6 2 ≠ b.length ∨
      1235 + kbLen ≠ b.length ∨ cut b 8 16 ≠ recipientId (publicForm 0x61 kem.material) (publicForm 0x51 ec.material) then
    fails stPkeInput
  else match ptOfBytes p384 (cut b 48 97) with
    | none => fails stPkeInput
    | some q =>
      if maxAge ≠ 0 ∧ i.trusted = false then fails stTimeUntrusted
      else if maxAge ≠ 0 ∧ ageOk i.nt (beAt b 24 8) maxAge = false then fails stPkeInput
      else match ecdhZ p384 (ofBe ec.material) q with
      | none => noSecret
      | some zx =>
        let kbpk := hybridKbpk (mlKemDecaps 0x61 kem.material (cut b 145 1088)) zx (cut b 8 16) (cut b 24 8) (cut b 32 16)
          (cut b 48 97) (cut b 145 1088)
        match openBlock 0x22 kbpk (b.drop 1235) with
        | none => fails stPkeInput
        | some ob =>
          match mapHeader 256 4 ob with
          | some r =>
            if r.cls = 0 ∧ variantFits r.usage r.algorithm r.algParams = true then
              createResult s i.slice (hSlot (dHandle i.desc 0)) (withTplPart s (tplOf i.desc) r)
            else fails stKeyUsage
          | none => fails stKeyUsage

/-! ### Identity and attestation (R265, R291 to R294) -/

/-- The KDF of SP 800-108 in counter mode with CMAC-AES-256: `n` bytes (R265). -/
def kdf108 (key : Bytes) (label : String) (ctx : Bytes) (n : Nat) : Bytes :=
  (((List.range (ceilDiv n 16)).map (fun j =>
    cmac (.aes key) (beBytes 4 (j + 1) ++ ascii label ++ [0] ++ ctx ++ beBytes 4 (8 * n)))).flatten).take n

/-- The fused secret (words 8 to 18, R478). -/
def fusedSecret (s : State) : Bytes :=
  ((List.range 10).map (fun i => beBytes 3 (fuseVal s (8 + i)).1)).flatten ++ beBytes 2 ((fuseVal s 18).1 % 65536)

/-- The module serial (words 19 to 24, R478). -/
def moduleSerial (s : State) : Bytes := (((List.range 6).map (fun i => beBytes 3 (fuseVal s (19 + i)).1)).flatten).take 16

/-- The P-384 identity scalar: 448 derived bits, reduced (R291). -/
def identityScalar (s : State) : Nat := ofBe (kdf108 (fusedSecret s) "IDENTITY" [0x01] 56) % (p384.n - 1) + 1

/-- The seed of the ML-DSA-87 identity key (R291). -/
def identitySeed (s : State) : Bytes := kdf108 (fusedSecret s) "IDENTITY" [0x02] 32

/-- R292: a subject key identifier. -/
def skiOf (pub : Bytes) : Bytes := (hash .sha384 pub).take 20

/-- owner_fp of an owner root (R293): the leftmost 16 bytes of a derived key of 32. -/
def ownerFpOf (root : Bytes) : Bytes := (kdf108 root "OWNER FP" [] 32).take 16

/-- The start measurements of a die as one digest (R490). -/
def bootDigest (s : State) (d : Die) : Bytes := hash .sha384 ((List.range 8).map (measVal s d)).flatten

/-- The first 176 bytes of a statement. -/
def statementHead (s : State) (i : FnIn) (kind pubLen : Nat) : Bytes :=
  let d := curDie s
  ascii "SATS" ++ [0x01, BitVec.ofNat 8 kind] ++ beBytes 2 pubLen ++ moduleSerial s ++
    skiOf (ptBytes p384 (ptMul p384 (identityScalar s) (basePt p384))) ++ skiOf (mlDsaPublic 0x6A (identitySeed s)) ++
    [BitVec.ofNat 8 (lifeCode s.life.state), BitVec.ofNat 8 (dieNo d), 0, 0] ++
    beBytes 4 ((if (match d with | .d0 => s.vault.boot0.slot | .d1 => s.vault.boot1.slot) = 0 then (mramOf s d).slotA else (mramOf s d).slotB).version) ++
    beBytes 8 i.nt ++ (match s.life.state, s.vault.ownerRoot with | .owned, some root => ownerFpOf root | _, _ => zeros 16) ++
    cut i.desc 64 32 ++ bootDigest s d

/-- A statement body with both signatures. -/
def signStatement (s : State) (body : Bytes) (r : Rnd) : Result × Rnd :=
  let (sg, ok, r) := ecdsaDraw 10 p384 (identityScalar s) (hash .sha384 body) r
  let (rnd, r) := rndGen r 32
  let dsa := mlDsaSign 0x6A (identitySeed s) (ascii "SUNDIEN ATTEST") body rnd
  ({ status := stOk, ext := body ++ sg ++ dsa,
     holds := ok && mlDsaVerify 0x6A (mlDsaPublic 0x6A (identitySeed s)) (ascii "SUNDIEN ATTEST") body dsa }, r)

/-- ATTEST_KEY (R293, R294). -/
def fnAttestKey (s : State) (i : FnIn) (r : Rnd) : Result × Rnd :=
  let k := keyAt i 0
  let pub := if k.cls = 1 then publicForm k.algorithm k.material else if k.cls = 2 then k.material else []
  let head := recHead k
  let body := statementHead s i 1 pub.length ++ beBytes 2 k.owner ++ beBytes 4 (hSlot (dHandle i.desc 0)) ++ beBytes 4 k.generation ++
    head ++ beBytes 4 k.usesLeft ++ beBytes 8 k.validFrom ++ beBytes 8 k.validUntil ++
    padTo 5 ((checkValue k.algorithm k.material).getD []) ++ zeros 37 ++ pub
  signStatement s body r

/-- ATTEST_MODULE (R293, R294). -/
def fnAttestModule (s : State) (i : FnIn) (r : Rnd) : Result × Rnd :=
  signStatement s (statementHead s i 2 0 ++ zeros 80) r

end Sys2Proof.Machine
end

