-- ==== Sys2Proof/Machine/Sealed.lean ====
section
/-!
DEFINITION. The bytes of the MRAM dies: the regions of an MRAM die (R22), records and frames in their byte form (R232, R236,
R243, R262), and the sealing of a frame under the current root (R233, R265).
-/
namespace Sys2Proof.Machine

/-! ### The regions of an MRAM die (R22, Table 3) -/

/-- Regions of Table 3. -/
inductive MramRegion | keyStore | journal | slotA | slotB | capture | directory | spare | reserved
deriving DecidableEq, Repr

/-- Offset and size of each region. -/
def mramMap : List (MramRegion × Nat × Nat) :=
  [(.keyStore, 0x00000000, 0x80000000), (.journal, 0x80000000, 0x20000000), (.slotA, 0xA0000000, 0x8000000),
   (.slotB, 0xA8000000, 0x8000000), (.capture, 0xB0000000, 0x20000000), (.directory, 0xD0000000, 0x10000000),
   (.spare, 0xE0000000, 0x8000000), (.reserved, 0xE8000000, 0x18000000)]

/-- The region in which an offset of an MRAM die stands, if it stands in the die. -/
def mramRegionAt (off : Nat) : Option MramRegion :=
  (mramMap.find? (fun e => decide (e.2.1 ≤ off) && decide (off < e.2.1 + e.2.2))).map (·.1)

/-- The region of a 4 KiB sector. -/
def sectorRegion (n : Nat) : Option MramRegion := mramRegionAt (4096 * n)

/-- Offsets of a slot's home frame (R262), a journal record, a shadow frame, a slice's transaction log and its head (Table 9). -/
def homeOffset (slot : Nat) : Nat := 0x100 * slot
def journalOffset (n : Nat) : Nat := 0x80000000 + 64 * n
def shadowOffset (n : Nat) : Nat := 0xDC101000 + 256 * n
def logOffset (slice : Nat) : Nat := 0xD0000000 + 0x30000 * slice
def logHeadOffset (slice : Nat) : Nat := 0xDC000000 + 4 * slice

/-- Sectors of a die whose contents a spare may take: every sector but the spares themselves. -/
def mayReplace (n : Nat) : Bool :=
  match sectorRegion n with
  | some .spare | none => false
  | some _ => true

/-! ### Directory words and records as bytes -/

/-- A directory word (R262). -/
def dirWord (d : Dir) : Nat :=
  d.shadowA.getD 0 + d.shadowB.getD 0 * 2 ^ 18 + d.cur % 4 * 2 ^ 36 + d.pend % 4 * 2 ^ 38 + (if d.occupied then 2 ^ 40 else 0) +
    (if d.ext then 2 ^ 41 else 0) + (if d.damaged then 2 ^ 42 else 0)

/-- Bytes 16 to 239 of a frame before they are enciphered: a primary record (Table 2), an extension record (R243), or a
tombstone, which holds its last generation where a record holds its generation (log entry 53). -/
def bodyBytes : FrameBody → Bytes
  | .never => zeros 224
  | .primary r =>
    recHead r ++ leBytes 4 r.generation ++ leBytes 2 r.owner ++ leBytes 2 r.matLen ++ leBytes 1 r.extCount ++ zeros 3 ++
      leBytes 4 r.usesLeft ++ leBytes 4 r.resetEpoch ++ zeros 4 ++ leBytes 8 r.validFrom ++ leBytes 8 r.validUntil ++
      leBytes 8 r.nonceCtr ++ leBytes 8 r.activateAt ++ padTo 16 r.algParams ++ padTo 144 r.material
  | .extension p g m => leBytes 4 p ++ leBytes 4 g ++ padTo 216 m
  | .tombstone g => zeros 8 ++ leBytes 4 g ++ zeros 212

/-- The kind of a frame in byte 1 (Table 1). -/
def bodyKind : FrameBody → Nat
  | .never => 0
  | .primary _ => 1
  | .extension _ _ _ => 2
  | .tombstone _ => 3

/-- Byte 2 of a frame: which extension of its group a slot holds. -/
def extIndex (slot : Nat) : FrameBody → Nat
  | .extension p _ _ => slot - p
  | _ => 0

/-- Bytes 0 to 9 of a sealed frame: format, root and kind, extension index, seal number (Table 1). -/
def frameHead (rootId slot sealNo : Nat) (b : FrameBody) : Bytes :=
  leBytes 1 1 ++ leBytes 1 (rootId + 16 * bodyKind b) ++ leBytes 1 (extIndex slot b) ++ leBytes 7 sealNo

/-! ### Sealing (R233, R265) -/

/-- K_enc and K_mac of a root (R265). -/
def encKey (root : Bytes) (rootId : Nat) : Bytes := kdf108 root "KREC ENC" [BitVec.ofNat 8 rootId] 32
def macKey (root : Bytes) (rootId : Nat) : Bytes := kdf108 root "KREC MAC" [BitVec.ofNat 8 rootId] 32

/-- Counter block j of a frame (R233). -/
def sealCounter (sealNo slot j : Nat) : Bytes := leBytes 7 sealNo ++ leBytes 4 slot ++ zeros 4 ++ leBytes 1 j

/-- The 14 blocks of key stream of a frame. -/
def sealStream (key : Bytes) (sealNo slot : Nat) : Bytes :=
  ((List.range 14).map (fun j => aesEnc key (sealCounter sealNo slot j))).flatten

/-- The tag of a frame: it covers the slot, so a frame is valid only in the slot that it serves. -/
def sealTag (key : Bytes) (slot : Nat) (head body : Bytes) : Bytes := cmac (.aes key) (leBytes 4 slot ++ head ++ body)

/-- Bytes 0 to 9, the enciphered body and the tag of a frame sealed for a slot under a root. -/
def sealImage (root : Bytes) (rootId slot sealNo : Nat) (b : FrameBody) : Bytes :=
  let head := frameHead rootId slot sealNo b
  let body := xorB (bodyBytes b) (sealStream (encKey root rootId) sealNo slot)
  head ++ body ++ sealTag (macKey root rootId) slot head body

/-- A frame sealed for a slot under the root in force, with a seal number. -/
def sealedFrame (s : State) (slot sealNo : Nat) (b : FrameBody) : Frame :=
  { rootId := s.kst.rootId, sealNo := sealNo, body := b, image := sealImage s.kst.rootKey s.kst.rootId slot sealNo b }

/-- The 256 bytes of a sealed frame: a home frame carries its slot's directory word, a shadow frame zeros (Table 1). -/
def frameBytes (f : Frame) (d : Option Dir) : Bytes :=
  if f.body = .never then zeros 256
  else f.image.take 10 ++ leBytes 6 ((d.map dirWord).getD 0) ++ f.image.drop 10

/-- The tag of a frame verifies in a slot under a root (R233). -/
def tagVerifies (root : Bytes) (slot : Nat) (f : Frame) : Bool :=
  f.image.drop 234 == sealTag (macKey root f.rootId) slot (f.image.take 10) (cut f.image 10 224)

/-! ### Capture entries (R518) -/

/-- The keys of capture entries under a root. -/
def rplEncKey (root : Bytes) (rootId : Nat) : Bytes := kdf108 root "RPL ENC" [BitVec.ofNat 8 rootId] 32
def rplMacKey (root : Bytes) (rootId : Nat) : Bytes := kdf108 root "RPL MAC" [BitVec.ofNat 8 rootId] 32

/-- Bytes 0 to 63 of a capture entry (Table 6 of the Gauge chapter). -/
def captureHead (e : Capture) : Bytes :=
  leBytes 2 1 ++ leBytes 2 e.sliceNo ++ leBytes 2 e.opcode ++
    leBytes 1 ((if e.complete then 1 else 0) + (if e.ranAhead then 2 else 0) + (if e.deleted then 4 else 0)) ++ zeros 1 ++
    leBytes 8 e.seq ++ leBytes 8 e.actNt ++ ((List.range 4).map (fun p => leBytes 4 (e.gens.getD p 0))).flatten ++ leBytes 8 e.counter ++
    leBytes 1 e.pinGrants ++ leBytes 1 e.pinScreenMin ++ leBytes 2 e.input.length ++ leBytes 2 e.drbg.flatten.length ++
    leBytes 2 e.status.toNat ++ zeros 8

/-- Bytes 64 to 8,175 before they are enciphered. -/
def captureBody (e : Capture) : Bytes := padTo 128 e.desc ++ padTo 4096 e.input ++ padTo 3888 e.drbg.flatten

/-- The 507 blocks of key stream of an entry. -/
def captureStream (key : Bytes) (seq : Nat) : Bytes :=
  ((List.range 507).map (fun j => aesEnc key (leBytes 8 seq ++ zeros 4 ++ leBytes 4 j))).flatten

/-- The tag of an entry covers its header and its enciphered bytes. -/
def captureTag (key : Bytes) (e : Capture) (body : Bytes) : Bytes := cmac (.aes key) (captureHead e ++ body)

/-- An entry sealed under a root. The sealed part of an entry that is not complete is zero. -/
def sealCapture (root : Bytes) (rootId : Nat) (e : Capture) : Capture :=
  let body := if e.complete then xorB (captureBody e) (captureStream (rplEncKey root rootId) e.seq) else zeros 8112
  { e with image := body ++ captureTag (rplMacKey root rootId) e body }

/-- An entry whose slice is deleted: flag [2] is set, and the tag follows it (R519). -/
def captureDeleted (root : Bytes) (rootId : Nat) (e : Capture) : Capture :=
  let e := { e with deleted := true }
  { e with image := e.image.take 8112 ++ captureTag (rplMacKey root rootId) e (e.image.take 8112) }

/-- The entry opens under a root: its tag verifies. -/
def captureOpens (root : Bytes) (rootId : Nat) (e : Capture) : Bool :=
  e.intact && e.image.drop 8112 == captureTag (rplMacKey root rootId) e (e.image.take 8112)

end Sys2Proof.Machine
end

