-- ==== Sys2Proof/Machine/Request.lean ====
section
/-!
DEFINITION. Parsing of a head in its fetch slot (R107, R108, R114, R321, R551, R552): the checks of a request in their
fixed order over every step of a chain, the scatter lists, the ceremony parameter blocks, and the charge (R111 to R113).
-/
namespace Sys2Proof.Machine

/-! ### Parsing checks of one step -/

/-- Reserved bits of the descriptor header are zero (R89, R90). -/
def headerClean (d : Bytes) : Bool :=
  decide (leAt d 2 2 < 8) && decide (byteAt d 4 / 8 % 2 = 0) && decide (byteAt d 4 < 128) &&
    decide (byteAt d 5 < 16) && decide (byteAt d 6 < 8)

/-- The chain and guard rules of a step at offset `j` of its chain (R107, R108). -/
def chainRuleOk (descs : List Bytes) (j : Nat) (d : Bytes) : Bool :=
  let h := descs.headD []
  dIndex d == j && dLast d == dLast h && dPrio d == dPrio h &&
  (dLast h == 0 || (match opRow (dOp d) with | some r => r.chain | none => false)) &&
  (if dGuarded d then
     decide (dGuard d < j) &&
       (match descs[dGuard d]? with
        | some g => (match opRow (dOp g) with | some r => r.guard | none => false) && !dGuarded g
        | none => false)
   else dGuard d == 0)

/-- The handle arrangement and generations of a step (R99, R100, R231). -/
def handlesOk (d : Bytes) : Bool :=
  match opRow (dOp d) with
  | none => false
  | some r => (List.range 4).all (fun p =>
      let h := dHandle d p
      if h = noHandle then decide (r.need ≤ p)
      else decide (p < r.need + r.opt) && hGen h != 0x7FFFFFFF && (!isTarget (dOp d) p || hGen h == 0))

/-- The data reference of a step names a scatter list. -/
def hasList (d : Bytes) : Bool := dRef d != 0 && dRef d % 16 == 0

/-- The data reference of a step names a buffer table. -/
def hasTable (d : Bytes) : Bool := dRef d % 16 == 1

/-- The form of the data reference, and whether the opcode takes it (R92). -/
def dataRefOk (d : Bytes) : Bool :=
  let f := dataForm (dOp d)
  if dRef d = 0 then dSgCount d == 0
  else if dRef d % 16 = 0 then
    within 1 16 (dSgCount d) && f != .none && decide (dRef d + 16 * dSgCount d - 1 < 2 ^ 64)
  else if dRef d % 16 = 1 then dSgCount d == 0 && f == .bulk
  else false

/-- One scatter-list entry (Table 2). -/
def sgEntryOf (e : Bytes) : SgEntry :=
  { addr := leAt e 0 8, len := (if leAt e 8 3 = 0 then 16777216 else leAt e 8 3), out := byteAt e 12 % 2 == 1 }

/-- R552: no reserved bit is set and no segment wraps. -/
def sgEntryOk (e : Bytes) : Bool :=
  byteAt e 11 == 0 && decide (leAt e 12 4 < 2) && decide ((sgEntryOf e).addr + (sgEntryOf e).len - 1 < 2 ^ 64)

/-- The entries of a step's list as read. -/
def sgRaw (d : Bytes) (r : HostRead) : List Bytes :=
  if hasList d then chunks 16 (padTo (16 * dSgCount d) (r.list.getD [])) else []

/-- Total length of segments. -/
def sgBytes (l : List SgEntry) : Nat := (l.map (·.len)).foldl (· + ·) 0

def sgIn (l : List SgEntry) : List SgEntry := l.filter (fun e => !e.out)
def sgOut (l : List SgEntry) : List SgEntry := l.filter (fun e => e.out)

/-- The length stage of a step: its length fields, its input and, for an opcode without output segments, its list. -/
def stepLengthsOk (d : Bytes) (sg : List SgEntry) : Bool :=
  lengthsOk (dOp d) d (sgBytes (sgIn sg)) && (dataForm (dOp d) != .inOnly || (sgOut sg).isEmpty)

/-! ### Parameter blocks (R300, R305, R321) -/

/-- One roster entry of a block (Table 1 of the ceremony chapter). -/
def rosterEntryOf (e : Bytes) : RosterEntry :=
  { card := byteAt e 1 % 2 == 1, remote := byteAt e 1 / 2 % 2 == 1, cardFp := cut e 8 32, remoteFp := cut e 40 32 }

/-- The roster that a block spells. -/
def rosterOf (b : Bytes) : Roster :=
  { m := byteAt b 0, entries := (List.range (byteAt b 1)).map (fun j => rosterEntryOf (cut b (8 + 72 * j) 72)) }

/-- Non-zero fingerprints of a roster entry. -/
def entryFps (e : RosterEntry) : List Bytes := [e.cardFp, e.remoteFp].filter (fun f => !allZero f)

/-- No fingerprint stands twice in a list of entries. -/
def fpsDistinct : List RosterEntry → Bool
  | [] => true
  | e :: r => r.all (fun x => (entryFps e).all (fun f => !(entryFps x).contains f)) && fpsDistinct r

/-- One entry of a roster block keeps Table 1. -/
def rosterEntryOk (j : Nat) (e : Bytes) : Bool :=
  byteAt e 0 == j && within 1 3 (byteAt e 1) && allZero (cut e 2 6) &&
    (byteAt e 1 % 2 == 1 || allZero (cut e 8 32)) && (byteAt e 1 / 2 == 1 || allZero (cut e 40 32))

/-- A roster block keeps R299 and R300. -/
def rosterOk (b : Bytes) : Bool :=
  let n := byteAt b 1
  decide (2 ≤ byteAt b 0) && decide (byteAt b 0 ≤ n) && decide (n ≤ 16) && allZero (cut b 2 6) && b.length == 8 + 72 * n &&
    (List.range n).all (fun j => rosterEntryOk j (cut b (8 + 72 * j) 72)) && fpsDistinct (rosterOf b).entries

/-- The 10 binding bytes: port mask, zero, PASID A, PASID B (R63; log entry 12). -/
def bindingOk (b : Bytes) : Bool :=
  within 1 3 (byteAt b 0) && byteAt b 1 == 0 && decide (leAt b 2 4 < 2 ^ 20) && decide (leAt b 6 4 < 2 ^ 20) &&
    (byteAt b 0 % 2 == 1 || leAt b 2 4 == 0) && (byteAt b 0 / 2 == 1 || leAt b 6 4 == 0)

/-- The key range of a slice: 8,388,608 slots (R230; log entry 12). -/
def keyRangeOk (b : Bytes) : Bool := decide (leAt b 0 4 + leAt b 4 4 ≤ 8388608)

/-- Every bit of a grant word names an opcode of the catalogue; class 0x08 is ignored (R327). -/
def grantsOk (c w : Nat) : Bool :=
  c == 8 || (List.range 64).all (fun b => !w.testBit b || (opRow (c * 256 + b)).isSome)

/-- A policy record in its ranges (R327). -/
def policyOk (b : Bytes) : Bool :=
  byteAt b 0 == 1 && decide (byteAt b 1 ≤ byteAt b 2) && decide (byteAt b 2 ≤ 7) && decide (byteAt b 3 < 4) &&
    decide (byteAt b 4 < 16) && decide (byteAt b 5 < 4) && within 1 1024 (leAt b 6 2) && within 8 4096 (leAt b 8 2) &&
    allZero (cut b 10 2) && within 64 32768 (leAt b 12 4) && within 1024 1048576 (leAt b 16 4) &&
    within 1000 819200000 (leAt b 20 4) && decide (leAt b 24 4 ≤ leAt b 20 4) && allZero (cut b 28 4) &&
    (List.range 10).all (fun c => grantsOk c (leAt b (32 + 8 * c) 8)) && allZero (cut b 112 16) && b.length == 128

/-- The policy that a record spells. -/
def policyOf (b : Bytes) : Policy :=
  { prioHigh := byteAt b 1, prioLow := byteAt b 2, exportGrant := byteAt b 3 % 2 == 1, replayCapture := byteAt b 3 / 2 % 2 == 1,
    pinGrants := byteAt b 4, pinScreenMin := byteAt b 5, weight := leAt b 6 2, ctxQuota := leAt b 8 2, cellQuota := leAt b 12 4,
    depth := leAt b 16 4, rate := leAt b 20 4, minRate := leAt b 24 4,
    grants := (List.range 10).map (fun c => BitVec.ofNat 64 (leAt b (32 + 8 * c) 8)) }

/-- A record with replay capture is refused while policy bit 1 forbids it (R484). -/
def captureAllowed (s : State) (p : Policy) : Bool := !p.replayCapture || !(policyForbid s).testBit 1

/-- R128: a decimalisation table. -/
def decTableOk (m : Bytes) : Bool :=
  m.length == 16 && m.all (fun b => decide (b.toNat ≤ 9)) && (List.range 10).all (fun v => m.contains (BitVec.ofNat 8 v))

/-- R129: a weak-PIN list. -/
def weakListOk (m : Bytes) : Bool :=
  m.length == 97 && decide (byteAt m 0 ≤ 32) && (List.range 32).all (fun j =>
    let e := cut m (1 + 3 * j) 3
    if j < byteAt m 0 then runShape e && within 4 6 (digitRun e).length else e == [0xFF, 0xFF, 0xFF])

/-- An object of usage 61 to 64 keeps the rule of its usage (R128, R129, R150, R206). -/
def objectOk (usage : Nat) (m : Bytes) : Bool :=
  if usage = 61 then decTableOk m else if usage = 62 then weakListOk m else if usage = 63 then profileOk m
  else if usage = 64 then domainOk m else false

/-- A handle in a parameter block: slot range and generation 0 (R99, R231). -/
def blockHandleOk (b : Bytes) : Bool := leAt b 0 8 != noHandle && hGen (leAt b 0 8) == 0

/-- A template for COMPONENT_ENTRY names a secret key of TDES or AES (R316). -/
def componentTplOk (t : Bytes) : Bool := secretTplOk t && (isTdes (tplAlg t) || isAes (tplAlg t))

/-- A template for OBJECT_ENTRY: an object without key functions (Table 5 of the key-store chapter). -/
def objectTplOk (t : Bytes) (usage : Nat) : Bool :=
  tplAlg t == 0xF0 && tplMode t == chr 'N' && tplUsage t == usage && within 61 64 usage

/-- The layout of the parameter block of an action (Table 2, R392, R472, R520). -/
def blockLayoutOk (s : State) (action : Nat) (b : Bytes) : Bool :=
  match action with
  | 0x01 => rosterOk b && (rosterOf b).entries.all (fun e => e.card)
  | 0x02 => if s.life.state = .shipped then rosterOk b else b.isEmpty
  | 0x03 => b.isEmpty
  | 0x04 => decide (leAt b 0 2 ≤ 1024) && rosterOk (b.drop 2)
  | 0x10 => decide (leAt b 0 2 < 1024) && bindingOk (cut b 2 10) && keyRangeOk (cut b 12 8) && rosterOk (b.drop 20)
  | 0x11 => b.length == 2 && decide (leAt b 0 2 < 1024)
  | 0x12 => b.length == 12 && decide (leAt b 0 2 < 1024) && bindingOk (cut b 2 10)
  | 0x13 => decide (leAt b 0 2 < 1024) && policyOk (b.drop 2) && captureAllowed s (policyOf (b.drop 2))
  | 0x20 => b.length == 56 && blockHandleOk b && tplOk (cut b 8 48)
  | 0x21 => decide (58 < b.length) && blockHandleOk b && tplOk (cut b 8 48) &&
      (!objectTplOk (cut b 8 48) (leAt b 56 2) || objectOk (leAt b 56 2) (b.drop 58))
  | 0x30 => b.length == 48
  | 0x31 => (byteAt b 0 == 6 && byteAt b 1 == 0 && beAt b 2 2 == 3469 && b.length == 4 + 3469) ||
      (byteAt b 0 == 7 && byteAt b 1 == 0 && beAt b 2 2 == 0 && b.length == 4)
  | 0x32 => b.length == 8 && decide (byteAt b 0 ≤ 1) && decide (byteAt b 1 ≤ 1) && decide (byteAt b 2 ≤ 1) && byteAt b 3 == 0 &&
      within 1024 16777216 (leAt b 4 4) && leAt b 4 4 % 64 == 0
  | 0x40 => b.length == 8 && within 28 31 (byteAt b 0) && allZero (cut b 1 3) && within 1 65536 (leAt b 4 4)
  | _ => false

/-- The template of a block is one that Table 5 permits. -/
def blockTemplateOk (action : Nat) (b : Bytes) : Bool :=
  match action with
  | 0x20 => componentTplOk (cut b 8 48)
  | 0x21 => objectTplOk (cut b 8 48) (leAt b 56 2)
  | _ => true

/-! ### Charges (R111 to R113) -/

/-- The algorithm that decides the charge of a BNL opcode of a slice with `n` bytes of input: the template's for a pair
generation, the one of the encapsulation key that the input holds where position 1 is empty, else that of the slice's own
record that the key position names now. -/
def chargeAlg (s : State) (sliceNo : Nat) (d : Bytes) (n : Nat) : Nat :=
  let op := dOp d
  let pos := if op = 0x0601 ∨ op = 0x0602 ∨ op = 0x0603 ∨ op = 0x0604 then 0 else 1
  let h := dHandle d pos
  if op = 0x0605 then byteAt d 64
  else if h = noHandle then (kemOfLen n).getD 0
  else if hSlice h ≠ sliceNo ∨ inRange (sliceOf s sliceNo) (hSlot h) = false then 0
  else match slotView s (hSlot h) with
    | .held r => if r.owner = sliceNo then r.algorithm else 0
    | _ => 0

/-- The charge of a step of a slice with `n` bytes of input. -/
def stepCharge (s : State) (sliceNo : Nat) (d : Bytes) (n : Nat) : Nat :=
  match opRow (dOp d) with
  | none => 0
  | some r => match r.kind with
    | .fixed => r.wu
    | .per256 => r.wu + r.plus * units256 n
    | .perKib => r.wu + r.plus * ceilDiv n 1024
    | .per64k => r.wu + r.plus * ceilDiv (leAt d 72 8) 65536
    | .bnl col => r.wu + (bnlCharge (chargeAlg s sliceNo d n) col).getD (Config.bnlChargeUnknown (dOp d))

/-! ### The order of checks at parsing (R114) -/

/-- What parsing decides of a head. -/
structure Parsed where
  status : Status := stOk
  sg     : List (List SgEntry) := []
  blocks : List Bytes := []
  charges : List Nat := []
deriving DecidableEq, Repr

/-- The first failing check of a list of checks, each made of every step before the next. -/
def firstFail : List (Bool × Status) → Status
  | [] => stOk
  | (bad, st) :: r => if bad then st else firstFail r

/-- The parameter block that the parsing of a step reads. -/
def blockOf (d : Bytes) (r : HostRead) : Bytes := if dOp d = 0x0801 then r.block.getD [] else []

/-- The checks that come before the scatter lists are read. -/
def earlyStatus (descs : List Bytes) : Status :=
  let ix := (List.range descs.length).zip descs
  firstFail
    [(descs.any (fun d => (opRow (dOp d)).isNone), stOpcode),
     (ix.any (fun e => !(headerClean e.2 && inlineClean (dOp e.2) e.2 && chainRuleOk descs e.1 e.2)), stFormat),
     (descs.any (fun d => !handlesOk d), stFormat),
     (descs.any (fun d => !dataRefOk d), stFormat),
     (descs.any (fun d => !inlineFmt (dOp d) d), stFormat)]

/-- Parsing of a head of one or more descriptors with what the host answered. -/
def parseHead (s : State) (sliceNo : Nat) (descs : List Bytes) (reads : List HostRead) : Parsed :=
  let ix := (List.range descs.length).zip descs
  let rdOf := fun j => reads.getD j ⟨none, none⟩
  let raw := ix.map (fun e => sgRaw e.2 (rdOf e.1))
  let sgs := raw.map (fun l => l.map sgEntryOf)
  let sgAt := fun j => sgs.getD j []
  let inLen := fun j => sgBytes (sgIn (sgAt j))
  let blk := fun (e : Nat × Bytes) => cut (blockOf e.2 (rdOf e.1)) 0 (inLen e.1)
  let opens := ix.filter (fun e => dOp e.2 == 0x0801)
  let early := earlyStatus descs
  let st := if early ≠ stOk then early else firstFail
    [(ix.any (fun e => hasList e.2 && (rdOf e.1).list.isNone), stDataFetch),
     (raw.any (fun l => l.any (fun e => !sgEntryOk e)), stFormat),
     (ix.any (fun e => !stepLengthsOk e.2 (sgAt e.1)), stLength),
     (opens.any (fun e => decide (0 < inLen e.1) && (rdOf e.1).block.isNone), stDataFetch),
     (opens.any (fun e => !blockLayoutOk s (byteAt e.2 66) (blk e)), stFormat),
     (opens.any (fun e => !blockTemplateOk (byteAt e.2 66) (blk e)), stKeyUsage),
     (descs.any (fun d => dDeadline d != 0 && decide (s.nt.ns + 10000000000 < dDeadline d)), stDeadlineRange)]
  { status := st, sg := sgs, blocks := ix.map blk, charges := ix.map (fun e => stepCharge s sliceNo e.2 (inLen e.1)) }

/-! ### Steps that never run ahead (R351) -/

/-- A step of Table 1 of the speculation chapter. -/
def neverAhead (d : Bytes) : Bool :=
  match dOp d with
  | 0x0101 => byteAt d 65 != 0
  | 0x0301 => byteAt d 67 != 0
  | 0x0504 => byteAt d 112 == 1
  | 0x0601 => byteAt d 64 == 2 || byteAt d 64 == 3 || byteAt d 64 == 5
  | op => [0x0104, 0x0304, 0x0501, 0x0503, 0x0604, 0x0605, 0x0607, 0x0612, 0x0613, 0x0621, 0x0702, 0x0703].contains op

/-- Pool cells of a step (R323). -/
def stepCells (sgCount : Nat) : Nat := 3 + ceilDiv sgCount 4

end Sys2Proof.Machine
end

