-- ==== Sys2Proof/Machine/StepOps.lean ====
section
/-!
DEFINITION. Operations on admitted steps: ready lists, core slots, Eddy entries, trace items, marks, and the ways in which
a step ends early (R81, R248, R335 to R341, R352 to R362).
-/
namespace Sys2Proof.Machine

/-! ### Chains -/

/-- The context of a step's key, and the key of a step. -/
def ctxOf (k : Nat) : Nat := k / 8
def stepKey (ctx index : Nat) : Nat := ctx * 8 + index

/-- The step has committed. -/
def isCommitted (t : Step) : Bool := t.phase == .committed

/-- Every earlier step of the chain has committed. A step that is no longer held has committed. -/
def earlierDone (s : State) (t : Step) : Bool :=
  s.conf.steps.all (fun e => e.2.admitSeq != t.admitSeq || decide (t.index ≤ e.2.index) || isCommitted e.2)

/-- The key of the step at an index of a chain, if it is held. -/
def chainKey (s : State) (admitSeq index : Nat) : Option Nat :=
  (s.conf.steps.find? (fun e => e.2.admitSeq == admitSeq && e.2.index == index)).map (·.1)

/-- The step may run ahead of its guard: Table 1 does not list it and no earlier hand-over deferred it (R350, R352). -/
def mayRunAhead (t : Step) : Bool :=
  dGuarded t.desc && !dNoSpec t.desc && !t.sequential && !neverAhead t.desc && !t.deferred && t.guardOk.isNone

/-- The stream or the ceremony whose order binds the step (R224, R312): kind 1 stream, 2 ceremony. -/
def orderKey (t : Step) : Option (Nat × Nat) :=
  match dOp t.desc with
  | 0x0412 | 0x0413 => some (1, leAt t.desc 64 4)
  | 0x0802 | 0x0803 | 0x0804 | 0x0805 | 0x0806 => some (2, leAt t.desc 64 4)
  | _ => none

/-- No request admitted earlier on the same stream or ceremony is uncommitted. On a stream only segments count. -/
def orderFree (s : State) (t : Step) : Bool :=
  match orderKey t with
  | none => true
  | some o => s.conf.steps.all (fun e =>
      decide (t.admitSeq ≤ e.2.admitSeq) || isCommitted e.2 || orderKey e.2 != some o ||
        (o.1 == 1 && dOp e.2.desc != 0x0412))

/-! ### Ports (R94) -/

/-- A port moves data for PF1: its link is up and the function is not in reset (R79, R82). -/
def portMoves (s : State) (p : Port) : Bool := fnUp (portOf s p) 1 && !(portOf s p).flr

/-- The port through which a step's data moves: the port that carries its pair, or for a held pair a bound port whose link
is up, Port A first. -/
def stepPort (s : State) (t : Step) : Option Port :=
  let sl := sliceOf s t.sliceNo
  let carried := (codePort (ringOf s t.sliceNo t.pair).portNow).filter (portMoves s)
  match carried with
  | some p => some p
  | none => [Port.a, Port.b].find? (fun p => boundTo sl p && portMoves s p)

/-! ### Trace items (R340, R358, R514) -/

/-- Bits of the flags byte of a trace item. -/
def traceFlags (t : Step) : Nat :=
  (if t.ahead then 5 else 0) + (if t.deferred then 2 else 0) + (if t.sequential then 8 else 0)

/-- A trace item of a step. -/
def traceItem (s : State) (k : Nat) (t : Step) (kind unit slot : Nat) : Bytes :=
  leBytes 2 (dOp t.desc) ++ leBytes 2 kind ++ leBytes 4 (dTag t.desc) ++ leBytes 8 s.nt.ns ++ leBytes 2 t.sliceNo ++
    leBytes 1 (t.index + 16 * t.last) ++ leBytes 1 t.level ++ leBytes 4 (ctxOf k) ++ leBytes 2 unit ++ leBytes 1 slot ++
    leBytes 1 (traceFlags t) ++ leBytes 4 (if kind = 1 then t.charge else 0) ++ leBytes 1 t.pair ++ zeros 3 ++
    leBytes 4 (if kind = 1 then t.sqPos.toNat else 0) ++ zeros 8

/-- Writes the trace item of a decision about a step, or holds it while the step runs ahead. -/
def traceStep (s : State) (k : Nat) (kind unit slot : Nat) : State :=
  match stepOf s k with
  | none => s
  | some t =>
    let item := traceItem s k t kind unit slot
    if t.ahead && (kind == 2 || kind == 3 || kind == 4) then
      if t.heldTrace.length < 16 then setStep s k { t with heldTrace := t.heldTrace ++ [item] }
      else { s with conf := { s.conf with trace := { s.conf.trace with lost := min (s.conf.trace.lost + 1) 0xFFFFFFFF } } }
    else traceWrite s kind t.sliceNo item

/-- The items held for a step that ran ahead are written at its commit. -/
def traceRelease (s : State) (t : Step) : State :=
  t.heldTrace.foldl (fun s it => traceWrite s (leAt it 2 2) t.sliceNo it) s

/-! ### Ready lists (R335) -/

def setReady (s : State) (level : Nat) (l : List Nat) : State :=
  { s with conf := { s.conf with ready := sset (fun _ => []) s.conf.ready level l } }
def setBnl (s : State) (level : Nat) (l : List Nat) : State :=
  { s with conf := { s.conf with bnlReady := sset (fun _ => []) s.conf.bnlReady level l } }
def setPipeList (s : State) (level : Nat) (l : List Nat) : State :=
  { s with conf := { s.conf with pipeReady := sset (fun _ => []) s.conf.pipeReady level l } }

/-- A step's item enters the tail of its level's core ready list. -/
def pushReady (s : State) (k : Nat) : State :=
  match stepOf s k with
  | none => s
  | some t =>
    setReady (setStep s k { t with phase := .listed, listNt := s.nt.ns }) t.level (listOf s.conf.ready t.level ++ [k])

/-- A resume item enters the head of its level's core ready list (R337). -/
def pushResume (s : State) (k : Nat) : State :=
  match stepOf s k with
  | none => s
  | some t =>
    setReady (setStep s k { t with phase := .listed, listNt := s.nt.ns }) t.level (k :: listOf s.conf.ready t.level)

/-- A step's item leaves whichever list it stands on. -/
def offLists (s : State) (k : Nat) : State :=
  match stepOf s k with
  | none => s
  | some t =>
    let rm := fun (l : List Nat) => l.filter (fun x => x != k)
    setPipeList (setBnl (setReady s t.level (rm (listOf s.conf.ready t.level))) t.level (rm (listOf s.conf.bnlReady t.level)))
      t.level (rm (listOf s.conf.pipeReady t.level))

/-- The head of the most urgent non-empty list, at or below a level. -/
def headOfLists (m : List (Nat × List Nat)) : Option Nat :=
  (m.find? (fun e => !e.2.isEmpty)).bind (fun e => e.2.head?)

/-! ### Core slots and lanes (R336, R367) -/

/-- The words of a die's SRAM. -/
def sramOf (s : State) : Die → List (Nat × Word)
  | .d0 => s.sram0
  | .d1 => s.sram1

def setSram (s : State) (d : Die) (m : List (Nat × Word)) : State :=
  match d with
  | .d0 => { s with sram0 := m }
  | .d1 => { s with sram1 := m }

/-- A word of the SRAM, by its number, is scratch of some core; and scratch of one core (R394). -/
def isScratch (w : Nat) : Bool := decide (0x5000000 / 8 ≤ w) && decide (w < 0x5900000 / 8)
def isScratchOf (c w : Nat) : Bool := decide ((0x5000000 + c * 0x8000) / 8 ≤ w) && decide (w < (0x5000000 + (c + 1) * 0x8000) / 8)

/-- The lane of a core is zeroised, and the core's scratch with it. -/
def clearLane (s : State) (c : Nat) : State :=
  setLane (setSram s (curDie s) ((sramOf s (curDie s)).filter (fun e => !isScratchOf c e.1))) c {}

/-- The key schedule that a step loaded into its lane is zeroised, unless another step has loaded the lane since (R367). -/
def dropLane (s : State) (c k : Nat) : State := if (laneOf s c).loader = some k then clearLane s c else s

/-- A step that is ready leaves its executing slot; its lane keeps its key until the commit or the next load. -/
def vacate (s : State) (c : Nat) : State := setCore s c { coreOf s c with exec := none }

/-- A step leaves the slots of a core. -/
def leaveCore (s : State) (k : Nat) : State :=
  s.cores.foldl (fun s e =>
    let c := coreOf s e.1
    let s := if c.exec = some k then clearLane (setCore s e.1 { c with exec := none }) e.1 else s
    let c := coreOf s e.1
    if c.pre = some k then setCore s e.1 { c with pre := none } else s) s

/-! ### Eddy entries (R352 to R355) -/

/-- The entry that serves a step: core and entry number. -/
def entryOf (s : State) (k : Nat) : Option (Nat × Nat) :=
  (s.cores.findSome? (fun e =>
    ((List.range 4).find? (fun i => let x := e.2.eddy.getD i {}; x.mode != .free && x.step == k)).map (fun i => (e.1, i))))

/-- A free entry of a core. -/
def freeEntry (s : State) (c : Nat) : Option Nat :=
  (List.range 4).find? (fun i => ((coreOf s c).eddy.getD i {}).mode == .free)

def setEntry (s : State) (c i : Nat) (e : EddyEntry) : State :=
  setCore s c { coreOf s c with eddy := (coreOf s c).eddy.set i e }

/-- The step's entry moves to a state; a free entry serves no step. -/
def moveEntry (s : State) (k : Nat) (m : EddyMode) : State :=
  match entryOf s k with
  | some (c, i) => setEntry s c i (if m = .free then {} else ⟨m, k⟩)
  | none => s

/-! ### Mirror records (R426 to R428) -/

/-- A record is acknowledged: its sender no longer keeps it. -/
def mirrorDone (s : State) (n : Nat) : State :=
  { s with sw := { s.sw with recs := s.sw.recs.filter (fun r => r.seq != n) } }

/-- A record in the sender's keeping. -/
def mirrorRec (s : State) (n : Nat) : Option MirrorRec := s.sw.recs.find? (fun r => r.seq == n)

/-- The record that the standby die applies next: the oldest that it has not applied (R427, R429). -/
def mirrorNext (s : State) : Option MirrorRec := s.sw.recs.find? (fun r => !r.applied)

/-! ### Counting commits -/

/-- A commit is counted for its epoch (R512), and the active die has applied its number. -/
def countCommit (s : State) (seq : Nat) : State :=
  let s := { s with gauge := { s.gauge with epochCommits := s.gauge.epochCommits + 1 } }
  match activeDie s with
  | some d => setDie s d { dieOf s d with applied := max (dieOf s d).applied seq }
  | none => s

/-- The next commit sequence number is taken. Its commit NT, which `gauge.lastCommitNt` then holds, is NT now or the commit NT
of the number before it, whichever is larger (R415). -/
def takeCommit (s : State) : Nat × State :=
  (s.conf.commitSeq + 1,
   { s with conf := { s.conf with commitSeq := s.conf.commitSeq + 1 }
            gauge := { s.gauge with lastCommitNt := max s.nt.ns s.gauge.lastCommitNt } })

/-! ### Seal and open jobs (R339, R369) -/

/-- The pipeline runs a data pass whose commit has started it. -/
def passRuns (s : State) (i : Nat) : Bool :=
  match (pipeOf s i).running with
  | some k => s.passes.any (fun p => p.step == k && p.started)
  | none => false

/-- A running pass of a pipeline is suspended: it is counted, and the page event set. -/
def noteSuspend (s : State) (i : Nat) : State :=
  raise (bump s (pgStp (curDie s) i + 0x110) 0 32 1) (pgStp (curDie s) i) 1

/-- The pipeline that takes a seal or open job: the lowest-numbered in service that runs none. -/
def sealPipe (s : State) : Option Nat :=
  (List.range 5).find? (fun i => unitUp (dieOf s (curDie s)) 3 i && (pipeOf s i).sealing.isNone)

/-- A job starts on a pipeline, for 240 engine cycles (150 ns); a pass that runs there is suspended meanwhile. -/
def startJob (s : State) (i : Nat) (j : FrameJob) : State :=
  let s := if passRuns s i then noteSuspend s i else s
  setPipe s i { pipeOf s i with sealing := some (j, s.nt.ns + 150) }

/-- A job arrives: it starts on a pipeline, or waits where every pipeline in service runs one. The waiting is an event of every
pipeline in service (log entry 60). -/
def addJob (s : State) (j : FrameJob) : State :=
  match sealPipe s with
  | some i => startJob s i j
  | none =>
    let s := { s with conf := { s.conf with sealReady := s.conf.sealReady ++ [j] } }
    ((List.range 5).filter (fun i => unitUp (dieOf s (curDie s)) 3 i)).foldl (fun s i => raise s (pgStp (curDie s) i) 2) s

/-- Waiting jobs start, oldest first, while a pipeline is free. -/
def startJobs (n : Nat) (s : State) : State :=
  match n, s.conf.sealReady, sealPipe s with
  | m + 1, j :: r, some i => startJobs m (startJob { s with conf := { s.conf with sealReady := r } } i j)
  | _, _, _ => s

/-- Seal and open jobs that wait or run. -/
def allJobs (s : State) : List FrameJob :=
  s.conf.sealReady ++ s.pipes.filterMap (fun e => e.2.sealing.map (·.1))

/-- The jobs of a transaction that has ended do nothing any longer. -/
def voidJobs (s : State) (m : Nat) : State :=
  let ofMark : FrameJob → Bool := fun j => match j with | .sealWrite x _ => x == m | _ => false
  { s with
    conf := { s.conf with sealReady := s.conf.sealReady.filter (fun j => !ofMark j) }
    pipes := mmap (fun _ p => { p with sealing := p.sealing.map (fun e => if ofMark e.1 then (.void, e.2) else e) }) s.pipes }

/-! ### Key transactions that end before their commit (R259, R260) -/

/-- A mark is rolled back: old words stand, new frames are gone, the mark is free. -/
def dropMark (s : State) (m : Nat) : State :=
  match mget s.kst.marks m with
  | none => s
  | some x =>
    let s := voidJobs (onMram s (mramDies s) (undoMark x)) m
    { s with
      kst := { s.kst with marks := mdel s.kst.marks m }
      sw := { s.sw with recs := s.sw.recs.filter (fun r => r.body != .frame m) } }

/-! ### Engine jobs -/

/-- A step's job leaves its engine; the engine keeps the owner of that job (R272). -/
def leaveEngine (s : State) (k : Nat) : State :=
  s.engines.foldl (fun s e => if (engineOf s e.1).job = some k then setEngine s e.1 { engineOf s e.1 with job := none } else s) s

/-- The level of a step's data pass. -/
def passLevel (s : State) (k : Nat) : Nat :=
  match s.passes.find? (fun q => q.step == k) with
  | some q => q.level
  | none => 8

/-- The most urgent suspended pass of a pipeline runs again (R228). -/
def resumePipe (s : State) (i : Nat) : State :=
  let x := pipeOf s i
  match x.running with
  | some _ => s
  | none =>
    match x.suspended with
    | [] => s
    | k :: r =>
      let best := r.foldl (fun a b => if passLevel s b < passLevel s a then b else a) k
      setPipe s i { x with running := some best, suspended := x.suspended.filter (fun y => y != best) }

/-- A step has an accepted data pass. -/
def hasPass (s : State) (k : Nat) : Bool := s.passes.any (fun p => p.step == k)

/-- The pipeline takes a pass of a level now: it idles, or runs a less urgent one, and holds no pass of that level. -/
def pipeTakes (s : State) (i level : Nat) : Bool :=
  let x := pipeOf s i
  unitUp (dieOf s (curDie s)) 3 i && (x.running.toList ++ x.suspended).all (fun k => passLevel s k != level) && decide (x.suspended.length < 7) &&
    (match x.running with | none => true | some k => decide (level < passLevel s k))

/-- The pass runs on its pipeline; a running pass is suspended (R228, R370). -/
def startOn (s : State) (i k : Nat) : State :=
  let x := pipeOf s i
  match x.running with
  | none => setPipe s i { x with running := some k }
  | some j => noteSuspend (setPipe s i { x with running := some k, suspended := x.suspended ++ [j] }) i

/-- An accepted pass runs on a pipeline, from its first byte: a hand-over to it (R340). -/
def placeOn (s : State) (i k : Nat) : State :=
  let s := { s with passes := s.passes.map (fun p => if p.step = k then { p with pipe := i } else p) }
  traceStep (startOn s i k) k 4 i 0

/-- An accepted pass that has lost its pipeline goes to the lowest-numbered one that takes it, and waits at the head of its
level's list where none does (R228, R448). -/
def placePass (s : State) (k : Nat) : State :=
  match (List.range 5).find? (fun i => pipeTakes s i (passLevel s k)) with
  | some i => placeOn s i k
  | none => setPipeList s (passLevel s k) (k :: listOf s.conf.pipeReady (passLevel s k))

/-- Steps with a pass, the most urgent level first and in the order of acceptance within a level. -/
def byLevel (s : State) (ks : List Nat) : List Nat :=
  ((List.range 8).map (fun l => ks.filter (fun k => passLevel s k == l))).flatten

/-- Passes that have lost their pipelines are placed, the most urgent first. Those that must wait keep their order. -/
def placePasses (s : State) (ks : List Nat) : State :=
  let (s, waiting) := (byLevel s ks).foldl (fun (acc : State × List Nat) k =>
    if (List.range 5).any (fun i => pipeTakes acc.1 i (passLevel acc.1 k)) then (placePass acc.1 k, acc.2) else (acc.1, k :: acc.2)) (s, [])
  waiting.foldl placePass s

/-- A step's data pass ends: its pipeline zeroises its schedule and goes on with the next (R229, R370). -/
def dropPass (s : State) (k : Nat) : State :=
  match s.passes.find? (fun p => p.step == k) with
  | none => s
  | some q =>
    let s := { s with passes := s.passes.filter (fun p => p.step != k) }
    let x := pipeOf s q.pipe
    resumePipe (setPipe s q.pipe { x with running := x.running.filter (fun y => y != k), suspended := x.suspended.filter (fun y => y != k) }) q.pipe

/-! ### Ending a step (R81, R248, R361) -/

/-- A CEREMONY_CLOSE that took its ceremony to APPLYING and ends without its commit leaves the ceremony as it was before. -/
def undoClose (s : State) (k : Nat) (t : Step) : State :=
  if dOp t.desc = 0x0803 then
    match mget s.cer (leAt t.desc 64 4) with
    | some c =>
      if c.mode = .applying && c.closer == some k && c.toWrite.isEmpty then
        let s := { s with cer := mput s.cer (leAt t.desc 64 4) { c with mode := .quorate, closer := none } }
        if c.domain = 0 then wardenFree s else s
      else s
    | none => s
  else s

/-- The step's live state stands in a yield area: it has yielded, or its resume item waits (R337). -/
def holdsYield (t : Step) : Bool :=
  match t.phase with
  | .yielded => true
  | .listed | .prefetched _ => t.ran
  | _ => false

/-- A yield area is free again. -/
def freeYield (s : State) : State := { s with conf := { s.conf with yieldFree := s.conf.yieldFree + 1 } }

/-- A step stops what it does: it leaves its lists, its core and its engine, its mark is rolled back, and it holds no yield area
and no data pass. -/
def stopStep (s : State) (k : Nat) (t : Step) : State :=
  let s := leaveEngine (leaveCore (offLists s k) k) k
  let s := match t.mark with | some m => dropMark s m | none => s
  let s := undoClose s k t
  let s := if holdsYield t then freeYield s else s
  dropPass s k

/-- The step has ended early: only its commit is to come. -/
def hasEnded (s : State) (t : Step) : Bool :=
  match t.phase with
  | .ended => true
  | .inEddy c i => ((coreOf s c).eddy.getD i {}).mode == .scrub
  | _ => false

/-- The step ends now with a status. An Eddy entry that served it goes to SCRUB, and the step commits after the scrub. Its
reservations stay until that commit (R36, R362). -/
def endNow (s : State) (k : Nat) (st : Status) : State :=
  match stepOf s k with
  | none => s
  | some t =>
    let s := stopStep s k t
    let t' := { t with result := some (fails st), ending := none, mark := none, job := .none, bindWait := none, seedWait := none }
    match entryOf s k with
    | some (c, i) =>
      let s := setStep s k { t' with phase := .inEddy c i }
      bump (setEntry s c i ⟨.scrub, k⟩) (pgEdy (curDie s) c + 0x180) 32 32 1
    | none => setStep s k { t' with phase := .ended }

/-- Rank of a status that ends a step early (Table 3 of the speculation chapter). -/
def endRank (st : Status) : Nat :=
  if st = stSliceReset then 1 else if st = stKeyWithdrawn then 2 else if st = stGuardFailed then 3
  else if st = stChainHalted then 4 else 5

/-- The step is marked to end at its next boundary; an earlier cause of higher rank stands. -/
def endSoon (s : State) (k : Nat) (st : Status) : State :=
  match stepOf s k with
  | none => s
  | some t =>
    match t.ending with
    | some o => if endRank st < endRank o then setStep s k { t with ending := some st } else s
    | none => setStep s k { t with ending := some st }

/-- A step that has ended keeps its status unless the new cause ranks above it. -/
def endAgain (s : State) (k : Nat) (t : Step) (st : Status) : State :=
  match t.result with
  | some r => if endRank st < endRank r.status then setStep s k { t with result := some (fails st) } else s
  | none => s

/-- A cause that ends a step arrives: at once where the step runs nothing, at its next boundary where it runs. A step
whose commit sequence number is assigned is not reached. -/
def endStep (s : State) (k : Nat) (st : Status) : State :=
  match stepOf s k with
  | none => s
  | some t =>
    if t.seq.isSome || isCommitted t then s
    else match t.phase with
      | .executing _ | .prefetched _ => endSoon s k st
      | .yielded => if t.job = .running then endSoon s k st else endNow s k st
      | .inEddy c i =>
        if ((coreOf s c).eddy.getD i {}).mode = .scrub then
          endAgain s k t st
        else endNow s k st
      | .ended => endAgain s k t st
      | _ => endNow s k st

/-- The keys of the steps that a predicate accepts. -/
def stepsWhere (s : State) (p : Nat → Step → Bool) : List Nat := mkeys s.conf.steps p

/-- Every step that a predicate accepts ends with a status. -/
def endAll (s : State) (p : Nat → Step → Bool) (st : Status) : State :=
  (stepsWhere s p).foldl (fun s k => endStep s k st) s

/-! ### Re-execution (R341, R363, R441) -/

/-- An uncommitted step put back to the state it had at admission; its guard's outcome stays known. -/
def resetStep (s : State) (k : Nat) : State :=
  match stepOf s k with
  | none => s
  | some t =>
    let s := stopStep s k t
    let s := moveEntry s k .free
    setStep s k { t with
      phase := .parked, deferred := false, ahead := false, bound := [], bindWait := none, seedWait := none, trans := none
      accepted := false, inputDone := false, input := [], ran := false, result := none, job := .none, retries := 0
      ending := none, heldTrace := [], mark := none, seq := none }

/-- What held an uncommitted step is lost: the step is re-executed. In a squash of its slice it ends instead (R81, R363). -/
def loseStep (s : State) (k : Nat) : State :=
  match stepOf s k with
  | none => s
  | some t =>
    if t.seq.isSome || isCommitted t then s
    else if (sliceOf s t.sliceNo).mode = .squashing then endNow (moveEntry s k .free) k stSliceReset
    else resetStep s k

/-- A parked step enters its list when nothing holds it (R335): the order rules, its predecessor in sequential mode, and
its guard where it may not run ahead. -/
def mayEnter (s : State) (t : Step) : Bool :=
  t.phase == .parked && orderFree s t && (!t.sequential || earlierDone s t) &&
    (!dGuarded t.desc || t.guardOk.isSome || mayRunAhead t)

/-- Every parked step that nothing holds enters its list, in admission order. -/
def enterLists (s : State) : State :=
  let ks := stepsWhere s (fun _ t => mayEnter s t)
  let ordered := ks.foldl (fun (acc : List Nat) k =>
    let a := match stepOf s k with | some t => t.admitSeq * 8 + t.index | none => 0
    let before := fun x => match stepOf s x with | some t => decide (t.admitSeq * 8 + t.index ≤ a) | none => true
    acc.filter before ++ [k] ++ acc.filter (fun x => !before x)) []
  ordered.foldl pushReady s

end Sys2Proof.Machine
end

