-- ==== Sys2Proof/Machine/Bulk.lean ====
section
/-!
DEFINITION. Buffer tables, the buffer translation cache and streams (R215 to R226): looking a table page up, filling and
evicting pages, the entries of a table, stream identifiers and counter blocks.
-/
namespace Sys2Proof.Machine

/-! ### Streams (R220, R221) -/

/-- An open stream of a slice. -/
def streamOf (s : State) (sliceNo id : Nat) : Option Stream :=
  match mget s.streams id with
  | some x => if x.slice = sliceNo then some x else none
  | none => none

/-- The bulk mode of a step: its stream's, or its own. -/
def bulkMode (s : State) (t : Step) : Nat :=
  if dOp t.desc = 0x0412 then (match streamOf s t.sliceNo (leAt t.desc 64 4) with | some x => x.mode | none => 0)
  else byteAt t.desc 64

/-- The streams of slices: those that are open, and those of steps whose commit record has left: identifier and slice. -/
def takenStreams (s : State) : List (Nat × Nat) :=
  s.streams.map (fun e => (e.1, e.2.slice)) ++
    (s.conf.steps.map (fun e => match e.2.result with
      | some r => if e.2.seq.isSome && !isCommitted e.2 then
          r.effects.filterMap (fun f => match f with | .streamOpen id _ _ _ _ => some (id, e.2.sliceNo) | _ => none) else []
      | none => [])).flatten

/-- The identifier that the next BULK_OPEN of a slice takes: the lowest free stream slot with its sequence number, which starts
at 0, or none where a limit of R220 is reached. The choice of the slot and the start are the model's (log entry 61). -/
def freshStream (s : State) (sliceNo : Nat) : Option Nat :=
  let taken := takenStreams s
  if 256 ≤ (taken.filter (fun e => e.2 == sliceNo)).length then none
  else match firstKey (fun n => taken.all (fun e => e.1 % 16384 != n)) 0 16384 with
    | none => none
    | some n => some (n + 16384 * (sget (fun _ => 0) s.streamSeq n % 2 ^ 18))

/-- The counter block of mode 0x01 or 0x02 at a block count: nonce, then a 64-bit count (Table 6), both big-endian: the model's
choice, as is that of the 128-bit increment (log entry 61). -/
def nonceBlock (nonce : Bytes) (blocks : Nat) : Bytes := nonce ++ beBytes 8 (blocks % 2 ^ 64)

/-- A counter block advanced modulo 2^128. -/
def ctrPlus (c : Bytes) (n : Nat) : Bytes := beBytes 16 ((ofBe c + n) % 2 ^ 128)

/-! ### Buffer tables (R217) -/

/-- Host address of the table page that a reference names, and the index of its first entry. -/
def tablePage (d : Bytes) : Nat := dRef d / 4096 * 4096
def tableFirst (d : Bytes) : Nat := dRef d / 16 % 256

/-- The entries from an index on, up to the first whose last bit is set; none where R217 ends the step. -/
def tableWalk (es : List Bytes) : Option (List SgEntry) :=
  match es with
  | [] => none
  | e :: r =>
    let x := sgEntryOf e
    if byteAt e 11 ≠ 0 ∨ 4 ≤ leAt e 12 4 ∨ 2 ^ 64 ≤ x.addr + x.len - 1 then none
    else if byteAt e 12 / 2 % 2 = 1 then some [x]
    else (tableWalk r).map (fun l => x :: l)

def tableEntries (page : Bytes) (first : Nat) : Option (List SgEntry) :=
  tableWalk ((chunks 16 (padTo 4096 page)).drop first)

/-! ### The buffer translation cache (R218, R219) -/

def btcIs (sliceNo addr : Nat) (p : BtcPage) : Bool := p.slice == sliceNo && p.addr == addr

/-- The bytes of a valid cached page. -/
def btcFind (s : State) (sliceNo addr : Nat) : Option Bytes :=
  (s.btc.find? (fun p => btcIs sliceNo addr p && p.valid)).map (·.bytes)

/-- The page has been used. -/
def btcTouch (s : State) (sliceNo addr : Nat) : State :=
  { s with btcClock := s.btcClock + 1
           btc := s.btc.map (fun p => if btcIs sliceNo addr p then { p with used := s.btcClock } else p) }

/-- The least recently used page among those that a predicate accepts. -/
def btcOldest (l : List BtcPage) (p : BtcPage → Bool) : Option BtcPage :=
  (l.filter p).foldl (fun a e => match a with
    | none => some e
    | some b => if e.used < b.used then some e else some b) none

def btcCount (l : List BtcPage) (sliceNo : Nat) : Nat := (l.filter (fun p => p.slice = sliceNo)).length

/-- The page that a fill evicts (the order of R218). Pages that a sweep made invalid count toward the limits and stand in the order
of use: the model's choice (log entry 61). -/
def btcVictim (l : List BtcPage) (sliceNo : Nat) : Option BtcPage :=
  if 32 ≤ btcCount l sliceNo then btcOldest l (fun p => p.slice == sliceNo)
  else if l.length < 4096 then none
  else match btcOldest l (fun p => p.slice != sliceNo && decide (4 < btcCount l p.slice)) with
    | some p => some p
    | none => btcOldest l (fun p => p.slice == sliceNo)

/-- A page read from host memory enters the cache. -/
def btcFill (s : State) (sliceNo addr : Nat) (page : Bytes) : State :=
  let l := s.btc.filter (fun p => !btcIs sliceNo addr p)
  let l := match btcVictim l sliceNo with
    | some v => l.filter (fun p => !btcIs v.slice v.addr p)
    | none => l
  { s with btcClock := s.btcClock + 1, btc := l ++ [⟨sliceNo, addr, padTo 4096 page, s.nt.ns, true, s.btcClock⟩] }

/-- Pages named by BTC_INVAL leave the cache. -/
def btcDrop (s : State) (sliceNo selector addr : Nat) : State :=
  { s with btc := s.btc.filter (fun p => !(p.slice == sliceNo && (selector == 2 || p.addr == addr))) }

end Sys2Proof.Machine
end

