-- ==== Sys2Proof/Machine/Binding.lean ====
section
/-!
DEFINITION. Activation of a step (R101 to R105, R114, R223, R231, R235, R244, R245, R249, R359): the chain check, the
deadline, the binding of each handle position, the output capacity; the handle tables of the function chapters; and the
rules by which uses are spent and core cycles counted.
-/
namespace Sys2Proof.Machine

/-! ### Handle tables: usage, mode and algorithm of a position -/

/-- Usage and permitted modes. -/
def keyIs (r : KeyRecord) (usage : Nat) (modes : String) : Bool :=
  r.usage == usage && (modes.toList.map chr).contains r.mode

/-- Table 5 of the PIN chapter. -/
def pinPosOk (op : Nat) (d : Bytes) (keys : List KeyRecord) (p : Nat) (r : KeyRecord) : Bool :=
  let fin := byteAt d 64
  let fout := byteAt d 65
  let inbound := keyIs r (usage2 "P0") "DB" && pinKeyFits fin r.algorithm
  let table := r.usage == 61 && r.mode == chr 'N'
  match op, p with
  | 0x0104, 0 => keyIs r (usage2 "V1") "GC" && isTdes r.algorithm
  | 0x0104, 1 => table
  | 0x0104, _ => keyIs r (usage2 "P0") "EB" && pinKeyFits fout r.algorithm
  | 0x0101, 1 => keyIs r (usage2 "P0") "EB" && pinKeyFits fout r.algorithm
  | _, 0 => inbound
  | 0x0102, 1 => keyIs r (usage2 "V1") "VC" && isTdes r.algorithm
  | 0x0102, _ => table
  | 0x0103, _ => keyIs r (usage2 "V2") "VC" && isTdes r.algorithm
  | 0x0105, 1 => keyIs r (usage2 "V1") "GC" && isTdes r.algorithm
  | 0x0105, _ => table
  | 0x0106, _ => r.usage == 62 && r.mode == chr 'N'
  | 0x0107, 1 => keyIs r (usage2 "E1") "X" && (isTdes r.algorithm || isAes r.algorithm)
  | 0x0107, _ => keyIs r (usage2 "E0") "X" && r.algorithm == (keys.getD 1 {}).algorithm
  | 0x0108, _ => keyIs r (usage2 "V2") "GC" && isTdes r.algorithm
  | _, _ => false

/-- Table 4 of the card chapter, with R156. -/
def emvPosOk (op : Nat) (keys : List KeyRecord) (p : Nat) (r : KeyRecord) : Bool :=
  let either := isTdes r.algorithm || isAes r.algorithm
  let profile := r.usage == 63 && r.mode == chr 'N'
  let acAlg := byteAt r.material 1
  match op, p with
  | 0x0201, 0 | 0x0202, 0 | 0x0203, 0 => keyIs r (usage2 "E0") "X" && either
  | 0x0201, _ | 0x0202, _ | 0x0203, _ => profile && (acAlg == 2) == isAes (keys.getD 0 {}).algorithm
  | 0x0204, 0 => keyIs r (usage2 "E2") "X" && either
  | 0x0205, 0 => keyIs r (usage2 "E1") "X" && either
  | 0x0211, _ => keyIs r (usage2 "C0") "GC" && r.algorithm == 0x10
  | 0x0212, _ => keyIs r (usage2 "C0") "VC" && r.algorithm == 0x10
  | 0x0213, 0 | 0x0214, 0 => keyIs r (usage2 "E4") "X" && isTdes r.algorithm
  | _, _ => profile

/-- Table 6 of the DUKPT chapter. -/
def dukptPosOk (op : Nat) (d : Bytes) (p : Nat) (r : KeyRecord) : Bool :=
  match op, p with
  | 0x0301, 1 => keyIs r (usage2 "P0") "EB" && pinKeyFits (byteAt d 67) r.algorithm
  | 0x0304, 1 => keyIs r (usage2 "K1") "EB" && (isTdes r.algorithm || isAes r.algorithm)
  | 0x0304, _ => keyIs r (usage2 "B0") "X" && (bdkVariant r == 1 || bdkDevBits r != 0)
  | 0x0311, _ | 0x0313, _ => (["G", "C"].map (fun m => keyIs r r.usage m)).any id && macKeyFits (byteAt d 64) r
  | 0x0312, _ | 0x0314, _ => (["V", "C"].map (fun m => keyIs r r.usage m)).any id && macKeyFits (byteAt d 64) r
  | _, _ => keyIs r (usage2 "B0") "X"

/-- Tables 3 and 6 of the token and bulk chapter. -/
def tokenPosOk (op : Nat) (d : Bytes) (p : Nat) (r : KeyRecord) : Bool :=
  match op, p with
  | 0x0401, 0 => keyIs r 65 "EB"
  | 0x0402, 0 => keyIs r 65 "DB"
  | 0x0401, _ | 0x0402, _ => r.usage == 64 && r.mode == chr 'N'
  | _, _ => isAes r.algorithm && keyIs r (usage2 "D0") (match byteAt d 64 with | 1 => "EB" | 2 => "DB" | 3 => "DB" | _ => "B")

/-- Table 10 of the key-store chapter. -/
def keyPosOk (op : Nat) (p : Nat) (r : KeyRecord) : Bool :=
  match op, p with
  | 0x0502, 1 | 0x0504, 1 | 0x050A, 0 => keyIs r (usage2 "K1") "DB"
  | 0x0503, 1 => keyIs r (usage2 "K1") "EB"
  | 0x0508, _ => (checkValue r.algorithm r.material).isSome
  | _, _ => true

/-- Table 5 of the public-key chapter. -/
def pkPosOk (op : Nat) (p : Nat) (r : KeyRecord) : Bool :=
  match op, p with
  | 0x0601, _ => keyIs r (usage2 "S0") "S" && r.cls == 1
  | 0x0602, _ => keyIs r (usage2 "S0") "V" && r.cls == 2
  | 0x0603, _ => keyIs r (usage2 "D1") "D" && r.cls == 1 && isRsa r.algorithm
  | 0x0604, _ => keyIs r (usage2 "D1") "E" && r.cls == 2 && isRsa r.algorithm
  | 0x0606, _ => keyIs r (usage2 "D1") "X" && r.cls == 1 && isEc r.algorithm
  | 0x0607, _ => keyIs r (usage2 "D1") "X" && r.cls == 2 && isKem r.algorithm
  | 0x0608, _ => keyIs r (usage2 "D1") "X" && r.cls == 1 && isKem r.algorithm
  | 0x0611, 1 => keyIs r (usage2 "D1") "X" && r.cls == 1 && isRsa r.algorithm
  | 0x0611, _ => keyIs r (usage2 "S0") "V" && r.cls == 2 && (isRsa r.algorithm || isEc r.algorithm)
  | 0x0612, 0 | 0x0613, 0 => r.cls == 0
  | 0x0612, 1 => keyIs r (usage2 "S0") "S" && r.cls == 1 && isRsa r.algorithm
  | 0x0612, _ => keyIs r (usage2 "D1") "X" && r.cls == 2 && isRsa r.algorithm
  | 0x0613, 1 => keyIs r (usage2 "D1") "X" && r.cls == 2 && r.algorithm == 0x61
  | 0x0613, _ => keyIs r (usage2 "D1") "X" && r.cls == 2 && r.algorithm == 0x51
  | 0x0614, 1 => keyIs r (usage2 "D1") "X" && r.cls == 1 && r.algorithm == 0x61
  | 0x0614, _ => keyIs r (usage2 "D1") "X" && r.cls == 1 && r.algorithm == 0x51
  | _, _ => true

/-- The record matches the position of the opcode; `keys` holds the positions bound before. -/
def posOk (op : Nat) (d : Bytes) (keys : List KeyRecord) (p : Nat) (r : KeyRecord) : Bool :=
  match op / 256 with
  | 1 => pinPosOk op d keys p r
  | 2 => emvPosOk op keys p r
  | 3 => dukptPosOk op d p r
  | 4 => tokenPosOk op d p r
  | 5 => keyPosOk op p r
  | 6 => pkPosOk op p r
  | _ => true

/-- Positions that count a use (the handle tables). -/
def countedPos (op p : Nat) : Bool :=
  match op with
  | 0x0101 | 0x0107 | 0x0301 | 0x0304 | 0x0103 | 0x0108 => true
  | 0x0102 | 0x0105 => decide (p ≤ 1)
  | 0x0104 => p != 1
  | 0x0106 | 0x0401 | 0x0402 => p == 0
  | 0x0302 | 0x0303 | 0x0311 | 0x0312 | 0x0313 | 0x0314 | 0x0411 | 0x0414 | 0x050A => true
  | 0x0502 | 0x0503 | 0x0504 => p == 1
  | 0x0621 => false
  | op => if op / 256 = 2 then p == 0 else op / 256 == 6

/-- The statuses under which a function's counted uses are spent (R146, R173, R202, R214, R221, R226, R256, R297). -/
def spendsOn (op : Nat) (st : Status) : Bool :=
  if op / 256 = 1 then st == stOk || st == stWeakPin || st == stVerifyFail || st == stPolicyTranslation
  else if op / 256 = 2 then st == stOk || st == stVerifyFail
  else if op = 0x0301 then st == stOk || st == stVerifyFail || st == stPolicyTranslation
  else if op = 0x0304 then st == stOk
  else if op / 256 = 3 then st == stOk || st == stVerifyFail
  else if op / 256 = 4 then st == stOk
  else if op / 256 = 5 then st == stOk || st == stVerifyFail
  else if op / 256 = 6 then st == stOk || st == stVerifyFail || st == stPkeInput
  else false

/-! ### Core cycles (R111, R145, R172, R200, R214, R256, R296, R377, R381, R391) -/

/-- Lane cycles of each further 256-byte unit of a MAC or decipherment (Table 10 of the DUKPT chapter). -/
def unitCycles (op : Nat) (d : Bytes) (k0 : KeyRecord) : Nat :=
  match op with
  | 0x0302 => if 2 ≤ byteAt d 65 then 12000 else if byteAt d 69 = 3 then 13000 else 38000
  | 0x0303 => if 2 ≤ byteAt d 65 then 12000 else 38000
  | _ => if isAes k0.algorithm then 12000 else if byteAt d 64 = 3 then 13000 else 38000

/-- Length of the key block that an export of the bound key gives; a refused export counts it too (R256). -/
def exportLen (keys : List KeyRecord) : Nat := blockTotal (keys.getD 1 {}).algorithm 16 (keys.getD 0 {}).material.length

/-- Bytes of message in an input of `n` bytes of PK_SIGN or PK_VERIFY: none where a digest is supplied (R275). -/
def signedBytes (op : Nat) (d : Bytes) (n : Nat) : Nat :=
  if byteAt d 66 = 1 then 0 else if op = 0x0602 then n - leAt d 68 2 else n

/-- Core cycles from activation to readiness for an input of `n` bytes. -/
def stepCycles (op : Nat) (d : Bytes) (n : Nat) (keys : List KeyRecord) : Nat :=
  let wu := match opRow op with | some r => r.wu | none => 1
  let base := wu * 1000
  let k0 := keys.getD 0 {}
  match op with
  | 0x0204 => if 64 < n then 32000 else 20000
  | 0x0205 => if 64 < n then 34000 else 22000
  | 0x0302 | 0x0303 | 0x0311 | 0x0312 => base + units256 n * unitCycles op d k0
  | 0x0313 | 0x0314 => base + 2000 * ceilDiv n 1024
  | 0x0412 | 0x0414 => base
  | 0x0502 | 0x050A => base + 4000 * ceilDiv n 16
  | 0x0503 => base + 4000 * ceilDiv (exportLen keys) 16
  | 0x0504 => if byteAt d 112 = 2 then base + 4000 * ceilDiv n 16 else base
  | 0x0601 | 0x0602 => 10000 + 2000 * ceilDiv (signedBytes op d n) 1024
  | 0x0603 | 0x0604 => 10000 + 2000 * ceilDiv n 1024
  | 0x0605 | 0x0606 | 0x0607 | 0x0608 => 20000
  | 0x0611 => 120000
  | 0x0612 => 100000
  | 0x0613 => 12000
  | 0x0614 => 32000
  | 0x0621 | 0x0622 => 26000
  | 0x0701 => match hashOf (byteAt d 64) with
    | some h => 2000 + hashCycles h * ((n - (if byteAt d 65 % 2 = 1 then hashStateLen h else 0)) / hashBlock h)
    | none => 2000
  | 0x0702 => 2000 + 2 * ceilDiv (leAt d 64 2) 16
  | _ => base

/-! ### Output capacity (R95) -/

/-- Length of a public key in the form of Table 4 of the key-store chapter. -/
def publicLen (alg : Nat) : Nat :=
  if rsaLen alg ≠ 0 then rsaLen alg + 4
  else match curveOf alg with
    | some c => 2 * c.len
    | none => if alg = 0x58 then 32 else kemKeyLen alg + dsaKeyLen alg

/-- The largest output of the request's parameters that goes to output segments; 0 where it is inline. -/
def maxOut (op : Nat) (d : Bytes) (n : Nat) (keys : List KeyRecord) : Nat :=
  let k0 := keys.getD 0 {}
  let any := fun m => if m ≤ 32 then 0 else m
  match op with
  | 0x0205 => let b := blockLen (cipherOf k0.algorithm []); any (n + b - n % b)
  | 0x0303 => any n
  | 0x0304 => initialKeyMax
  | 0x0313 => any (byteAt d 65)
  | 0x0412 | 0x0414 => leAt d 72 8
  | 0x0503 => 1024
  | 0x0601 => sigLength k0.algorithm
  | 0x0603 => rsaLen k0.algorithm - 66
  | 0x0604 => rsaLen k0.algorithm
  | 0x0605 => publicLen (byteAt d 64)
  | 0x0607 => match kemOfLen (if dHandle d 1 = noHandle then n else (keys.getD 1 {}).material.length) with
    | some set => kemCtLen set
    | none => 0
  | 0x0612 => 8192
  | 0x0613 => 2259
  | 0x0621 => 256 + (if k0.cls = 1 then publicLen k0.algorithm else if k0.cls = 2 then k0.material.length else 0) + 4723
  | 0x0622 => 256 + 4723
  | 0x0701 => match hashOf (byteAt d 64) with
    | some h => any (if byteAt d 65 / 2 % 2 = 1 then hashLen h else hashStateLen h)
    | none => 0
  | 0x0702 => any (leAt d 64 2)
  | 0x0704 => 64
  | 0x0801 => 177
  | _ => 0

/-! ### Binding of one position -/

/-- What binding a position answers: the key bound, an empty target, a failure, or a wait for a cache entry. -/
inductive BindOut where
  | bound (b : Bound) (r : KeyRecord)
  | target (b : Bound)
  | fail (st : Status)
deriving DecidableEq, Repr

/-- Window and reset-epoch checks of a record (R105, R245). -/
def windowStatus (s : State) (r : KeyRecord) (nt : Nat) (trusted : Bool) : Status :=
  if r.windowed && !trusted then stTimeUntrusted
  else if r.windowed && decide (nt < r.validFrom) then stKeyNotYetActive
  else if (r.windowed && decide (r.validUntil ≤ nt) && r.validUntil != 0xFFFFFFFFFFFFFFFF) ||
      (r.expireAtReset && r.resetEpoch != s.vault.resetEpoch) then stKeyExpired
  else stOk

/-- The checks of a held record after its generation: usage, window, use limit. -/
def recordStatus (s : State) (op : Nat) (d : Bytes) (keys : List KeyRecord) (p slot : Nat) (r : KeyRecord) : Status :=
  if !posOk op d keys p r then stKeyUsage
  else
    let w := windowStatus s r s.nt.ns (s.nt.trust != .untrusted)
    if w ≠ stOk then w
    else if countedPos op p && r.counted && decide (r.usesLeft ≤ reservedUses s slot r.generation) then stUseLimit
    else stOk

/-- Slots of the group, or the two groups, that a target of an opcode begins, as far as its request tells them: the group of a
key block's key is known only from the block. -/
def targetSlots (op : Nat) (d : Bytes) : Nat := if op = 0x0605 then pairSlots d else 1

/-- Binding of a target of `count` slots (R231). -/
def bindTarget (s : State) (sliceNo h p count : Nat) : BindOut :=
  if hSlice h ≠ sliceNo then .fail stKeyNotFound
  else if !groupEmpty s sliceNo (hSlot h) count then .fail stKeySlotBusy
  else .target { pos := p, slot := hSlot h, gen := 0, target := true }

/-- The slot holds an extension record of a group (R243); where its frame cannot be read, its directory word says so. -/
def extensionSlot (s : State) (slot : Nat) : Bool :=
  let d := slotDir (mramOf s (curDie s)) slot
  d.ext && (d.occupied || d.damaged)

/-- Binding of a key position, in the order of R114. -/
def bindKey (s : State) (op : Nat) (d : Bytes) (sliceNo : Nat) (keys : List KeyRecord) (p : Nat) : BindOut :=
  let h := dHandle d p
  let slot := hSlot h
  if hSlice h ≠ sliceNo ∨ !inRange (sliceOf s sliceNo) slot then .fail stKeyNotFound
  else if extensionSlot s slot then .fail stKeyNotFound
  else if groupDamaged s slot then
    if op = 0x0505 then (if hGen h = 0 then .bound { pos := p, slot := slot, gen := 0 } {} else .fail stKeyGeneration)
    else .fail stIntegrity
  else if inWithdrawal s slot then .fail stKeyWithdrawn
  else match slotView s slot with
    | .held r =>
      if r.owner ≠ sliceNo then .fail stKeyNotFound
      else if hGen h ≠ 0 ∧ hGen h ≠ r.generation then .fail stKeyGeneration
      else
        let st := recordStatus s op d keys p slot r
        if st ≠ stOk then .fail st
        else .bound { pos := p, slot := slot, gen := r.generation, counted := countedPos op p && r.counted } r
    | _ => .fail stKeyNotFound

/-- Binding of a stream's key at the generation held in the stream (R223). Segments use no key uses. -/
def bindStream (s : State) (d : Bytes) (sliceNo : Nat) : BindOut :=
  match streamOf s sliceNo (leAt d 64 4) with
  | none => .fail stKeyNotFound
  | some x =>
    if groupDamaged s x.slot then .fail stIntegrity
    else if inWithdrawal s x.slot then .fail stKeyWithdrawn
    else match slotView s x.slot with
      | .held r =>
        if r.owner ≠ sliceNo then .fail stKeyNotFound
        else if r.generation ≠ x.gen then .fail stKeyGeneration
        else
          let w := windowStatus s r s.nt.ns (s.nt.trust != .untrusted)
          if w ≠ stOk then .fail w else .bound { pos := 0, slot := x.slot, gen := x.gen } r
      | _ => .fail stKeyNotFound

/-- Binding of a position of any kind; `none` for a position that the step does not use. -/
def bindAt (s : State) (t : Step) (keys : List KeyRecord) (p : Nat) : Option BindOut :=
  let op := dOp t.desc
  if op = 0x0412 then (if p = 0 then some (bindStream s t.desc t.sliceNo) else none)
  else if dHandle t.desc p = noHandle then none
  else if isTarget op p then some (bindTarget s t.sliceNo (dHandle t.desc p) p (targetSlots op t.desc))
  else some (bindKey s op t.desc t.sliceNo keys p)

/-! ### Activation -/

/-- The records bound at positions 0 to 3 of a step. -/
def stepKeys (s : State) (t : Step) : List KeyRecord := (List.range 4).map (boundKey s t)

/-- A step fails at an activation check: it is ready at once with the status, without its function's cycles. What it has bound
and reserved stays until its commit (R36, R360). -/
def failAct (s : State) (k : Nat) (st : Status) : State :=
  match stepOf s k with
  | none => s
  | some t =>
    let s := if st = stDeadline then bump s (pgCfl (curDie s) 3 + 0x100 + 8 * t.level) 32 32 1 else s
    setStep s k { t with ran := true, inputDone := true, bindWait := none, result := some (fails st) }

/-- A bulk step has its translation: the lengths of R216 are judged, and in mode 0x03 the last 16 bytes of the source are
still to be read (R227). -/
def bulkTranslated (s : State) (k : Nat) (tr : List SgEntry) : State :=
  match stepOf s k with
  | none => s
  | some t =>
    let n := leAt t.desc 72 8
    if sgBytes (sgIn tr) ≠ n ∨ sgBytes (sgOut tr) < n then failAct s k stLength
    else setStep s k { t with bindWait := none, trans := some tr, inputDone := bulkMode s t != 3 }

/-- A table page is at hand: its entries are the step's translation, or the step ends with ST_LENGTH (R217). -/
def tableRead (s : State) (k : Nat) (page : Bytes) : State :=
  match stepOf s k with
  | none => s
  | some t =>
    match tableEntries page (tableFirst t.desc) with
    | some tr => bulkTranslated s k tr
    | none => failAct s k stLength

/-- After the last position: the output capacity, then the read of the input (R95, R114). A bulk step with a buffer
table looks its page up (R218), and KEY_TXN_QUERY takes its answer from the log as it stands (R258). -/
def afterBinding (s : State) (k : Nat) : State :=
  match stepOf s k with
  | none => s
  | some t =>
    let op := dOp t.desc
    let n := sgBytes (sgIn t.sg)
    if hasTable t.desc then
      match btcFind s t.sliceNo (tablePage t.desc) with
      | some bs => tableRead (btcTouch s t.sliceNo (tablePage t.desc)) k bs
      | none => setStep s k { t with bindWait := none, inputDone := false }
    else if sgBytes (sgOut t.sg) < maxOut op t.desc n (stepKeys s t) then failAct s k stLength
    else if op = 0x0412 ∨ op = 0x0414 then bulkTranslated s k t.sg
    else if op = 0x0509 then
      setStep s k { t with bindWait := none, inputDone := true, input := txnQuery s t.sliceNo (leAt t.desc 64 4) }
    else setStep s k { t with bindWait := none, inputDone := n == 0 || op == 0x0801 }

/-- A frame of the group is under repair (R235). -/
def underRepair (s : State) (slot : Nat) (r : KeyRecord) : Bool :=
  (List.range (1 + r.extCount)).any (fun j => s.kst.repairing.contains (slot + j, false))

/-- An open job of a group's generation waits or runs. -/
def isOpening (s : State) (slot gen : Nat) : Bool :=
  (allJobs s).any (fun j => match j with | .openFrame a g _ => a == slot && g == gen | _ => false)

/-- The cache has room for a load: a free entry, or one that may be displaced (R249). -/
def cacheRoom (s : State) : Bool := decide (s.kst.cache.length < 262144) || (cacheVictim s).isSome

/-- The frames of a group are to be opened for a key-cache entry, unless they are being opened, one of them is under repair or
no entry can be had (R249, R369). -/
def openGroup (s : State) (slot : Nat) (r : KeyRecord) : State :=
  if isOpening s slot r.generation || underRepair s slot r || !cacheRoom s then s
  else (List.range (1 + r.extCount)).foldl (fun s j => addJob s (.openFrame slot r.generation j)) s

/-- Binding from a position on. A key that the cache holds at its generation is bound at once. Otherwise the step waits while
the frames of the group are opened and an entry is loaded, which may itself wait for an entry or for a repair (R235, R249). -/
def bindFrom (s : State) (k p fuel : Nat) : State :=
  match fuel with
  | 0 => afterBinding s k
  | f + 1 =>
    match stepOf s k with
    | none => s
    | some t =>
      match bindAt s t (stepKeys s t) p with
      | none => bindFrom s k (p + 1) f
      | some (.fail st) => failAct s k st
      | some (.target b) => bindFrom (setStep s k { t with bound := t.bound ++ [b] }) k (p + 1) f
      | some (.bound b r) =>
        if b.gen = 0 then bindFrom (setStep s k { t with bound := t.bound ++ [b] }) k (p + 1) f
        else if (cacheFind s b.slot b.gen).isSome then
          bindFrom (setStep ((cacheLoad s b.slot b.gen r).getD s) k { t with bound := t.bound ++ [b], bindWait := none }) k (p + 1) f
        else openGroup (setStep s k { t with bindWait := some p }) b.slot r

/-- The status of the chain check and the deadline check at activation (R104, R359). -/
def entryStatus (s : State) (t : Step) : Status :=
  if t.guardOk = some false then stGuardFailed
  else if t.haltFailed then stChainHalted
  else if dDeadline t.desc ≠ 0 ∧ dDeadline t.desc ≤ s.nt.ns then stDeadline
  else stOk

/-- Activation of a step in the executing slot of a core: the slice policy is read, the chain and the deadline checked,
and the handles bound in position order (R101, R114, R134). -/
def activate (s : State) (k : Nat) : State :=
  match stepOf s k with
  | none => s
  | some t =>
    let p := (sliceOf s t.sliceNo).policy
    let t := { t with actNt := s.nt.ns, ran := true, policyCapture := p.replayCapture, pinGrants := p.pinGrants
                      pinScreenMin := p.pinScreenMin, bound := [] }
    let s := setStep s k t
    let st := entryStatus s t
    if st ≠ stOk then failAct s k st else bindFrom s k 0 4

/-- Steps whose binding waits go on with it. -/
def rebind (s : State) : State :=
  (stepsWhere s (fun _ t => t.bindWait.isSome)).foldl (fun s k => match stepOf s k with
    | some t => (match t.bindWait, t.phase with
      | some p, .executing _ => bindFrom s k p (4 - p)
      | _, _ => s)
    | none => s) s

end Sys2Proof.Machine
end

