-- ==== Sys2Proof/Machine/LaneWork.lean ====
section
/-!
DEFINITION. The block operations that a step's function makes on its core's cipher lane (R120, R145, R172, R200, R213, R256,
R364 to R366): their key schedules, their number, and the message bytes that they carry. The number follows from the formulas of
the functions alone, and a function that ends early makes the rest on dummy data, so it is the same then.
-/
namespace Sys2Proof.Machine

/-- Operations under one schedule: its code (Table 3 of the cipher chapter) and key, the blocks, and the bytes of message or bulk
input that they carry; 0 for working operations. -/
structure LaneOp where
  code   : Nat
  key    : Bytes
  blocks : Nat
  data   : Nat := 0
deriving DecidableEq, Repr

/-- Key code of a lane for a key's algorithm. -/
def laneCode : Nat → Nat
  | 0x10 => 2 | 0x11 => 3 | 0x20 => 4 | 0x21 => 5 | 0x22 => 6
  | _ => 0

/-- Core cycles of one block (Table 1 of the cipher chapter). -/
def laneBlockCycles : Nat → Nat
  | 1 => 384 | 2 => 1152 | 3 => 1152 | 4 => 336 | 5 => 400 | 6 => 464
  | _ => 0

/-- Core cycles of a list of operations. -/
def laneCycles (l : List LaneOp) : Nat := (l.map (fun o => laneBlockCycles o.code * o.blocks)).foldl (· + ·) 0

/-- Block length under an algorithm. -/
def algBlock (alg : Nat) : Nat := if isTdes alg then 8 else 16

/-! ### Building blocks -/

/-- Single block operations under a key. -/
def laneBlocks (alg : Nat) (key : Bytes) (n : Nat) : LaneOp := ⟨laneCode alg, key, n, 0⟩

/-- CMAC over `n` bytes: a block for the subkeys, then one for each block fed. -/
def laneCmac (alg : Nat) (key : Bytes) (n data : Nat) : List LaneOp :=
  [laneBlocks alg key 1, ⟨laneCode alg, key, max 1 (ceilDiv n (algBlock alg)), data⟩]

/-- Algorithm 3 over `n` padded bytes: single DES under the first half, and two more DES operations at the final step. -/
def laneRetail (key : Bytes) (n data : Nat) : LaneOp := ⟨1, key.take 8, n / 8 + 2, data⟩

/-- Length of a message of `n` bytes after padding method 1 or 2. -/
def padded (method n : Nat) : Nat := if method = 1 then 8 * max 1 (ceilDiv n 8) else 8 * (n / 8 + 1)

/-- The MAC of issuer scripts and of response method 2 over `n` bytes. -/
def laneSkMac (alg : Nat) (key : Bytes) (n data : Nat) : List LaneOp :=
  if isTdes alg then [laneRetail key (padded 2 n) data] else laneCmac alg key n data

/-- A MAC of mac_alg 1, 3 or 5 over `n` bytes. -/
def laneMac (macAlg method alg : Nat) (key : Bytes) (n data : Nat) : List LaneOp :=
  if macAlg = 5 then laneCmac alg key n data
  else if macAlg = 3 then [laneRetail key (padded method n) data]
  else [⟨laneCode alg, key, padded method n / 8, data⟩]

/-- One encipherment or decipherment of a PIN block: two operations for format 4 (R120). -/
def lanePin (fmt alg : Nat) (key : Bytes) : LaneOp := laneBlocks alg key (if fmt = 4 then 2 else 1)

/-- The check value of R253. -/
def laneCheck (alg : Nat) (key : Bytes) : List LaneOp :=
  if isTdes alg then [laneBlocks alg key 1] else if isAes alg then laneCmac alg key 16 0 else []

/-- A derivation of two blocks under TDES, and of the key's length under AES (R158, R159). -/
def laneDerive (alg : Nat) (key : Bytes) : LaneOp := laneBlocks alg key (if isTdes alg then 2 else ceilDiv key.length 16)

/-! ### Key blocks (R255) -/

/-- The derivation of both block keys. -/
def laneBlockKeys (alg : Nat) (kbpk : Bytes) : LaneOp := laneBlocks alg kbpk (4 * ceilDiv kbpk.length (algBlock alg))

/-- Encipherment and MAC of a block with `h` characters of header and `ct` bytes of key data; on import the decipherment comes
first. -/
def laneKeyBlock (alg : Nat) (kbpk : Bytes) (h ct : Nat) (opening : Bool) : List LaneOp :=
  let cbc : LaneOp := ⟨laneCode alg, blockSubKey alg kbpk 0, ct / algBlock alg, ct⟩
  let mac := laneCmac alg (blockSubKey alg kbpk 1) (h + ct) (h + ct)
  [laneBlockKeys alg kbpk] ++ (if opening then cbc :: mac else mac ++ [cbc])

/-- Opening a block of given bytes; where its optional blocks cannot be read, they count as none. -/
def laneOpen (alg : Nat) (kbpk blk : Bytes) : List LaneOp :=
  let h := 16 + (match (ofDec (cut blk 12 2)).bind (fun n => optBlocks n (blk.drop 16)) with | some r => r.2 | none => 0)
  let ct := (blk.length - h - 2 * algBlock alg) / 2
  laneKeyBlock alg kbpk h (ct - ct % algBlock alg) true

/-- Building a block around a key of `n` bytes with `opts` characters of optional blocks. -/
def laneBuild (alg : Nat) (kbpk : Bytes) (opts n : Nat) : List LaneOp :=
  laneKeyBlock alg kbpk (16 + opts) (n + 2 + blockPad alg n) false

/-! ### Chip cards (R157 to R171) -/

/-- MK and SK of a script or a cryptogram. -/
def laneSk (i : FnIn) (skip : Bool) : List LaneOp :=
  let alg := (keyAt i 0).algorithm
  laneDerive alg (keyAt i 0).material :: (if skip then [] else [laneDerive alg (emvMk i)])

/-- Length of the cryptogram input that a profile prescribes. -/
def profileLen (m : Bytes) : Nat := ((profEntries m).map (·.2.2)).foldl (· + ·) 0

/-- The ARQC over the profile's input. -/
def laneArqc (i : FnIn) : List LaneOp :=
  let m := (keyAt i 1).material
  let n := profileLen m
  if byteAt m 3 = 1 then [laneRetail (emvSk i) (padded 1 n) n]
  else if byteAt m 3 = 2 then [laneRetail (emvSk i) (padded 2 n) n]
  else laneCmac (keyAt i 0).algorithm (emvSk i) n n

/-- The response cryptogram. -/
def laneArpc (i : FnIn) : List LaneOp :=
  let alg := (keyAt i 0).algorithm
  if byteAt (keyAt i 1).material 4 = 1 then [laneBlocks alg (emvSk i) 1]
  else laneSkMac alg (emvSk i) (12 + byteAt i.desc 78) 0

/-- A card code: algorithm 3 over two blocks. -/
def laneCardCode (key : Bytes) : LaneOp := laneRetail key 16 0

/-- The lane work of a card opcode. -/
def laneEmv (i : FnIn) : List LaneOp :=
  let alg := (keyAt i 0).algorithm
  let m := (keyAt i 1).material
  let keys := laneSk i (byteAt m 2 == 2)
  let n := i.input.length
  match i.op with
  | 0x0201 => keys ++ laneArqc i
  | 0x0202 => keys ++ laneArpc i
  | 0x0203 => keys ++ laneArqc i ++ laneArpc i
  | 0x0204 =>
    let all := 5 + n + (if byteAt m 7 % 2 = 1 then 2 else 0) + (if byteAt m 7 / 2 % 2 = 1 then 8 else 0)
    laneSk i false ++ laneSkMac alg (scriptSk i) all all
  | 0x0205 => laneSk i false ++ [⟨laneCode alg, scriptSk i, n / algBlock alg + 1, n⟩]
  | 0x0211 | 0x0212 => [laneCardCode (keyAt i 0).material]
  | _ => [laneDerive alg (keyAt i 0).material, laneCardCode (emvMk i)]

/-! ### PIN opcodes -/

/-- The lane work of a PIN opcode. -/
def lanePinOps (i : FnIn) : List LaneOp :=
  let d := i.desc
  let k := fun p => ((keyAt i p).algorithm, (keyAt i p).material)
  let pin := fun fmt p => lanePin fmt (k p).1 (k p).2
  let one := fun p => laneBlocks (k p).1 (k p).2 1
  let inbound := pin (byteAt d 64) 0
  match i.op with
  | 0x0101 => [inbound, pin (byteAt d 65) 1]
  | 0x0104 => [one 0, pin (byteAt d 65) 2]
  | 0x0106 => [inbound]
  | 0x0107 =>
    let y := formY (pinPan d) (nibbles (cut d 116 1))
    let mk := deriveMk (k 1).1 (k 1).2 y
    [inbound, laneDerive (k 2).1 (k 2).2, laneDerive (k 1).1 (k 1).2, laneDerive (k 1).1 mk,
      laneBlocks (k 1).1 (deriveSk (k 1).1 mk (cut d 114 2 ++ zeros 6)) (16 / algBlock (k 1).1)]
  | _ => [inbound, one 1]

/-! ### DUKPT and MAC opcodes -/

/-- The derivations of an AES working key (R182), and the key that the last one uses. -/
def laneAesWork (alg : Nat) (bdk ksn : Bytes) (work : Nat) : List LaneOp :=
  let c := ksnCounter 1 ksn
  let did := cut ksn 4 4
  let n := ceilDiv (algLen alg) 16
  let ik := aesDukpt bdk 0x8001 alg (ksn.take 8)
  let (l, k, _) := (setBits 32 c).foldl (fun (p : List LaneOp × Bytes × Nat) b =>
    (p.1 ++ [laneBlocks alg p.2.1 n], aesDukpt p.2.1 0x8000 alg (did ++ beBytes 4 (p.2.2 + b)), p.2.2 + b)) ([laneBlocks alg bdk n], ik, 0)
  l ++ [laneBlocks alg k (ceilDiv (algLen work) 16)]

/-- The initial key of TDES DUKPT (R184). -/
def laneIpek (bdk : Bytes) : List LaneOp := [laneBlocks 0x10 bdk 1, laneBlocks 0x10 (xorB bdk maskC0) 1]

/-- The derivations of a TDES working key: two single DES operations for each set bit of the counter (R184, R185). -/
def laneTdesWork (op : Nat) (bdk ksn : Bytes) : List LaneOp :=
  let base := beAt ksn 2 8 / 2 ^ 21 * 2 ^ 21
  let (l, _) := (setBits 21 (ksnCounter 2 ksn)).foldl (fun (p : List LaneOp × Bytes × Nat) b =>
    (p.1 ++ [⟨1, (xorB p.2.1 maskC0).take 8, 1, 0⟩, ⟨1, p.2.1.take 8, 1, 0⟩],
      oneWay p.2.1 (beBytes 8 (base + p.2.2 + b)), p.2.2 + b)) (laneIpek bdk, ipek bdk ksn, 0)
  if op = 0x0303 then
    let v := [0, 0, 0, 0, 0, 0xFF, 0, 0]
    l ++ [laneBlocks 0x10 (xorB (tdesCurrent bdk ksn) (v ++ v)) 2]
  else l

/-- The derivation of the working key of a request. -/
def laneWork (i : FnIn) : List LaneOp :=
  let r := keyAt i 0
  let ksn := cut i.desc 82 12
  if byteAt i.desc 64 = 1 then laneAesWork r.algorithm r.material ksn (workAlg (byteAt i.desc 65))
  else laneTdesWork i.op r.material ksn

/-- The lane work of a DUKPT or MAC opcode. -/
def laneDukpt (i : FnIn) : List LaneOp :=
  let d := i.desc
  let n := i.input.length
  let (w, k) := dukptWork i
  let r := keyAt i 0
  match i.op with
  | 0x0301 => laneWork i ++ [lanePin (byteAt d 66) w k, lanePin (byteAt d 67) (keyAt i 1).algorithm (keyAt i 1).material]
  | 0x0302 => laneWork i ++ laneMac (byteAt d 69) (byteAt d 71) w k n n
  | 0x0303 => laneWork i ++ [⟨laneCode w, k, n / algBlock w, n⟩]
  | 0x0304 =>
    let aes := bdkVariant r == 1
    (if aes then [laneBlocks r.algorithm r.material (ceilDiv (algLen r.algorithm) 16)] else laneIpek r.material) ++
      laneBuild (keyAt i 1).algorithm (keyAt i 1).material (if aes then 20 else 24) (if aes then algLen r.algorithm else 16)
  | 0x0311 | 0x0312 => laneMac (byteAt d 64) (byteAt d 66) r.algorithm r.material n n
  | _ => []

/-! ### The other opcodes -/

/-- FF1 (R213): the first block of its input once, then one for each of ten rounds; a longer second part once more. -/
def laneToken (i : FnIn) : List LaneOp :=
  let m := (keyAt i 1).material
  let ds := digitRun (cut i.desc 80 16)
  let n := ds.length
  let mid := n - byteAt m 4 - byteAt m 5
  let t := (tokenTweak m (ds.take (byteAt m 4)) (ds.drop (n - byteAt m 5))).length
  [laneBlocks (keyAt i 0).algorithm (keyAt i 0).material (10 + ceilDiv (t + ff1Len (mid - mid / 2) + 1) 16)]

/-- The check values of the keys that a result creates or rewrites. -/
def laneCreated (res : Result) : List LaneOp :=
  (res.keys.map (fun c => match c with
    | .create _ r => laneCheck r.algorithm r.material
    | .rewrite _ _ _ r _ => laneCheck r.algorithm r.material
    | _ => [])).flatten

/-- A check value on dummy data, where a function that creates a key of an algorithm has ended early. -/
def laneDummy (res : Result) (alg : Nat) : List LaneOp :=
  if res.keys.isEmpty then laneCheck alg (zeros ((secretLen alg).getD 0)) else laneCreated res

/-- The lane work of a key-store opcode. -/
def laneKeys (i : FnIn) (res : Result) : List LaneOp :=
  let p := fun n => ((keyAt i n).algorithm, (keyAt i n).material)
  match i.op with
  | 0x0501 => laneDummy res (tplAlg (tplOf i.desc))
  | 0x0502 => laneOpen (p 1).1 (p 1).2 i.input ++ laneDummy res (p 1).1
  | 0x0503 => laneBuild (p 1).1 (p 1).2 0 (p 0).2.length
  | 0x0504 =>
    if byteAt i.desc 112 = 2 then laneOpen (p 1).1 (p 1).2 i.input ++ laneDummy res (p 0).1 else laneDummy res (p 0).1
  | 0x0508 => laneCheck (p 0).1 (p 0).2
  | 0x050A => laneOpen (p 0).1 (p 0).2 i.input
  | _ => []

/-- The lane work of a public-key opcode (R285 for TR34_IMPORT). -/
def lanePk (i : FnIn) (res : Result) : List LaneOp :=
  match i.op with
  | 0x0606 | 0x0607 | 0x0608 => laneDummy res (tplAlg (tplOf i.desc))
  | 0x0611 =>
    (match Config.tokenOf i.input with
     | some t =>
       if t.body.length ≤ 4096 then [⟨laneCode t.cipher, zeros ((secretLen t.cipher).getD 0), t.body.length / algBlock t.cipher, t.body.length⟩] else []
     | none => []) ++ laneCreated res
  | 0x0613 => laneBuild 0x22 (zeros 32) 0 (keyAt i 0).material.length
  | 0x0614 => laneOpen 0x22 (zeros 32) (i.input.drop 1235) ++ laneCreated res
  | 0x0621 => laneCheck (keyAt i 0).algorithm (keyAt i 0).material
  | _ => []

/-- The lane work of a step's function. The schedules of a TR-34 or hybrid transport's own keys stand as zero bytes of their
length (log entry 9). -/
def laneOps (i : FnIn) (res : Result) : List LaneOp :=
  ((match i.op / 256 with
    | 1 => lanePinOps i
    | 2 => laneEmv i
    | 3 => laneDukpt i
    | 4 => if i.op < 0x0410 then laneToken i else []
    | 5 => laneKeys i res
    | 6 => lanePk i res
    | _ => laneCreated res).filter (fun o => o.blocks != 0))

/-- Message bytes and working blocks of operations. -/
def laneData (l : List LaneOp) : Nat := (l.map (·.data)).foldl (· + ·) 0
def laneWorking (l : List LaneOp) : Nat := (l.map (fun o => if o.data = 0 then o.blocks else 0)).foldl (· + ·) 0
def laneCount (l : List LaneOp) : Nat := (l.map (·.blocks)).foldl (· + ·) 0

/-- The operations that a lane accepts for one step, and whether it refuses one: at most 4,096 bytes of data operations and 256
working blocks (R366). -/
def laneAccept : List LaneOp → List LaneOp → List LaneOp × Bool
  | done, [] => (done, false)
  | done, o :: r =>
    if laneData (done ++ [o]) ≤ 4096 ∧ laneWorking (done ++ [o]) ≤ 256 then laneAccept (done ++ [o]) r else (done, true)

end Sys2Proof.Machine
end

