-- ==== Sys2Proof/Machine/Run.lean ====
section
/-!
DEFINITION. Running the function of an activated step: what the function reads, the random bits it draws (R388 to R390),
the originating and nonce counters (R193, R222), and what its run leaves in the step. Also the functions of the bulk,
digest, random and measurement opcodes (R219 to R226, R375 to R381, R391), which need no file of their own.
-/
namespace Sys2Proof.Machine

/-- The function of an opcode: from the state, the step, what it reads and its random bits to a result. -/
abbrev OpFn := State → Step → FnIn → Rnd → Result × Rnd

/-- A function that reads only its inputs. -/
def pureFn (f : FnIn → Result) : OpFn := fun _ _ i r => (f i, r)
/-- A function that reads its inputs and draws random bits. -/
def drawFn (f : FnIn → Rnd → Result × Rnd) : OpFn := fun _ _ i r => f i r
/-- A function that reads the key store too. -/
def storeFn (f : State → FnIn → Result) : OpFn := fun s _ i r => (f s i, r)
/-- A function that reads the key store and draws random bits. -/
def storeDrawFn (f : State → FnIn → Rnd → Result × Rnd) : OpFn := fun s _ i r => f s i r

/-- What the function of a step reads. -/
def fnInOf (s : State) (t : Step) : FnIn :=
  { op := dOp t.desc, desc := t.desc, input := t.input, keys := stepKeys s t, slice := t.sliceNo, nt := t.actNt,
    trusted := s.nt.trust != .untrusted, pinGrants := t.pinGrants, pinScreenMin := t.pinScreenMin,
    exportGrant := (sliceOf s t.sliceNo).policy.exportGrant }

/-- The DRBG instance that serves a step (R388): its slice's, or the one for ceremonies. -/
def instanceOf (t : Step) : Nat := if dOp t.desc / 256 = 8 then 1024 else t.sliceNo

/-- The draws of an instance, before a step's first call. -/
def rndOf (s : State) (n : Nat) : Rnd :=
  { inst := mget s.drbg n, seeds := (rngOf s (curDie s)).seeds, nt := s.nt.ns,
    person := leBytes 2 n ++ padTo 16 (moduleSerial s) ++ leBytes 1 (dieNo (curDie s)), count := s.vault.instCount }

/-- The instance, the seed buffer and the instantiation count after the draws of a step. A used seed is gone, and the
buffer that empties raises pool_empty (R387, R389). -/
def putRnd (s : State) (n : Nat) (r : Rnd) : State :=
  let d := curDie s
  let had := (rngOf s d).seeds.length
  let s := { s with drbg := (match r.inst with | some i => mput s.drbg n i | none => s.drbg)
                    vault := { s.vault with instCount := r.count } }
  let s := setRng s d { rngOf s d with seeds := r.seeds }
  let s := if had = r.seeds.length then s else bump s (pgRng d 0 + 0x190) 32 32 (had - r.seeds.length)
  if had ≠ 0 ∧ r.seeds.isEmpty = true then raise s (pgRng d 0) 4 else s

/-- Slot and generation bound at position 0. -/
def boundAt (t : Step) (p : Nat) : Option Bound := t.bound.find? (fun b => b.pos == p)
def genAt (t : Step) (p : Nat) : Nat := match boundAt t p with | some b => b.gen | none => 0

/-! ### Originating and nonce counters (R193, R222) -/

/-- The draws from a slot's counter at a generation. A generation that no draw has reached shares its counter with none. -/
def drawOf (s : State) (slot gen : Nat) : CounterDraw :=
  ((((mget s.kst.draws slot).getD []).find? (fun c => c.gens.contains gen))).getD ⟨[gen], 0⟩

def setDraw (s : State) (slot : Nat) (c : CounterDraw) : State :=
  let rest := ((mget s.kst.draws slot).getD []).filter (fun x => !x.gens.any (fun g => c.gens.contains g))
  { s with kst := { s.kst with draws := mput s.kst.draws slot (rest ++ [c]) } }

/-- Two generations of a slot hold the same key material and so share one counter. -/
def sameCounter (s : State) (slot a b : Nat) : Bool := (drawOf s slot a).gens.contains b

/-- Generation `b` of a slot goes on with the counter of generation `a`. -/
def joinCounter (s : State) (slot a b : Nat) : State :=
  let c := drawOf s slot a
  setDraw s slot { c with gens := c.gens.filter (fun g => g != b) ++ [b] }

/-- The next value of a key's counter: the larger of the stored one and the one that follows the last draw. -/
def nextCounter (s : State) (slot gen : Nat) (r : KeyRecord) : Nat :=
  let stored := match slotView s slot with
    | .held x => if sameCounter s slot gen x.generation then x.nonceCtr else r.nonceCtr
    | _ => r.nonceCtr
  max (drawOf s slot gen).next stored

/-- A value has been drawn: no other draw of the active die receives it. -/
def counterDrawn (s : State) (slot gen v : Nat) : State :=
  let c := drawOf s slot gen
  setDraw s slot { c with next := max c.next (v + 1) }

/-! ### Bulk opcodes (R221 to R226) -/

/-- BULK_OPEN (R221, R222). Its stream takes an identifier with the step's commit number (R35). Where no stream slot is free
and the nonce counter is exhausted too, ST_KEY_SLOT_BUSY stands, and a drawn nonce is written big-endian: both are the model's
choices (log entry 61). -/
def fnBulkOpen : OpFn := fun s t i r =>
  let d := t.desc
  let mode := byteAt d 64
  let slot := hSlot (dHandle d 0)
  let gen := genAt t 0
  let opened := fun (nonce : Bytes) (chain : Bytes) (keys : List KeyChange) (c : Nat) =>
    ({ status := stOk, out := zeros 4 ++ nonce, keys := keys, counter := c,
       effects := [.streamOpen 0 slot gen mode chain] } : Result)
  if (freshStream s t.sliceNo).isNone then (fails stKeySlotBusy, r)
  else match mode with
    | 1 =>
      let v := nextCounter s slot gen (keyAt i 0)
      if v = 2 ^ 64 - 1 then (fails stCounterExhausted, r)
      else (opened (beBytes 8 v) (nonceBlock (beBytes 8 v) 0) [.nonce slot gen (v + 1)] v, r)
    | 2 => (opened (cut d 72 8) (nonceBlock (cut d 72 8) 0) [] 0, r)
    | _ => (opened [] (cut d 72 16) [] 0, r)

/-- BULK_SEGMENT. In mode 0x03 the input is the last 16 bytes of the source. -/
def fnBulkSegment : OpFn := fun s t i r =>
  let id := leAt t.desc 64 4
  let n := leAt t.desc 72 8
  match streamOf s t.sliceNo id with
  | none => (fails stKeyNotFound, r)
  | some x =>
    if x.final || decide (2 ^ 36 < x.pos + n) || (x.mode == 3 && n % 16 != 0) then (fails stLength, r)
    else
      let chain := if x.mode = 3 then i.input else ctrPlus x.chain (ceilDiv n 16)
      ({ status := stOk, out := leBytes 8 (x.pos + n),
         effects := [.streamUpdate id chain (x.pos + n) (x.mode != 3 && n % 16 != 0)] }, r)

/-- BULK_CLOSE. -/
def fnBulkClose : OpFn := fun s t _ r =>
  match streamOf s t.sliceNo (leAt t.desc 64 4) with
  | none => (fails stKeyNotFound, r)
  | some x => ({ status := stOk, out := leBytes 8 x.pos, effects := [.streamClose (leAt t.desc 64 4)] }, r)

/-- BULK_TK7. -/
def fnBulkTk7 : OpFn := fun _ t i r =>
  let d := t.desc
  (returns (if byteAt d 64 = 3 then i.input else ctrPlus (cut d 80 16) (ceilDiv (leAt d 72 8) 16)), r)

/-- BTC_INVAL (R219). -/
def fnBtcInval : OpFn := fun _ t _ r =>
  ({ status := stOk, effects := [.btcInval (byteAt t.desc 64) (leAt t.desc 72 8)] }, r)

/-! ### Originating keys, digests, random bytes, measurement registers -/

/-- DUKPT_INITIAL_KEY (R192, R193). -/
def fnInitialKey : OpFn := fun s t i r =>
  let slot := hSlot (dHandle t.desc 0)
  let gen := genAt t 0
  let v := nextCounter s slot gen (keyAt i 0)
  if bdkVariant (keyAt i 0) ≠ byteAt t.desc 64 then (fails stKeyUsage, r)
  else if originEnd (keyAt i 0) ≤ v then (fails stCounterExhausted, r)
  else
    let (res, r) := fnDukptInitialKey i v r
    ({ res with keys := [.nonce slot gen (v + 1)] }, r)

/-- DIGEST_BLOCKS (R375, R376). -/
def fnDigestBlocks : OpFn := fun _ t i r =>
  match hashOf (byteAt t.desc 64) with
  | none => (fails stFormat, r)
  | some h =>
    let fl := byteAt t.desc 65
    let n := hashStateLen h
    let resume := fl % 2 == 1
    let st := hashBlocks h (if resume then i.input.take n else hashInit h) (if resume then i.input.drop n else i.input)
    if fl / 2 % 2 = 0 then (returnsAny st, r)
    else
      let dg := st.take (hashLen h)
      ({ returnsAny dg with effects := if fl / 4 % 2 = 1 then [.measureExtend (byteAt t.desc 66) false dg] else [] }, r)

/-- RANDOM_GET (R391). -/
def fnRandomGet : OpFn := fun _ t _ r =>
  let (b, r) := rndGen r (leAt t.desc 64 2)
  (returnsAny b, r)

/-- MEASURE_EXTEND (R379 to R381): judged and applied at commit. -/
def fnMeasureExtend : OpFn := fun _ t _ r =>
  let d := t.desc
  ({ status := stOk, effects := [.measureExtend (byteAt d 64) (byteAt d 65 % 2 == 1) (cut d 80 (byteAt d 66))] }, r)

/-- MEASURE_READ: the value is the register's at the commit. -/
def fnMeasureRead : OpFn := fun _ t _ r =>
  ({ status := stOk, effects := [.measureRead (byteAt t.desc 64) (byteAt t.desc 65 % 2 == 1)] }, r)

/-- KEY_TXN_QUERY (R258): what activation read from the log. -/
def fnTxnQuery : OpFn := fun _ _ i r => (returns i.input, r)

/-- KEY_REWRITE, KEY_ERASE and KEY_ACTIVATE_AT act on the generation bound. -/
def fnRewrite : OpFn := fun s t i r => fnKeyRewrite s i (genAt t 0) r
def fnErase : OpFn := fun s t i r => (fnKeyErase s i (if genAt t 0 = 0 then none else some (genAt t 0)), r)
def fnActivateAt : OpFn := fun s t i r => (fnKeyActivateAt s i (genAt t 0), r)

/-! ### Running a step -/

/-- The step may run its function: it is activated and bound, and its input has been read. -/
def mayRun (t : Step) (op : Nat) : Bool :=
  dOp t.desc == op && t.ran && t.inputDone && t.bindWait.isNone && t.ending.isNone && t.result.isNone &&
    (match t.phase with | .executing _ => true | _ => false)

/-- A public-key step whose function ended with one of these statuses has run a BNL job (R268, R269). -/
def usesBnl (op : Nat) (st : Status) : Bool :=
  op / 256 == 6 && (st == stOk || st == stVerifyFail || st == stPkeInput)

/-- The lane holds the schedule of the last operation that a step made on it; a step that makes none leaves the schedule of
the step before it. -/
def loadLane (s : State) (c k : Nat) (ops : List LaneOp) : State :=
  let l : Lane := match ops.getLast? with
    | some o => { key := o.code, schedule := o.key, loader := some k }
    | none => laneOf s c
  setLane s c { l with dataBytes := laneData ops, working := laneWorking ops }

/-- The lane work of a step's function on its core. An operation beyond a limit of R366 is refused and counted, and the step ends
with ST_LENGTH; one whose generate call found no seed keeps that status (R390). -/
def runLane (s : State) (c k : Nat) (i : FnIn) (res : Result) : Result × State :=
  let (ops, refused) := laneAccept [] (laneOps i res)
  let pg := pgLan (curDie s) c
  let a := pg + 0x180 + 8 * (c % 16)
  let s := bump (loadLane s c k ops) a 0 32 (laneCount ops)
  if refused && res.status != stRngUnavailable then (fails stLength, raise (bump s a 32 16 1) pg 1) else (res, s)

/-- The hashing of a step's function in its slot of a digest engine: blocks, and the state that they leave. What the firmware of
the other hashing opcodes feeds has no number that the manual fixes (R372, R374; log entry 9). -/
def hashWork (i : FnIn) : Option (Nat × Bytes) :=
  let key := (keyAt i 0).material
  match i.op with
  | 0x0701 => (hashOf (byteAt i.desc 64)).map (fun h =>
      let n := if byteAt i.desc 65 % 2 = 1 then hashStateLen h else 0
      ((i.input.length - n) / hashBlock h, hashBlocks h (if n = 0 then hashInit h else i.input.take n) (i.input.drop n)))
  | 0x0313 | 0x0314 => some (hmacWork (if byteAt i.desc 64 = 7 then .sha256 else .sha384) key i.input)
  | _ => none

/-- The digest engine of the step's core has hashed. -/
def runDigest (s : State) (c : Nat) (i : FnIn) : State :=
  let d := curDie s
  let blocks := fun s n => bump s (pgDge d (c / 18) + 0x108) 0 32 n
  match hashWork i with
  | some (n, st) => setDigest (blocks s n) d (c / 18) (c % 18) st
  | none =>
    if hashesInFirmware i.op then
      let (v, s) := drawFree s
      let (w, s) := drawFree s
      setDigest (blocks s (v % 65536)) d (c / 18) (c % 18) (beBytes 64 w)
    else s

/-- The units of a step's core after its function, and the result that they leave it. -/
def runUnits (s : State) (k : Nat) (t : Step) (i : FnIn) (res : Result) : Result × State :=
  match t.phase with
  | .executing c =>
    let (res, s) := runLane s c k i res
    (res, runDigest s c i)
  | _ => (res, s)

/-- Core cycles that a step has waited for a seed (R390). -/
def seedCycles (s : State) (t : Step) : Nat := match t.seedWait with | some w => (s.nt.ns - w) * 16 / 5 | none => 0


/-- A step's counted positions whose uses its commit spends. -/
def spentPositions (t : Step) (st : Status) : List Nat :=
  if spendsOn (dOp t.desc) st then (t.bound.filter (fun b => b.counted)).map (·.pos) else []

/-- A bulk step waits for a pipeline to accept its data pass (R227). -/
def awaitsPass (t : Step) : Bool :=
  (dOp t.desc == 0x0412 || dOp t.desc == 0x0414) && !t.accepted && t.ending.isNone &&
    (match t.result with | some r => r.status == stOk | none => false)

/-- The job of a BNL step, or the data pass of a bulk step, enters its ready list (R335). -/
def queueJob (s : State) (k : Nat) : State :=
  match stepOf s k with
  | none => s
  | some t =>
    if t.job = .queued then setBnl s t.level (listOf s.conf.bnlReady t.level ++ [k])
    else if awaitsPass t then setPipeList s t.level (listOf s.conf.pipeReady t.level ++ [k])
    else s

/-- The result of a step's function takes effect in the step. Its cycles are the opcode's, and those that the function and its
wait for a seed add (R145, R200). -/
def putResult (s : State) (k : Nat) (t : Step) (i : FnIn) (res : Result) (drawn : List Bytes) : State :=
  let op := dOp t.desc
  let extra := res.cycles + seedCycles s t
  let (res, s) := runUnits s k t i res
  let s := setStep s k { t with
    result := some { res with cycles := stepCycles op t.desc t.input.length i.keys + extra, drawn := drawn, spends := spentPositions t res.status }
    seedWait := none, job := if usesBnl op res.status then .queued else .none }
  let s := match res.keys.head?, boundAt t 0 with
    | some (.nonce slot gen v), some _ => counterDrawn s slot gen (v - 1)
    | _, _ => s
  queueJob s k

/-- An opcode row: the step runs its function. A draw that finds no seed leaves the step waiting for one, and nothing
drawn (R390). -/
def runOp (k op : Nat) (f : OpFn) (s : State) : State :=
  match stepOf s k with
  | none => s
  | some t =>
    if mayRun t op then
      let n := instanceOf t
      let (res, r) := f s t (fnInOf s t) (rndOf s n)
      if r.dry then setStep s k { t with seedWait := some (t.seedWait.getD s.nt.ns) }
      else putResult (putRnd s n r) k t (fnInOf s t) res r.drawn
    else s

end Sys2Proof.Machine
end

