-- ==== Sys2Proof/Machine/Ceremony.lean ====
section
/-!
DEFINITION. Ceremonies (R299 to R321): domains, rosters and actions, the action digest, the checks of approvals, card
results, components and shares, and the functions of the ceremony opcodes. What they change is applied at the commit of
their step (`CeremonyApply.lean`).
-/
namespace Sys2Proof.Machine

/-! ### Domains and actions -/

/-- A slice exists. -/
def sliceExists (s : State) (n : Nat) : Bool := (sliceOf s n).mode != .absent

/-- The module runs slice 0 in bootstrap form (R303). -/
def bootstrap (s : State) : Bool := s.life.state == .shipped || (s.life.state == .owned && s.vault.ownerRoot.isNone)

/-- Domains whose ceremonies a slice may conduct (R302). -/
def mayConduct (sliceNo dom : Nat) : Bool := dom == sliceNo + 1 || (sliceNo == 0 && dom == 0)

/-- The roster of a domain (R301). -/
def rosterAt (s : State) (dom : Nat) : Roster :=
  if dom = 0 then s.vault.rosterCopy else sget (fun _ => {}) s.rosters dom

/-- A domain exists (R299). -/
def domainExists (s : State) (dom : Nat) : Bool := dom == 0 || sliceExists s (dom - 1)

/-- The target domain of a ROSTER_CHANGE, or the slice that another module-domain action names. -/
def paramTarget (b : Bytes) : Nat := leAt b 0 2

/-- The domain column of Table 2. -/
def actionDomainOk (action dom : Nat) (b : Bytes) : Bool :=
  match action with
  | 0x20 | 0x21 | 0x40 => dom != 0
  | 0x04 => paramTarget b == dom || dom == 0
  | _ => dom == 0

/-- A slice is QUIESCED. -/
def quiesced (s : State) (n : Nat) : Bool := (sliceOf s n).mode == .quiesced

/-- The column "Permitted when" of Table 2. -/
def actionPermitted (s : State) (action dom : Nat) (b : Bytes) : Bool :=
  let owned := s.life.state == .owned && s.vault.ownerRoot.isSome
  match action with
  | 0x01 => s.life.state == .shipped
  | 0x02 => bootstrap s
  | 0x04 => owned && domainExists s (paramTarget b) && (dom != 0 || paramTarget b == 0 || quiesced s (paramTarget b - 1))
  | 0x11 | 0x12 => owned && quiesced s (paramTarget b)
  | _ => owned

/-- The new roster that the parameters of an action carry. -/
def newRoster (action : Nat) (b : Bytes) : Roster :=
  match action with
  | 0x01 | 0x02 => if b.isEmpty then {} else rosterOf b
  | 0x04 => rosterOf (b.drop 2)
  | 0x10 => rosterOf (b.drop 20)
  | _ => {}

/-- The action digest (R307). -/
def actionDigest (dom action id : Nat) (nonce params : Bytes) : Bytes :=
  hash .sha384 (beBytes 2 dom ++ beBytes 1 action ++ beBytes 4 id ++ nonce ++ params)

/-! ### Requirements (R305, R306, R318, R320) -/

/-- A roster entry shares a non-zero fingerprint with an entry of a roster. -/
def entryKnown (r : Roster) (e : RosterEntry) : Bool :=
  r.entries.any (fun x => (entryFps e).any (fun f => (entryFps x).contains f))

/-- Indices of the new roster's entries that must give an approval by possession. -/
def possessors (acting new : Roster) : List Nat :=
  (List.range new.entries.length).filter (fun j => match new.entries[j]? with | some e => !entryKnown acting e | none => false)

/-- The threshold of a share that a RESTORE has accepted. -/
def shareM (c : Ceremony) : Nat := match c.shares with | (_, m, _) :: _ => m | [] => 0

/-- The requirements of Table 2 are complete. An acting domain whose roster is not yet one of R299, with M of at least 2, has no
custodian who could approve (slice 0 before its first ROSTER_CHANGE; log entry 59). -/
def requirementsMet (s : State) (c : Ceremony) : Bool :=
  let acting := rosterAt s c.domain
  let new := newRoster c.action c.params
  let possessed := (possessors acting new).all (fun j => c.possessed.contains j)
  match c.action with
  | 0x01 => decide (0 < new.entries.length) && (List.range new.entries.length).all (fun j => c.possessed.contains j)
  | 0x02 => decide (0 < c.shares.length) && decide (shareM c ≤ c.shares.length)
  | 0x20 => decide (2 ≤ acting.m) && decide (acting.m ≤ c.components.length)
  | 0x04 | 0x10 => decide (2 ≤ acting.m) && decide (acting.m ≤ c.approved.length) && possessed
  | _ => decide (2 ≤ acting.m) && decide (acting.m ≤ c.approved.length)

/-- A ceremony after an accepted approval is QUORATE when its requirements are complete (Table 3). -/
def settleCeremony (s : State) (c : Ceremony) : Ceremony :=
  if c.mode = .opened ∧ requirementsMet s c = true then { c with mode := .quorate } else c

/-- State code of a live ceremony (Table 3). -/
def cerCode : CerMode → Nat
  | .opened => 1
  | .quorate => 2
  | .applying => 3

/-- Approvals accepted in a ceremony. -/
def approvalCount (c : Ceremony) : Nat := c.approved.length + c.possessed.length + c.shares.length

/-- State, approvals, components and invalid count of a ceremony (Table 9). -/
def cerHead (c : Ceremony) : Bytes :=
  leBytes 1 (cerCode c.mode) ++ leBytes 1 (approvalCount c) ++ leBytes 1 c.components.length ++ leBytes 1 c.invalid

/-! ### Credentials (R313, R315, R316) -/

def cardFpOf (point : Bytes) : Bytes := (hash .sha384 point).take 32
def remoteFpOf (ec dsa : Bytes) : Bytes := (hash .sha384 (ec ++ dsa)).take 32

/-- The first index of a roster entry that a predicate accepts. -/
def entryIndex (r : Roster) (p : RosterEntry → Bool) : Option Nat :=
  (List.range r.entries.length).find? (fun j => match r.entries[j]? with | some e => p e | none => false)

/-- Who a credential is in a ceremony: a custodian of the acting roster at its index, or one of the new roster by
possession at 16 plus its index. -/
def credentialOf (s : State) (c : Ceremony) (p : RosterEntry → Bool) (index : Option Nat) : Option Nat :=
  let at_ := fun (r : Roster) => match index with
    | some j => (match r.entries[j]? with | some e => if p e then some j else none | none => none)
    | none => entryIndex r p
  match at_ (rosterAt s c.domain) with
  | some j => some j
  | none =>
    match at_ (newRoster c.action c.params) with
    | some j => if (possessors (rosterAt s c.domain) (newRoster c.action c.params)).contains j then some (16 + j) else none
    | none => none

/-- The custodian has approved already (check 6). -/
def hasApproved (c : Ceremony) (who : Nat) : Bool := if who < 16 then c.approved.contains who else c.possessed.contains (who - 16)

/-- An approval recorded. -/
def recordApproval (c : Ceremony) (who : Nat) : Ceremony :=
  if who < 16 then { c with approved := c.approved ++ [who] } else { c with possessed := c.possessed ++ [who - 16] }

/-- The key that wraps a component (purpose 1) or a share (purpose 2) between the ceremony key and a point (R316). -/
def wrapKey (priv : Bytes) (point fp : Bytes) (id purpose : Nat) : Option Bytes :=
  match ptOfBytes p384 point with
  | none => none
  | some q =>
    match ptMul p384 (ofBe priv) (some q) with
    | none => none
    | some (x, _) =>
      some ((hash .sha384 (beBytes 4 1 ++ beBytes 48 x ++ ascii "SUNDIEN CTK1" ++ beBytes 4 id ++ fp ++ beBytes 1 purpose)).take 32)

/-- What an approval brings: who gave it, and the point, fingerprint and wrapped bytes of a component or a share. -/
structure Approval where
  who   : Nat
  point : Bytes
  fp    : Bytes
  wrapped : Bytes

/-- The outcome of the checks of an approval. -/
inductive Checked where
  | ok (a : Approval)
  /-- ST_APPROVAL_INVALID, counted toward the limit of three. -/
  | counted
  /-- A status that does not count. -/
  | fails (st : Status)

/-- The length of the envelope of a token and the offset at which its signatures begin. -/
def tokenEnv (b : Bytes) : Nat := beAt b 88 2

/-- Check 1: the layout of a token of a kind. -/
def tokenLayoutOk (b : Bytes) (kind : Nat) : Bool :=
  let n := tokenEnv b
  b.take 4 == ascii "SCAT" && byteAt b 4 == 1 && byteAt b 5 == kind && beAt b 6 2 == b.length && byteAt b 11 == 0 &&
    allZero (cut b 90 6) && b.length == 5550 + n && (if kind = 1 then n == 0 else n == 121 || n == 129 || n == 137)

/-- Check 2: the token names the ceremony. -/
def tokenNames (b : Bytes) (id : Nat) (c : Ceremony) : Bool :=
  beAt b 8 2 == c.domain && beAt b 12 4 == id && cut b 16 16 == c.nonce && cut b 32 48 == c.digest

/-- Check 5: both signatures of a token verify over its preceding bytes. -/
def tokenSigned (b : Bytes) : Bool :=
  let body := b.take (2145 + tokenEnv b)
  let sig := b.drop (2145 + tokenEnv b)
  (match ptOfBytes p384 (cut b 96 97) with
   | some q => ecdsaOk p384 q (hash .sha384 body) (beAt sig 0 48) (beAt sig 48 48)
   | none => false) &&
    mlDsaVerify 0x69 (cut b 193 1952) (ascii "SUNDIEN APPROVE") body (cut sig 96 3309)

/-- Actions whose approvals are given by card alone (Table 2). -/
def cardOnly (action : Nat) : Bool := action == 0x01 || action == 0x02

/-- The checks of a token in their order (R313, R484). -/
def checkToken (s : State) (id : Nat) (c : Ceremony) (nt : Nat) (kind : Nat) (b : Bytes) : Checked :=
  let fp := remoteFpOf (cut b 96 97) (cut b 193 1952)
  if (policyForbid s).testBit 4 then .fails stApprovalInvalid
  else if !tokenLayoutOk b kind then .counted
  else if !tokenNames b id c then .counted
  else if s.nt.trust = .untrusted then .fails stTimeUntrusted
  else if beAt b 80 8 ≤ nt ∨ nt + 3600000000000 < beAt b 80 8 then .fails stApprovalInvalid
  else match credentialOf s c (fun e => e.remote && e.remoteFp == fp) (some (byteAt b 10)) with
    | none => .counted
    | some who =>
      if !tokenSigned b then .counted
      else if hasApproved c who then .fails stApprovalInvalid
      else .ok ⟨who, cut b 2145 97, fp, cut b 2242 (tokenEnv b - 97)⟩

/-- The challenge that a card signs (R314). -/
def cardChallenge (op id : Nat) (c : Ceremony) : Bytes :=
  ascii "SUNDIEN CARD" ++ beBytes 1 op ++ beBytes 2 c.domain ++ beBytes 4 id ++ c.nonce ++ c.digest

/-- A card's signature over its challenge. -/
def cardSigned (op id : Nat) (c : Ceremony) (point sig : Bytes) : Bool :=
  match ptOfBytes p384 point with
  | some q => ecdsaOk p384 q (hash .sha384 (cardChallenge op id c)) (beAt sig 0 48) (beAt sig 48 48)
  | none => false

/-- The checks of a held card result (R315). In a RESTORE the roster that the card must stand in is known only at the
close (R320): the signature is checked, and that the card has not given a share already. -/
def checkCard (s : State) (id : Nat) (c : Ceremony) (port : Nat) : Checked :=
  match (cardOf s port).result with
  | none => .fails stApprovalInvalid
  | some r =>
    let fp := cardFpOf r.point
    if r.ceremony ≠ id then .fails stApprovalInvalid
    else if c.action = 0x02 then
      (if !cardSigned r.op id c r.point r.sig then .counted
       else if c.shares.any (fun x => x.2.2.2.2 == fp) then .fails stApprovalInvalid
       else .ok ⟨0, r.point, fp, r.wrapped⟩)
    else match credentialOf s c (fun e => e.card && e.cardFp == fp) none with
      | none => .counted
      | some who =>
        if !cardSigned r.op id c r.point r.sig then .counted
        else if hasApproved c who then .fails stApprovalInvalid
        else .ok ⟨who, r.point, fp, r.wrapped⟩

/-! ### Finding the ceremony of a request -/

/-- The ceremony that a request names, as its slice may see it (R302). -/
def cerOf (s : State) (sliceNo id : Nat) : Option Ceremony :=
  match mget s.cer id with
  | some c => if mayConduct sliceNo c.domain then some c else none
  | none => none

/-- What a ceremony request finds: a ceremony in OPEN or QUORATE, or the status that ends the request (R309, R310). In APPLYING
expiry still applies to the share-writing phase. -/
def cerFor (s : State) (t : Step) : Except Status Ceremony :=
  match cerOf s t.sliceNo (leAt t.desc 64 4) with
  | none =>
    (match s.vault.outcomes.find? (fun o => o.id == leAt t.desc 64 4 && mayConduct t.sliceNo o.domain) with
     | some o => if o.state = 6 then .error stCeremonyTimeout else .error stCeremonyState
     | none => .error stCeremonyState)
  | some c =>
    if c.mode = .applying ∧ c.toWrite.isEmpty = true then .error stCeremonyState
    else if c.expires ≤ t.actNt then .error stCeremonyTimeout
    else if c.mode = .applying then .error stCeremonyState
    else .ok c

/-! ### The opcodes -/

/-- A domain may open a further ceremony: it has none, and the module has fewer than 64 (R308). -/
def cerRoom (s : State) (dom : Nat) : Bool := !s.cer.any (fun e => e.2.domain == dom) && decide (s.cer.length < 64)

/-- The 177 bytes that an open returns. -/
def openBytes (t : Step) (id exp : Nat) (nonce pub : Bytes) : Bytes :=
  leBytes 4 id ++ zeros 4 ++ leBytes 8 exp ++ nonce ++ actionDigest (leAt t.desc 64 2) (byteAt t.desc 66) id nonce t.block ++ pub

/-- CEREMONY_OPEN (R302, R303, R305, R308). The identifier and the limits are those that stand at the commit, so an open that has
not committed shows itself to no other request (R35). -/
def fnCeremonyOpen : OpFn := fun s t _ r =>
  let d := t.desc
  let dom := leAt d 64 2
  let action := byteAt d 66
  if !mayConduct t.sliceNo dom || !domainExists s dom || !actionDomainOk action dom t.block || !actionPermitted s action dom t.block ||
      !cerRoom s dom then (fails stCeremonyState, r)
  else
    let id := s.vault.cerNext
    let (nonce, r) := rndGen r 16
    let (k, r) := drawScalar 1000 p384 r
    let pub := ptBytes p384 (ptMul p384 k (basePt p384))
    let exp := t.actNt + leAt d 68 4 * 1000000000
    ({ status := stOk, ext := openBytes t id exp nonce pub, effects := [.ceremonyOpen id exp nonce (beBytes 48 k) pub] }, r)

/-- The port whose held result a request consumes: it names that port and the ceremony that the result is for (R315). -/
def cardUsed (t : Step) : List Effect :=
  match byteAt t.desc 68 with
  | 1 => [.consumeCard 0]
  | 2 => [.consumeCard 1]
  | _ => []

/-- A counted failure (Table 3). -/
def countedFail (t : Step) : Result :=
  { status := stApprovalInvalid, effects := .invalidApproval (leAt t.desc 64 4) :: cardUsed t }

/-- A failure that does not count. The result that the request named is consumed with it (R315). -/
def plainFail (t : Step) (st : Status) : Result := { fails st with effects := cardUsed t }

/-- The checks of the approval that a request carries. -/
def checkApproval (s : State) (t : Step) (i : FnIn) (c : Ceremony) (kind : Nat) : Checked :=
  let id := leAt t.desc 64 4
  match byteAt t.desc 68 with
  | 3 => if cardOnly c.action then .fails stCeremonyState else checkToken s id c i.nt kind i.input
  | p => checkCard s id c (p - 1)

/-- A share of a RESTORE (R320): unwrapped, and refused where it does not fit the shares accepted. -/
def shareResult (t : Step) (c : Ceremony) (a : Approval) : Result :=
  let id := leAt t.desc 64 4
  match (wrapKey c.keyPriv a.point a.fp id 2).bind (fun k => aesUnwrap k a.wrapped) with
  | none => countedFail t
  | some b =>
    let fits := match c.shares with
      | (_, m, fp, _, _) :: _ => m == byteAt b 1 && fp == cut b 2 16
      | [] => true
    if b.length ≠ 56 ∨ fits = false ∨ c.shares.any (fun x => x.1 == byteAt b 0) = true ∨ byteAt b 0 = 0 then countedFail t
    else
      let c' := { c with shares := c.shares ++ [(byteAt b 0, byteAt b 1, cut b 2 16, cut b 18 32, a.fp)] }
      let q := if decide (shareM c' ≤ c'.shares.length) then { c' with mode := .quorate } else c'
      { status := stOk, out := cerHead q,
        effects := .shareAccept id (byteAt b 0) (byteAt b 1) (cut b 2 16) (cut b 18 32) a.fp :: cardUsed t }

/-- CEREMONY_APPROVE. -/
def fnCeremonyApprove : OpFn := fun s t i r =>
  match cerFor s t with
  | .error st => (plainFail t st, r)
  | .ok c =>
    if c.action = 0x20 then (plainFail t stCeremonyState, r)
    else match checkApproval s t i c 1 with
      | .counted => (countedFail t, r)
      | .fails st => (plainFail t st, r)
      | .ok a =>
        if c.action = 0x02 then (shareResult t c a, r)
        else
          ({ status := stOk, out := cerHead (settleCeremony s (recordApproval c a.who)),
             effects := .ceremonyApprove (leAt t.desc 64 4) a.who [] :: cardUsed t }, r)

/-- The algorithm of the template of a COMPONENT_ENTRY. -/
def componentAlg (c : Ceremony) : Nat := tplAlg (cut c.params 8 48)

/-- COMPONENT_ENTER (R316, R317). -/
def fnComponentEnter : OpFn := fun s t i r =>
  let id := leAt t.desc 64 4
  match cerFor s t with
  | .error st => (plainFail t st, r)
  | .ok c =>
    if c.action ≠ 0x20 then (plainFail t stCeremonyState, r)
    else match checkApproval s t i c 2 with
      | .counted => (countedFail t, r)
      | .fails st => (plainFail t st, r)
      | .ok a =>
        match (wrapKey c.keyPriv a.point a.fp id 1).bind (fun k => aesUnwrap k a.wrapped) with
        | none => (countedFail t, r)
        | some v =>
          if v.length ≠ tplKeyLen (cut c.params 8 48) ∨ allZero v = true ∨ c.components.contains v = true then (countedFail t, r)
          else
            let c' := settleCeremony s { recordApproval c a.who with components := c.components ++ [v] }
            ({ status := stOk, out := cerHead c' ++ padTo 5 ((checkValue (componentAlg c) v).getD []),
               effects := .componentEnter id a.who v :: cardUsed t }, r)

/-- CEREMONY_CANCEL. -/
def fnCeremonyCancel : OpFn := fun s t _ r =>
  match cerFor s t with
  | .error st => (fails st, r)
  | .ok _ => ({ status := stOk, effects := [.ceremonyCancel (leAt t.desc 64 4)] }, r)

/-- Output of CEREMONY_STATUS. -/
def statusBytes (head : Bytes) (id expires seq dom action outcome : Nat) : Bytes :=
  head ++ leBytes 4 id ++ leBytes 8 expires ++ leBytes 8 seq ++ leBytes 2 dom ++ leBytes 1 action ++ leBytes 1 outcome

/-- CEREMONY_STATUS. A ceremony that the slice may not conduct reads as an unknown one (log entry 25). -/
def fnCeremonyStatus : OpFn := fun s t _ r =>
  let id := leAt t.desc 64 4
  match cerOf s t.sliceNo id with
  | some c => (returns (statusBytes (cerHead c) id c.expires c.closeSeq c.domain c.action 0), r)
  | none =>
    match s.vault.outcomes.find? (fun o => o.id == id && mayConduct t.sliceNo o.domain) with
    | some o =>
      (returns (statusBytes (leBytes 1 o.state ++ leBytes 1 o.approvals ++ leBytes 1 o.components ++ leBytes 1 o.invalid) id
        o.expires o.closeSeq o.domain o.action o.state), r)
    | none => (returns (statusBytes (zeros 4) 0 0 0 0 0 0), r)

/-- The ceremony opcodes. -/
def execCeremonyOpen (k : Nat) (s : State) : Answer := endWith s (runOp k 0x0801 fnCeremonyOpen s)
def execCeremonyApprove (k : Nat) (s : State) : Answer := endWith s (runOp k 0x0802 fnCeremonyApprove s)
def execComponentEnter (k : Nat) (s : State) : Answer := endWith s (runOp k 0x0804 fnComponentEnter s)
def execCeremonyCancel (k : Nat) (s : State) : Answer := endWith s (runOp k 0x0805 fnCeremonyCancel s)
def execCeremonyStatus (k : Nat) (s : State) : Answer := endWith s (runOp k 0x0806 fnCeremonyStatus s)

/-- CEREMONY_CLOSE (R309): a QUORATE ceremony enters APPLYING, and the warden takes semaphore 0 for an action of the
module domain (R86). The row of the action then checks its effect. In any other state the close fails. -/
def closeStart (k : Nat) (s : State) : State :=
  match stepOf s k with
  | none => s
  | some t =>
    let id := leAt t.desc 64 4
    if !mayRun t 0x0803 then s
    else match cerOf s t.sliceNo id with
      | some c =>
        if c.mode = .applying ∧ c.toWrite.isEmpty = true then s
        else match cerFor s t with
          | .error st => putResult s k t (fnInOf s t) (fails st) []
          | .ok c =>
            if c.mode ≠ .quorate then putResult s k t (fnInOf s t) (fails stCeremonyState) []
            else
              let s := { s with cer := mput s.cer id { c with mode := .applying, closer := some k } }
              if c.domain = 0 then wardenTake s else s
      | none =>
        match cerFor s t with
        | .error st => putResult s k t (fnInOf s t) (fails st) []
        | .ok _ => s

def execCeremonyClose (k : Nat) (s : State) : Answer := endWith s (closeStart k s)

end Sys2Proof.Machine
end

