-- ==== Sys2Proof/Machine/KeyTxn.lean ====
section
/-!
DEFINITION. Key transactions (R244 to R251, R257 to R262): the writes that a step's result makes, the checks at its commit,
progress marks, sealing, the flip and its consequences, and the internal transactions.
-/
namespace Sys2Proof.Machine

/-! ### Seal numbers (R234) -/

/-- The next seal number; an exhausted block is replaced by the next 65,536 numbers of the vault's counter. -/
def takeSeal (s : State) : Nat × State :=
  let k := s.kst
  if k.sealNext < k.sealEnd then (k.sealNext, { s with kst := { k with sealNext := k.sealNext + 1 } })
  else
    (s.vault.sealNext, { s with kst := { k with sealNext := s.vault.sealNext + 1, sealEnd := s.vault.sealNext + 65536 }
                                vault := { s.vault with sealNext := s.vault.sealNext + 65536 } })

/-! ### What a result writes -/

/-- The current record of a slot, where it is of a generation. -/
def currentAt (s : State) (slot gen : Nat) : Option KeyRecord :=
  match slotView s slot with
  | .held r => if r.generation = gen then some r else none
  | _ => none

/-- Slot and bound generation of a position whose use is spent. -/
def spentAt (t : Step) (p : Nat) : Option (Nat × Nat) :=
  (boundAt t p).map (fun b => (b.slot, b.gen))

/-- Uses that a result spends on a slot's generation. -/
def spendCount (t : Step) (res : Result) (slot gen : Nat) : Nat :=
  (res.spends.filter (fun p => spentAt t p == some (slot, gen))).length

/-- The counter value that a result stores in a slot's generation: a draw that bound an earlier generation of the same key
material counts too (R193, R222). -/
def nonceFor (s : State) (res : Result) (slot gen : Nat) : Option Nat :=
  res.keys.findSome? (fun c => match c with | .nonce a g v => if a = slot ∧ sameCounter s slot g gen = true then some v else none | _ => none)

/-- The slot that a change other than a counter write changes. -/
def changeSlot : KeyChange → Option Nat
  | .create a _ | .rewrite a _ _ _ _ | .erase a _ _ | .eraseDamaged a | .setActivate a _ _ | .dropPending a _ | .cutNow a _ => some a
  | .nonce _ _ _ => none

/-- The slot whose current record a change replaces or erases at its commit. -/
def replacedSlot : KeyChange → Option Nat
  | .create a _ | .erase a _ _ | .eraseDamaged a | .cutNow a _ => some a
  | .rewrite a _ _ _ at_ => if at_ = 0 then some a else none
  | .setActivate _ _ _ | .dropPending _ _ | .nonce _ _ _ => none

/-- The current record of a slot changes under a result's counter writes: a use that was bound at its generation is spent, or
a counter that it shares is stored. -/
def countsOn (s : State) (t : Step) (res : Result) (slot gen : Nat) : Bool :=
  spendCount t res slot gen != 0 || (nonceFor s res slot gen).isSome

/-- Slots whose counters a result writes, each once. A slot whose record the result itself replaces or erases, and a
generation that is no longer current, take no counter write (R244). -/
def counterTargets (s : State) (t : Step) (res : Result) : List Nat :=
  let own := res.keys.filterMap replacedSlot
  let all := (res.spends.filterMap (spentAt t)).map (·.1) ++
    res.keys.filterMap (fun c => match c with | .nonce a _ _ => some a | _ => none)
  (distinct all).filter
    (fun a => !own.contains a && countsOn s t res a (curGen s a) && (currentAt s a (curGen s a)).isSome)

/-- A record after the counter writes of a result. -/
def counted (s : State) (t : Step) (res : Result) (r : KeyRecord) (slot : Nat) : KeyRecord :=
  { r with usesLeft := r.usesLeft - spendCount t res slot r.generation
           nonceCtr := max r.nonceCtr ((nonceFor s res slot r.generation).getD 0) }

/-- The writes of the counter part of a result. -/
def counterWrites (s : State) (t : Step) (res : Result) : List FrameWrite :=
  (counterTargets s t res).foldl (fun ws a =>
    match currentAt s a (curGen s a) with
    | some r => recordWrites s a .current (counted s t res r a) ws
    | none => ws) []

/-- The slot is an extension slot of a group: it holds the record of one, or its directory word says so where its frame
cannot be read (R243, R262). -/
def isExtension (s : State) (slot primary : Nat) : Bool :=
  match slotView s slot with
  | .ext p => p == primary
  | .damaged => (slotDir (mramOf s (curDie s)) slot).ext
  | _ => false

/-- Slots of a group of which a frame is damaged: the slot, and each following extension slot. -/
def damagedGroup (s : State) (slot : Nat) : Nat :=
  match slotView s slot with
  | .held r => 1 + r.extCount
  | _ => 1 + ((List.range 15).takeWhile (fun j => isExtension s (slot + j + 1) slot)).length

/-- Tombstones of a damaged group: a damaged slot is retired (R235). -/
def damagedTombs (s : State) (slot count : Nat) (done : List FrameWrite) : List FrameWrite :=
  match count with
  | 0 => done
  | n + 1 =>
    let gen := if slotView s slot = .damaged then lastGenMax else lastGenOf s slot
    damagedTombs s (slot + 1) n (addWrite done (tombWrite s slot gen done))

/-- What replaced the generation that a class 0x05 change bound (R261). -/
def lostStatus (s : State) (slot : Nat) : Status :=
  match slotView s slot with
  | .held _ => stKeyGeneration
  | .damaged => stIntegrity
  | _ => if inWithdrawal s slot then stKeyWithdrawn else stKeyNotFound

/-- A pending record as it becomes current (R236, R250). Where both hold the same key material its counter goes on from the
current record's, so that no value is issued twice (R193, R222). -/
def cutRecord (cur p : KeyRecord) : KeyRecord :=
  { p with pending := false, activateAt := 0, nonceCtr := if p.material = cur.material then max cur.nonceCtr p.nonceCtr else p.nonceCtr }

/-- The writes of a cutover: the pending record is written as the current one of a slot without pending record. -/
def cutWrites (s : State) (slot : Nat) (cur p : KeyRecord) (done : List FrameWrite) : List FrameWrite :=
  recordWrites s slot .only (cutRecord cur p) done

/-- The new record of a rewrite: source 0x03 keeps the counters that stand now (R254, R261). -/
def rewritten (s : State) (slot src : Nat) (r cur : KeyRecord) (activateAt owner : Nat) : KeyRecord :=
  { r with generation := lastGenOf s slot + 1, owner := owner, activateAt := activateAt, pending := activateAt != 0
           nonceCtr := if src = 3 then cur.nonceCtr else r.nonceCtr }

/-- The writes of one change at its commit, or the status with which the change fails there. -/
def changeWrites (s : State) (sliceNo : Nat) (c : KeyChange) (done : List FrameWrite) : Except Status (List FrameWrite) :=
  match c with
  | .nonce _ _ _ => .ok done
  | .create slot r =>
    let st := createStatus s sliceNo slot (1 + extNeeded r.algorithm r.cls)
    if st ≠ stOk then .error st
    else .ok (recordWrites s slot .current { r with generation := lastGenOf s slot + 1, owner := sliceNo } done)
  | .rewrite slot gen src r at_ =>
    match currentAt s slot gen with
    | none => .error (lostStatus s slot)
    | some cur =>
      let st := rewriteStatus s slot at_
      if st ≠ stOk then .error st
      else if src = 3 ∧ r.counted = true ∧ cur.counted = true ∧ cur.usesLeft < r.usesLeft then .error stKeyUsage
      else .ok (recordWrites s slot (if at_ = 0 then .current else .pending) (rewritten s slot src r cur at_ sliceNo) done)
  | .erase slot gen imm =>
    match currentAt s slot gen with
    | none => .error (lostStatus s slot)
    | some cur =>
      if !imm && (pendingView s slot).isSome then .error stKeySlotBusy
      else .ok (tombWrites s slot (lastGenOf s slot) (1 + cur.extCount) done)
  | .eraseDamaged slot => if groupDamaged s slot then .ok (damagedTombs s slot (damagedGroup s slot) done) else .error stKeyNotFound
  | .setActivate slot gen at_ =>
    match currentAt s slot gen, pendingView s slot with
    | none, _ => .error (lostStatus s slot)
    | some _, none => .error stKeySlotBusy
    | some _, some p => .ok (recordWrites s slot .pending { p with activateAt := at_ } done)
  | .dropPending slot gen =>
    match currentAt s slot gen, pendingView s slot with
    | none, _ => .error (lostStatus s slot)
    | some _, none => .error stKeySlotBusy
    | some cur, some _ => .ok (recordWrites s slot .only cur done)
  | .cutNow slot gen =>
    match currentAt s slot gen, pendingView s slot with
    | none, _ => .error (lostStatus s slot)
    | some _, none => .error stKeySlotBusy
    | some cur, some p => .ok (cutWrites s slot cur p done)

/-- The writes of all changes of a result, after its counter writes. -/
def allChanges (s : State) (sliceNo : Nat) (cs : List KeyChange) (done : List FrameWrite) : Except Status (List FrameWrite) :=
  match cs with
  | [] => .ok done
  | c :: r =>
    match changeWrites s sliceNo c done with
    | .error st => .error st
    | .ok ws => allChanges s sliceNo r ws

/-- The result makes a change of class 0x05 or another creation, rewrite or erase. -/
def hasChange (res : Result) : Bool := !(res.keys.filterMap changeSlot).isEmpty

/-- Slots from one on. -/
def slotRange (slot count : Nat) : List Nat := (List.range count).map (fun j => slot + j)

/-- The slots of the group that holds a slot's current record. -/
def groupSlots (s : State) (slot : Nat) : List Nat :=
  slotRange slot (match slotView s slot with
    | .held r => 1 + r.extCount
    | .damaged => damagedGroup s slot
    | _ => 1)

/-- The slots that a change creates, rewrites, erases or cuts over (R261). -/
def changedSlots (s : State) : KeyChange → List Nat
  | .create a r => slotRange a (1 + extNeeded r.algorithm r.cls)
  | .rewrite a _ _ _ _ | .erase a _ _ | .eraseDamaged a | .cutNow a _ => groupSlots s a
  | .setActivate _ _ _ | .dropPending _ _ | .nonce _ _ _ => []

/-- The commit of the step writes a frame (R257). -/
def needsTxn (s : State) (t : Step) (res : Result) : Bool := hasChange res || !(counterTargets s t res).isEmpty

/-- Group slots that an immediate erase withdraws. -/
def withdrawn (res : Result) : Bool := res.keys.any (fun c => match c with | .erase _ _ imm => imm | _ => false)

/-- The generations assigned by a transaction, in the order of the result's creations and rewrites (Table 10 of the
key-store chapter: 4 bytes each at the head of the output). -/
def assignedGens (s : State) (res : Result) : List Nat :=
  res.keys.filterMap (fun c => match c with
    | .create a _ | .rewrite a _ _ _ _ => some (lastGenOf s a + 1)
    | _ => none)

/-- The output with the assigned generations in its first bytes. -/
def patchGens (out : Bytes) (gens : List Nat) : Bytes := (gens.map (leBytes 4)).flatten ++ out.drop (4 * gens.length)

/-! ### Marks (R259, R261) -/

/-- The lowest count of free shadow frames, and shadow_low when the count falls below a quarter (R262). -/
def shadowWatch (before : Nat) (s : State) : State :=
  let f := shadowFree s
  let s := { s with kst := { s.kst with shadowMin := min s.kst.shadowMin f } }
  if 64508 ≤ before ∧ f < 64508 then raise s (pgKst (curDie s) 0) 1 else s

/-- The new frames and rosters of a transaction stand in the MRAM of the given dies (step 2 of R259). -/
def putFrames (s : State) (ds : List Die) (x : Mark) : State := onMram s ds (putMark x)

/-- The frames of a mark are sealed: they stand on the active die's MRAM, and in duplex running their FRAME record leaves. -/
def framesSealed (s : State) (m : Nat) (x : Mark) : State :=
  match activeDie s with
  | some d =>
    let s := putFrames s [d] x
    if duplex s then mirrorSend s (.frame m) else s
  | none => s

/-- A mark set in PREPARED: its shadow frames are allocated, and a seal job for each of its frames arrives (R259, R369). A mark of
rosters alone has no frame to seal. -/
def setMark (s : State) (m : Nat) (x : Mark) : State :=
  let before := shadowFree s
  let s := shadowWatch before { s with kst := { s.kst with marks := mput s.kst.marks m x } }
  if x.writes.isEmpty then framesSealed s m x
  else (List.range x.writes.length).foldl (fun s i => addJob s (.sealWrite m i)) s

/-- A mark of an internal transaction, where a mark is free, no other mark holds its slots and its frames are found. -/
def internalMark (s : State) (kind : TxnKind) (sliceNo slot : Nat) (ws : List FrameWrite) (changes : List Nat) : State :=
  match freeMark s with
  | none => s
  | some m =>
    if ws.any (fun w => markOn s w.slot) || ws.isEmpty || !framesFound ws then s
    else setMark s m { kind := kind, sliceNo := sliceNo, slot := slot, clientSeq := 0, writes := ws, changes := changes }

/-- A write that still waits for its seal job. -/
def unsealed (w : FrameWrite) : Bool := w.frame.image.isEmpty


/-- The new directory words stand in the MRAM of the given dies (step 3 of R259). -/
def putDirs (s : State) (ds : List Die) (ws : List FrameWrite) : State :=
  onMram s ds (fun m => ws.foldl (fun m w => putExpiry (putDir m w) w.slot) m)

/-! ### Consequences of the commit (R247 to R250) -/

/-- The cache after a slot's record was written, which `old` was before (R249): a record that keeps its generation updates its
entry; a new generation makes the entries that no step holds leave, and new material is placed in an entry. -/
def cacheAfter (old : SlotView) (s : State) (slot : Nat) : State :=
  match slotView s slot, old with
  | .held r, .held o =>
    if r.generation = o.generation then
      { s with kst := { s.kst with cache := s.kst.cache.map (fun e => if e.slot == slot && e.gen == r.generation then { e with key := r } else e) } }
    else if r.material = o.material then cacheInvalidate s slot
    else (cacheLoad (cacheInvalidate s slot) slot r.generation r).getD (cacheInvalidate s slot)
  | .held r, _ => (cacheLoad (cacheInvalidate s slot) slot r.generation r).getD (cacheInvalidate s slot)
  | _, _ => cacheInvalidate s slot

/-- A rewrite under source 0x03 keeps the key material: its generation shares the counter of the one that it rewrote (R193,
R222, R254). -/
def counterAfter (s : State) (k : Nat) (x : Mark) : State :=
  match stepOf s k with
  | none => s
  | some t => match t.result with
    | none => s
    | some res => res.keys.foldl (fun s c => match c with
      | .rewrite slot gen 3 _ _ =>
        (match x.writes.findSome? (fun w => match w.frame.body with | .primary r => if w.slot = slot ∧ r.generation ≠ gen then some r.generation else none | _ => none) with
         | some g => joinCounter s slot gen g
         | none => s)
      | _ => s) s

/-- The list of slots with a pending record after a slot changed. -/
def pendingsAfter (s : State) (slot : Nat) : State :=
  let rest := s.kst.pendings.filter (fun e => e.1 != slot)
  match pendingView s slot with
  | some _ => { s with kst := { s.kst with pendings := if s.kst.pendings.any (fun e => e.1 == slot) then s.kst.pendings else rest ++ [(slot, s.nt.ns)]
                                           waitNoted := s.kst.waitNoted } }
  | none => { s with kst := { s.kst with pendings := rest, waitNoted := s.kst.waitNoted.filter (fun x => x != slot) } }

/-- An immediate erase of a slot has committed (R248): every uncommitted step that bound it ends with ST_KEY_WITHDRAWN, its
data passes are abandoned, and the slot is in withdrawal. -/
def withdraw (s : State) (slot : Nat) : State :=
  let s := { s with kst := { s.kst with withdrawal := mput s.kst.withdrawal slot s.nt.ns } }
  endAll s (fun _ t => t.bound.any (fun b => b.slot == slot && !b.target)) stKeyWithdrawn

/-- Frames written are counted (KST_TXN.writes). -/
def countWrites (s : State) (n : Nat) : State := bump s (pgKst (curDie s) 0 + 0x108) 32 32 n

/-- The commit of a transaction's writes on the active die: its directory words, the cache, shared counters, pending records,
withdrawal. -/
def flipWrites (s : State) (x : Mark) : State :=
  let primaries := distinct ((x.writes.filter (fun w => !w.newDir.ext)).map (·.slot))
  let olds := primaries.map (fun a => (a, slotView s a))
  let s := putDirs s (match activeDie s with | some d => [d] | none => []) x.writes
  let s := olds.foldl (fun s e => pendingsAfter (cacheAfter e.2 s e.1) e.1) s
  let s := match x.kind with | .step k => counterAfter s k x | _ => s
  let s := countWrites s x.writes.length
  if x.withdraws then primaries.foldl withdraw s else s

/-! ### What a numbered transaction means for the steps that hold its slots (R360) -/

/-- A transaction takes a bound generation away: a new one replaces it, or the slot is empty. -/
def lostBy (x : Mark) (b : Bound) : Option Status :=
  (x.writes.find? (fun w => w.slot == b.slot)).bind (fun w =>
    if !w.newDir.occupied then some stKeyNotFound
    else match w.frame.body with
      | .primary r => if w.place = w.newDir.cur ∧ r.generation ≠ b.gen then some stKeyGeneration else none
      | _ => none)

/-- A mark has its number: the bound positions of the other uncommitted steps note what it takes away. -/
def noteNumber (s : State) (m : Nat) : State :=
  match mget s.kst.marks m with
  | none => s
  | some x => { s with conf := { s.conf with steps := mmap (fun k t =>
      if x.kind = .step k ∨ isCommitted t = true then t
      else { t with bound := t.bound.map (fun b => if b.target || b.lost.isSome then b else { b with lost := lostBy x b }) }) s.conf.steps } }

/-- A mark takes a number and an NT. -/
def numberTxn (s : State) (m seq : Nat) : State :=
  noteNumber { s with kst := { s.kst with marks := mmod s.kst.marks m (fun x => { x with seq := seq, nt := s.gauge.lastCommitNt }) } } m

/-- A transaction of another step, numbered and not yet flipped, occupies a slot. -/
def occupiedBy (s : State) (k slot : Nat) : Bool :=
  s.kst.marks.any (fun e => e.2.seq != 0 && !e.2.flipped && e.2.kind != .step k &&
    e.2.writes.any (fun w => w.slot == slot && (w.newDir.occupied || w.newDir.ext)))

/-! ### The log and the end of a transaction (steps 5 and 6 of R259) -/

/-- One log position stands before another, within half the window. -/
def logBefore (a b : Nat) : Bool := decide (0 < (b + 65536 - a) % 65536) && decide ((b + 65536 - a) % 65536 < 32768)

/-- The position of a slice's next log entry: after those that the log and the flipped marks hold (R259, R261). -/
def nextLogPos (s : State) (n : Nat) : Nat :=
  (logMarks s n).foldl (fun a e => if logBefore a ((e.1 + 1) % 65536) then (e.1 + 1) % 65536 else a) (logOf (mramOf s (curDie s)) n).next

/-- A log with one entry written at a position; its head moves behind it. -/
def logPut (l : TxnLog) (pos clientSeq : Nat) : TxnLog :=
  { entries := mput l.entries pos (clientSeq % 2 ^ 24)
    next := if logBefore l.next ((pos + 1) % 65536) then (pos + 1) % 65536 else l.next, full := l.full || pos == 65535 }

/-- Step 5 of a mark on one MRAM die: the log entry and head, and the old frames zeroised. -/
def closeMark (x : Mark) (r : Mram) : Mram :=
  let r := x.writes.foldl clearOld r
  if isLogged x then { r with logs := sset (fun _ => {}) r.logs x.sliceNo (logPut (logOf r x.sliceNo) x.logPos x.clientSeq) } else r

/-- The last steps of a mark: log entry, old frames zeroised, mark cleared. -/
def finishMark (s : State) (m : Nat) : State :=
  match mget s.kst.marks m with
  | none => s
  | some x =>
    let s := onMram s (mramDies s) (closeMark x)
    { s with kst := { s.kst with marks := mdel s.kst.marks m } }

end Sys2Proof.Machine
end

