-- ==== Sys2Proof/Machine/CeremonyApply.lean ====
section
/-!
DEFINITION. The actions of ceremonies (R305, Table 2; R318 to R320, R327, R392, R472, R499, R520): what each checks and
produces when its close runs, one row of commands each, and what the commit of a ceremony step changes.
-/
namespace Sys2Proof.Machine

/-! ### Checks and results of the actions -/

/-- A binding of 10 bytes: port mask and the PASIDs (R63; log entry 12). -/
def bindMask (b : Bytes) (p : Port) : Bool := (byteAt b 0).testBit (portNo p)
def bindPasid (b : Bytes) (p : Port) : Nat := match p with | .a => leAt b 2 4 | .b => leAt b 6 4

/-- Another slice carries the same PASID on the same port (R63). -/
def bindingClash (s : State) (n : Nat) (b : Bytes) : Bool :=
  s.slices.any (fun e => e.1 != n && e.2.mode != .absent &&
    ((e.2.portA && bindMask b .a && e.2.pasidA.toNat == bindPasid b .a) ||
     (e.2.portB && bindMask b .b && e.2.pasidB.toNat == bindPasid b .b)))

/-- A key range overlaps another slice's (R230). -/
def rangeClash (s : State) (n base count : Nat) : Bool :=
  s.slices.any (fun e => e.1 != n && e.2.mode != .absent && decide (base < e.2.keyBase + e.2.keyCount) && decide (e.2.keyBase < base + count))

/-- The sum of the minimum rates with a new policy of slice n exceeds the limit of R327. -/
def ratesExceed (s : State) (n : Nat) (p : Policy) : Bool :=
  decide (737280000 < p.minRate + ((s.slices.filter (fun e => e.1 != n && e.2.mode != .absent)).map (fun e => e.2.policy.minRate)).foldl (· + ·) 0)

/-- A result of a close that needs nothing but its application. -/
def closes (id : Nat) : Result := { status := stOk, effects := [.ceremonyClose id] }

/-- Shamir shares of a secret (R318): share x of each byte is the polynomial with that byte as its constant term and one
drawn coefficient string for each further degree. -/
def shareOf (secret : Bytes) (coeffs : List Bytes) (x : Nat) : Bytes :=
  (List.range secret.length).map (fun j => gf256Eval (secret.getD j 0 :: coeffs.map (fun c => c.getD j 0)) (BitVec.ofNat 8 x))

/-- Coefficient strings: M − 1 of the length of the secret. -/
def drawCoeffs (n len : Nat) (r : Rnd) : List Bytes × Rnd :=
  match n with
  | 0 => ([], r)
  | m + 1 =>
    let (a, r) := rndGen r len
    let (l, r) := drawCoeffs m len r
    (a :: l, r)

/-- Shares for the custodians at the given indices. -/
def sharesFor (root : Bytes) (m : Nat) (ixs : List Nat) (r : Rnd) : List (Nat × Bytes) × Rnd :=
  let (cs, r) := drawCoeffs (m - 1) 32 r
  (ixs.map (fun j => (j, shareOf root cs (j + 1))), r)

/-- The secret that shares give back. -/
def joinShares (l : List (Nat × Bytes)) : Bytes :=
  (List.range 32).map (fun j => gf256Interp (l.map (fun e => (BitVec.ofNat 8 e.1, e.2.getD j 0))))

abbrev CloseFn := State → Step → Nat → Ceremony → Rnd → Result × Rnd

/-- TAKE_OWNERSHIP (R318). -/
def closeTakeOwnership : CloseFn := fun s _ id c r =>
  if s.life.state ≠ .shipped then (fails stCeremonyState, r)
  else
    let ros := newRoster c.action c.params
    let (root, r) := rndGen r 32
    let (sh, r) := sharesFor root ros.m (List.range ros.entries.length) r
    ({ status := stOk, effects := [.rootMade id root sh, .ceremonyClose id] }, r)

/-- The key that seals rosters under an owner root (R301). -/
def rosterKey (root : Bytes) : Bytes := kdf108 root "ROSTER" [3] 32

/-- The roster against which a RESTORE checks its shares (R320): that of the parameters in SHIPPED, and in OWNED the sealed
module-domain roster, where the restored root opens it. -/
def restoreRoster (s : State) (c : Ceremony) (root : Bytes) : Option Roster :=
  if s.life.state = .shipped then some (newRoster c.action c.params)
  else
    let x := sget (fun _ => {}) (mramOf s (curDie s)).rosters 0
    if x.key = rosterKey root then some x.roster else none

/-- RESTORE (R320). -/
def closeRestore : CloseFn := fun s _ id c r =>
  let root := joinShares ((c.shares.take (shareM c)).map (fun x => (x.1, x.2.2.2.1)))
  let fp := match c.shares with | x :: _ => x.2.2.1 | [] => []
  if !bootstrap s then (fails stCeremonyState, r)
  else match restoreRoster s c root with
    | none => (fails stApprovalInvalid, r)
    | some ros =>
      if ownerFpOf root ≠ fp ∨ !c.shares.all (fun x => ros.entries.any (fun e => e.card && e.cardFp == x.2.2.2.2)) then
        (fails stApprovalInvalid, r)
      else ({ status := stOk, effects := [.rootMade id root [], .ceremonyClose id] }, r)

/-- BACKUP (R319). -/
def closeBackup : CloseFn := fun s _ id _ r =>
  match s.vault.ownerRoot with
  | none => (fails stCeremonyState, r)
  | some root =>
    let ros := rosterAt s 0
    let ixs := (List.range ros.entries.length).filter (fun j => match ros.entries[j]? with | some e => e.card | none => false)
    let (sh, r) := sharesFor root ros.m ixs r
    ({ status := stOk, effects := [.rootMade id root sh, .ceremonyClose id] }, r)

/-- An action that is still permitted as at its opening, and one further check. -/
def closeIf (ok : State → Nat → Ceremony → Bool) : CloseFn := fun s _ id c r =>
  if actionPermitted s c.action c.domain c.params && ok s id c then (closes id, r) else (fails stCeremonyState, r)

/-- ROSTER_CHANGE. -/
def closeRosterChange : CloseFn := closeIf (fun _ _ _ => true)

/-- SLICE_CREATE (R63, R230): an absent slice, a free binding and a free key range. -/
def closeSliceCreate : CloseFn := closeIf (fun s _ c =>
  let b := c.params
  let n := paramTarget b
  !sliceExists s n && !bindingClash s n (cut b 2 10) && !rangeClash s n (leAt b 12 4) (leAt b 16 4))

/-- SLICE_DELETE: slice 0 cannot be deleted (R303). -/
def closeSliceDelete : CloseFn := closeIf (fun _ _ c => paramTarget c.params != 0)

/-- SLICE_REBIND. -/
def closeSliceRebind : CloseFn := closeIf (fun s _ c => !bindingClash s (paramTarget c.params) (cut c.params 2 10))

/-- POLICY_GRANT (R327, R484). -/
def closePolicyGrant : CloseFn := fun s _ id c r =>
  let n := paramTarget c.params
  let p := policyOf (c.params.drop 2)
  if !actionPermitted s c.action c.domain c.params || !sliceExists s n then (fails stCeremonyState, r)
  else if !captureAllowed s p then (fails stFormat, r)
  else if ratesExceed s n p then (fails stQuotaNever, r)
  else (closes id, r)

/-- A creation at a close: the target binds under R231 (R317), then the record is created. -/
def closeCreate (s : State) (t : Step) (id h : Nat) (rec_ : KeyRecord) : Result :=
  match bindTarget s t.sliceNo h 0 1 with
  | .fail st => fails st
  | _ =>
    let res := createResult s t.sliceNo (hSlot h) rec_
    { res with effects := [.ceremonyClose id] }

/-- COMPONENT_ENTRY (R317). -/
def closeComponentEntry : CloseFn := fun s t id c r =>
  let tpl := cut c.params 8 48
  let n := tplKeyLen tpl
  let x := c.components.foldl xorB (zeros n)
  let key := if isTdes (tplAlg tpl) then oddParity x else x
  if allZero x || (isTdes (tplAlg tpl) && cut key 0 8 == cut key 8 8) then (fails stKeyUsage, r)
  else (closeCreate s t id (leAt c.params 0 8) (recOfTpl s tpl 0 5 key), r)

/-- OBJECT_ENTRY: an object of class 0x03 and provenance 0x06. -/
def closeObjectEntry : CloseFn := fun s t id c r =>
  (closeCreate s t id (leAt c.params 0 8) (recOfTpl s (cut c.params 8 48) 3 6 (c.params.drop 58)), r)

/-- The digest of the image in a firmware slot (R494): SHA-384 over header bytes 0 to 127. -/
def imageDigest (f : FwSlot) : Bytes := hash .sha384 (((f.words.take 16).map (fun w => leBytes 8 w.toNat)).flatten)

/-- A die's inactive slot is VERIFIED with a digest. -/
def verifiedWith (s : State) (d : Die) (dg : Bytes) : Bool :=
  let f := fwSlotOf s d (inactiveSlot s d)
  f.stage == 4 && imageDigest f == dg

/-- FIRMWARE_ACTIVATE (R499). -/
def closeFirmware : CloseFn := closeIf (fun s _ c =>
  match activeDie s with
  | none => false
  | some d => verifiedWith s d c.params && (!duplex s || verifiedWith s (otherDie d) c.params))

/-- A Dravelm authorisation for a transition from the present state (R470): 0 valid, 0x11 malformed, 0x12 signature, 0x13
serial, state or owner_fp. -/
def authStatus (s : State) (b : Bytes) (target : Nat) (ownerFp : Bytes) : Nat :=
  let sig := cut b 64 96
  let ok := (match ptOfBytes p384 Config.lifeAuthorityEc with
    | some q => ecdsaOk p384 q (hash .sha384 (b.take 64)) (beAt sig 0 48) (beAt sig 48 48)
    | none => false) && mlDsaVerify 0x69 Config.lifeAuthorityDsa (ascii "SUNDIEN LIFECYCLE") (b.take 64) (cut b 160 3309)
  if b.length ≠ 3469 ∨ b.take 4 ≠ ascii "SLCA" ∨ byteAt b 4 ≠ 1 ∨ byteAt b 7 ≠ 0 ∨ allZero (cut b 40 24) = false then 0x11
  else if ok = false then 0x12
  else if byteAt b 5 ≠ lifeCode s.life.state ∨ byteAt b 6 ≠ target ∨ cut b 8 16 ≠ moduleSerial s ∨ cut b 24 16 ≠ ownerFp then 0x13
  else 0

/-- owner_fp as R470 asks for it: the present one from OWNED with an owner root to ANALYSIS, else zero. -/
def authOwnerFp (s : State) (target : Nat) : Bytes :=
  match s.vault.ownerRoot with
  | some root => if s.life.state = .owned ∧ target = 6 then ownerFpOf root else zeros 16
  | none => zeros 16

/-- LIFECYCLE_CHANGE (R469, R472). -/
def closeLifecycle : CloseFn := fun s _ id c r =>
  let target := byteAt c.params 0
  if !actionPermitted s c.action c.domain c.params then (fails stCeremonyState, r)
  else if target = 6 ∧ authStatus s (c.params.drop 4) 6 (authOwnerFp s 6) ≠ 0 then (fails stApprovalInvalid, r)
  else if target = 6 ∧ (policyForbid s).testBit 2 = true then (fails stCeremonyState, r)
  else (closes id, r)

/-- The source that a RAW_SAMPLING names. -/
def rawSourceOf (s : State) (d : Die) (src : Nat) : Source := if src = 0 then (rngOf s d).lns else (rngOf s d).jns

/-- RAW_SAMPLING (R392, R484). -/
def closeRawSampling : CloseFn := closeIf (fun s _ c =>
  let d := dieOfNo (byteAt c.params 0)
  !(policyForbid s).testBit 0 && standbyDie s == some d && (rawSourceOf s d (byteAt c.params 1)).mode == .running)

/-- REPLAY (R520). -/
def closeReplay : CloseFn := closeIf (fun s _ _ => s.gauge.replay.state != 1)

/-- The row of an action: the close of a ceremony in APPLYING runs the check of its effect. A module-domain action waits
for semaphore 0 (R86). -/
def runClose (k action : Nat) (f : CloseFn) (s : State) : State :=
  match stepOf s k with
  | none => s
  | some t =>
    let id := leAt t.desc 64 4
    match cerOf s t.sliceNo id with
    | none => s
    | some c =>
      if mayRun t 0x0803 && c.action == action && c.mode == .applying && c.toWrite.isEmpty && (c.domain != 0 || wardenHas s) then
        let (res, r) := f s t id c (rndOf s 1024)
        if r.dry then setStep s k { t with seedWait := some (t.seedWait.getD s.nt.ns) }
        else putResult (putRnd s 1024 r) k t (fnInOf s t) res []
      else s

def execTakeOwnership (k : Nat) (s : State) : Answer := endWith s (runClose k 0x01 closeTakeOwnership s)
def execRestore (k : Nat) (s : State) : Answer := endWith s (runClose k 0x02 closeRestore s)
def execBackup (k : Nat) (s : State) : Answer := endWith s (runClose k 0x03 closeBackup s)
def execRosterChange (k : Nat) (s : State) : Answer := endWith s (runClose k 0x04 closeRosterChange s)
def execSliceCreate (k : Nat) (s : State) : Answer := endWith s (runClose k 0x10 closeSliceCreate s)
def execSliceDelete (k : Nat) (s : State) : Answer := endWith s (runClose k 0x11 closeSliceDelete s)
def execSliceRebind (k : Nat) (s : State) : Answer := endWith s (runClose k 0x12 closeSliceRebind s)
def execPolicyGrant (k : Nat) (s : State) : Answer := endWith s (runClose k 0x13 closePolicyGrant s)
def execComponentEntry (k : Nat) (s : State) : Answer := endWith s (runClose k 0x20 closeComponentEntry s)
def execObjectEntry (k : Nat) (s : State) : Answer := endWith s (runClose k 0x21 closeObjectEntry s)
def execFirmwareActivate (k : Nat) (s : State) : Answer := endWith s (runClose k 0x30 closeFirmware s)
def execLifecycleChange (k : Nat) (s : State) : Answer := endWith s (runClose k 0x31 closeLifecycle s)
def execRawSampling (k : Nat) (s : State) : Answer := endWith s (runClose k 0x32 closeRawSampling s)
def execReplay (k : Nat) (s : State) : Answer := endWith s (runClose k 0x40 closeReplay s)

/-! ### Ends of ceremonies (R309, R311) -/

/-- A ceremony ends: its outcome is kept among the last 64, its components and keys are gone. -/
def endCeremony (s : State) (id code seq : Nat) : State :=
  match mget s.cer id with
  | none => s
  | some c =>
    let o : CerOutcome := ⟨id, c.domain, c.action, code, approvalCount c, c.components.length, c.invalid, c.expires, seq⟩
    let l := s.vault.outcomes ++ [o]
    { s with cer := mdel s.cer id, vault := { s.vault with outcomes := l.drop (l.length - 64) } }

/-- A ceremony event of the journal (0x0701 open, 0x0702 close, 0x0703 cancel, 0x0704 third invalid approval). -/
def cerEvent (s : State) (n id : Nat) : State := journal s (jev (0x0700 + n) 1 (dieSource (curDie s)) (detail 0 0 0 0 id))

def cancelCeremony (s : State) (id n : Nat) : State := cerEvent (endCeremony s id 5 0) n id

/-- Live ceremonies of a domain that are not APPLYING are cancelled (Table 3). -/
def cancelDomain (s : State) (dom : Nat) : State :=
  (mkeys s.cer (fun _ c => c.domain == dom && c.mode != .applying)).foldl (fun s id => cancelCeremony s id 3) s

/-! ### Rosters (R301) -/

/-- The change of a domain's sealed roster to a roster under a root: what the MRAM dies hold before and after. -/
def rosterChange (s : State) (dom : Nat) (root : Bytes) (r : Roster) : Nat × SealedRoster × SealedRoster :=
  (dom, sget (fun _ => {}) (mramOf s (curDie s)).rosters dom, ⟨rosterKey root, r⟩)

/-- The rosters that the commit of a result changes: a close of ROSTER_CHANGE, SLICE_CREATE or RESTORE (R301). The transaction
of that step writes them on the MRAM dies. -/
def rosterChanges (s : State) (res : Result) : List (Nat × SealedRoster × SealedRoster) :=
  let root := s.vault.ownerRoot.getD []
  let made := res.effects.findSome? (fun e => match e with | .rootMade _ x _ => some x | _ => none)
  (res.effects.filterMap (fun e => match e with | .ceremonyClose id => mget s.cer id | _ => none)).filterMap (fun c =>
    match c.action with
    | 0x04 => some (rosterChange s (paramTarget c.params) root (newRoster 0x04 c.params))
    | 0x10 => some (rosterChange s (paramTarget c.params + 1) root (newRoster 0x10 c.params))
    | 0x02 => made.bind (fun x => (restoreRoster s c x).map (rosterChange s 0 x))
    | _ => none)

/-- A domain's roster is replaced: the vault holds that of the module domain. -/
def setRoster (s : State) (dom : Nat) (r : Roster) : State :=
  if dom = 0 then { s with vault := { s.vault with rosterCopy := r } }
  else { s with rosters := sset (fun _ => {}) s.rosters dom r }

/-! ### Slices (R63, R65, R327, R328, R330) -/

/-- A slice with a binding. -/
def withBinding (sl : Slice) (b : Bytes) : Slice :=
  { sl with portA := bindMask b .a, portB := bindMask b .b, pasidA := BitVec.ofNat 20 (bindPasid b .a), pasidB := BitVec.ofNat 20 (bindPasid b .b) }

/-- Full buckets of a policy, in units of 2^−20 WU. -/
def fullBuckets (sl : Slice) : Slice :=
  { sl with rateLevel := sl.policy.depth * 2 ^ 20, owedLevel := sl.policy.depth * 2 ^ 20, rateFrac := 0, owedFrac := 0 }

/-- A slice under a new policy (R328). -/
def withPolicy (sl : Slice) (p : Policy) : Slice :=
  { sl with policy := p
            deficit := if p.weight = sl.policy.weight then sl.deficit else 0
            rateLevel := min sl.rateLevel (p.depth * 2 ^ 20)
            owedLevel := min sl.owedLevel (p.depth * 2 ^ 20) }

/-- The registers of a page return to their reset values. -/
def clearPage (s : State) (pg : Nat) : State :=
  { s with regs := s.regs.filter (fun e => decide (e.1 < pg) || decide (pg + 0x1000 ≤ e.1)) }

/-- A slot of a deleted slice on one MRAM die: a tombstone with its last generation, sealed in the home frame (R246). -/
def eraseOn (s : State) (sealNo slot : Nat) (m : Mram) : Mram :=
  let d := slotDir m slot
  let gen := if d.damaged then lastGenMax else d.lastGen
  { m with shadow := (shadowsOf d).foldl mdel m.shadow
           dirs := sset (fun _ => {}) m.dirs slot { lastGen := gen }
           home := sset (fun _ => {}) m.home slot (sealedFrame s slot sealNo (.tombstone gen))
           expiry := m.expiry.filter (fun x => decide (x ≠ slot)) }

/-- Slots of a range that hold a record or are damaged. -/
def heldSlots (s : State) (base count : Nat) : List Nat :=
  mkeys (mramOf s (curDie s)).dirs (fun a d => decide (base ≤ a) && decide (a < base + count) && (d.occupied || d.damaged || decide (d.pend ≠ 0)))

/-- Every slot of a range is erased on both MRAM dies. -/
def eraseRange (s : State) (base count : Nat) : State :=
  (heldSlots s base count).foldl (fun s slot =>
    let (n, s) := takeSeal s
    let s := onMram s (mramDies s) (eraseOn s n slot)
    let s := countWrites s 1
    { s with kst := { s.kst with cache := s.kst.cache.filter (fun e => e.slot != slot)
                                 pendings := s.kst.pendings.filter (fun e => e.1 != slot)
                                 waitNoted := s.kst.waitNoted.filter (fun x => x != slot) } }) s

/-- Slice measurement registers that a slice owns. -/
def ownedRegs (s : State) (n : Nat) : List Nat := mkeys s.measOwner (fun _ o => o == n)

/-- A measurement register's value on both dies. -/
def setMeas (s : State) (r : Nat) (v : Bytes) : State :=
  [Die.d0, Die.d1].foldl (fun s d => setDie s d { dieOf s d with meas := sset (fun _ => zeros 64) (dieOf s d).meas r v }) s

/-- A register is released: it reads zero and has no owner (R380). -/
def releaseReg (s : State) (r : Nat) : State := { setMeas s r (zeros 64) with measOwner := mdel s.measOwner r }

/-- The replay session ends (R520). -/
def endReplay (s : State) : State :=
  if s.gauge.replay.state = 1 then
    let s := { s with gauge := { s.gauge with replay := { s.gauge.replay with state := 2 } } }
    raise (raise s (pgRpl .d0) 2) (pgRpl .d1) 2
  else s

/-- A slice is deleted with everything it holds (R65, R83, R225, R305, R380, R388, R519, R520). -/
def deleteSlice (s : State) (n : Nat) : State :=
  let sl := sliceOf s n
  let s := eraseRange s sl.keyBase sl.keyCount
  let s := (ownedRegs s n).foldl releaseReg s
  let s := onMram s (mramDies s) (fun m =>
    { m with capture := mmap (fun _ c => if c.sliceNo = n then captureDeleted s.kst.rootKey s.kst.rootId c else c) m.capture
             rosters := mdel m.rosters (n + 1) })
  let s := if s.gauge.replay.state = 1 ∧ s.gauge.replay.slice = n then endReplay s else s
  let s := { s with
    streams := s.streams.filter (fun e => e.2.slice != n)
    btc := s.btc.filter (fun p => p.slice != n)
    drbg := mdel s.drbg n
    rosters := mdel s.rosters (n + 1)
    rings := s.rings.filter (fun e => e.1 / 8 != n)
    slices := mdel s.slices n }
  clearPage s (pgSlc n)

/-- A slice is created in the commit of its ceremony: QUIESCED, then ACTIVE, with hold 0 and no ring enabled (R65). -/
def createSlice (s : State) (n : Nat) (bind : Bytes) (base count : Nat) : State :=
  setSlice (clearPage s (pgSlc n)) n (fullBuckets (withBinding { mode := .active, keyBase := base, keyCount := count } bind))

/-! ### Starts and transitions requested by a ceremony -/

/-- A warm start with quiesce is requested (R485): fetching stops, and 10 ms of NT run. -/
def requestWarm (s : State) : State :=
  if s.starts.due.isSome then s else { s with starts := { s.starts with due := some 1, quiesceEnd := some (s.nt.ns + 10000000), quiesced := false } }

def bootOf (s : State) : Die → BootRec
  | .d0 => s.vault.boot0
  | .d1 => s.vault.boot1

def setBoot (s : State) (d : Die) (b : BootRec) : State :=
  match d with
  | .d0 => { s with vault := { s.vault with boot0 := b } }
  | .d1 => { s with vault := { s.vault with boot1 := b } }

/-- One die's part of an activation: its boot record names the new slot in trial, and the slot is BOOTED. -/
def activateDie (s : State) (d : Die) : State :=
  let n := inactiveSlot s d
  let b := bootOf s d
  let s := if (dieOf s d).inService then setFwSlot s d n { fwSlotOf s d n with stage := 5, accepted := true } else s
  setBoot s d { b with slot := n, trial := true, prevSlot := b.slot }

/-- The vault write of an activation and its rollout (R499, R500). -/
def activateFirmware (s : State) (dg : Bytes) : State :=
  let d := curDie s
  let f := fwSlotOf s d (inactiveSlot s d)
  let same := (bootOf s d).mirror == f.mirror && duplex s
  let s := activateDie (activateDie s .d0) .d1
  let s := { s with vault := { s.vault with fwPhase := 1, trialFails := 0, activatedNt := s.nt.ns, fwSimplex := !duplex s, accepted := s.vault.accepted ++ [dg] } }
  let s := journal (raise s (pgWdn 1) 1) (jev 0x0904 0 2 (detail 0 0 0 0 f.version))
  if same then { s with starts := { s.starts with rollout := true } } else requestWarm s

/-- A life-cycle phase is reached (journal 0x0801). -/
def lifePhase (s : State) (m : LifeMark) : State :=
  journal { s with vault := { s.vault with lifeMark := some m } }
    (jev 0x0801 1 2 (detail m.phase 0 0 0 (lifeCode m.from_ + 256 * lifeCode m.target)))

/-- The vault records the images that both boot records name as owner-accepted (R495). -/
def acceptImages (s : State) : State :=
  let dgs := [Die.d0, Die.d1].map (fun d => imageDigest (fwSlotOf s d (bootOf s d).slot))
  { s with vault := { s.vault with accepted := s.vault.accepted ++ dgs } }

/-- Raw sampling begins on a die (R392). -/
def startRaw (s : State) (b : Bytes) : State :=
  let d := dieOfNo (byteAt b 0)
  let r := rngOf s d
  let x := { rawSourceOf s d (byteAt b 1) with mode := .raw }
  let s := if r.seeds.isEmpty then s else raise s (pgRng d 0) 4
  let r := if byteAt b 1 = 0 then { r with lns := x } else { r with jns := x }
  setRng s d { r with seeds := [], rawState := 1, rawSource := byteAt b 1, rawStage := byteAt b 2, rawCount := leAt b 4 4, rawBuf := [], rawBits := [], bits := [],
                      captured := 0, readSoFar := 0, readyNt := 0 }

/-- The replay session of a slice opens (R520). -/
def openReplay (s : State) (n : Nat) (b : Bytes) : State :=
  let s := setMeas s (byteAt b 0) (zeros 64)
  let s := { s with gauge := { s.gauge with replay := ⟨1, n, byteAt b 0, 0, leAt b 4 4, s.nt.ns + 3600000000000⟩ } }
  raise (raise s (pgRpl .d0) 1) (pgRpl .d1) 1

/-! ### The effect of an action at the commit of its close -/

/-- What the commit of a close changes besides keys and shares (Table 2). `k` is the close itself. -/
def applyAction (s : State) (k : Nat) (c : Ceremony) (sliceNo : Nat) : State :=
  let b := c.params
  let n := paramTarget b
  match c.action with
  | 0x04 =>
    let s := setRoster s n (newRoster 0x04 b)
    if c.domain = 0 ∧ n ≠ 0 then cancelDomain s n else s
  | 0x10 => setRoster (createSlice s n (cut b 2 10) (leAt b 12 4) (leAt b 16 4)) (n + 1) (newRoster 0x10 b)
  | 0x11 => deleteSlice (cancelDomain s (n + 1)) n
  | 0x12 => setSlice s n (withBinding (sliceOf s n) (cut b 2 10))
  | 0x13 => setSlice s n (withPolicy (sliceOf s n) (policyOf (b.drop 2)))
  | 0x30 => activateFirmware s b
  | 0x31 =>
    let s := lifePhase s ⟨1, .owned, if byteAt b 0 = 6 then .analysis else .scrap⟩
    endAll s (fun j _ => j != k) stSliceReset
  | 0x32 => startRaw s b
  | 0x40 => openReplay s sliceNo b
  | _ => s

/-- The owner root stands: the module-domain roster, and from SHIPPED the mark of the transition in phase BURN
(R318, R320, R472). -/
def ownerStands (s : State) (ros : Roster) : State :=
  let s := acceptImages (setRoster s 0 ros)
  if s.life.state = .shipped then lifePhase s ⟨2, .shipped, .owned⟩ else s

/-- The sealed copy of the module-domain roster under a new owner root is written under a mark of its own (R301); where none is
free it stands at once. -/
def sealRoster (s : State) (ros : Roster) : State :=
  let x : Mark := { kind := .roster, sliceNo := 0, slot := 0, clientSeq := 0, writes := []
                    rosters := [rosterChange s 0 (s.vault.ownerRoot.getD []) ros] }
  match freeMark s with
  | some m => setMark s m x
  | none => putFrames s (mramDies s) x

/-- Slice 0 in bootstrap form (R303): on both ports with PASID 0, granted NOP and the ceremonies alone. -/
def bootstrapSlice (sl : Slice) : Slice :=
  { sl with portA := true, portB := true, pasidA := 0, pasidB := 0
            policy := { sl.policy with exportGrant := false, replayCapture := false, pinGrants := 0, grants := [1, 0, 0, 0, 0, 0, 0, 0, 0, 0] } }

/-- A start finds OWNED without an owner root: slice 0 takes its bootstrap form, and what it had is kept. -/
def enterBootstrap (s : State) : State :=
  if s.life.state = .owned ∧ s.vault.ownerRoot = none then
    let sl := sliceOf s 0
    let kept := s.zeroConf.getD ⟨sl.portA, sl.portB, sl.pasidA, sl.pasidB, sl.policy⟩
    { setSlice s 0 (bootstrapSlice sl) with zeroConf := some kept }
  else s

/-- An owner root stands again: slice 0 is an ordinary slice, as it was (R303; log entry 59). -/
def leaveBootstrap (s : State) : State :=
  match s.zeroConf with
  | none => s
  | some x =>
    { setSlice s 0 { sliceOf s 0 with portA := x.portA, portB := x.portB, pasidA := x.pasidA, pasidB := x.pasidB, policy := x.policy } with
      zeroConf := none }

/-- A made or restored root at the commit of its close. Without shares to write, the ceremony is done. -/
def applyRoot (s : State) (id : Nat) (root : Bytes) (shares : List (Nat × Bytes)) : State :=
  match mget s.cer id with
  | none => s
  | some c =>
    let s := { s with vault := { s.vault with ownerRoot := some root }, cer := mput s.cer id { c with toWrite := shares } }
    if c.action = 0x02 then
      let ros := (restoreRoster s c root).getD {}
      let s := if s.life.state = .owned then leaveBootstrap { s with kst := { s.kst with rootId := 3, rootKey := root, isOpen := true } } else s
      ownerStands s ros
    else s

/-- One effect of a ceremony step at its commit. -/
def applyCeremony (s : State) (k : Nat) (t : Step) (seq : Nat) (e : Effect) : State :=
  match e with
  | .ceremonyOpen id exp nonce priv pub =>
    let dom := leAt t.desc 64 2
    let act := byteAt t.desc 66
    let c : Ceremony := { domain := dom, action := act, nonce := nonce, digest := actionDigest dom act id nonce t.block,
                          params := t.block, keyPriv := priv, keyPub := pub, expires := exp }
    cerEvent { s with cer := mput s.cer id c, vault := { s.vault with cerNext := max s.vault.cerNext (id + 1) } } 1 id
  | .ceremonyApprove id who _ => { s with cer := mmod s.cer id (fun c => settleCeremony s (recordApproval c who)) }
  | .componentEnter id who v =>
    { s with cer := mmod s.cer id (fun c => settleCeremony s { recordApproval c who with components := c.components ++ [v] }) }
  | .shareAccept id ix m fp sh card =>
    { s with cer := mmod s.cer id (fun c => settleCeremony s { c with shares := c.shares ++ [(ix, m, fp, sh, card)] }) }
  | .invalidApproval id =>
    match mget s.cer id with
    | none => s
    | some c =>
      let s := { s with cer := mput s.cer id { c with invalid := c.invalid + 1 } }
      if 3 ≤ c.invalid + 1 then cancelCeremony s id 4 else s
  | .consumeCard p =>
    if (cardOf s p).result.any (fun x => x.ceremony == leAt t.desc 64 4) then setCard s p { cardOf s p with result := none } else s
  | .rootMade id root shares => applyRoot s id root shares
  | .ceremonyCancel id => cancelCeremony s id 3
  | .ceremonyClose id =>
    match mget s.cer id with
    | none => s
    | some c =>
      let s := applyAction s k c t.sliceNo
      -- a transition that the close began keeps semaphore 0 until it ends (R86)
      let s := if c.domain = 0 ∧ s.vault.lifeMark = none then wardenFree s else s
      let s := cerEvent s 2 id
      if c.toWrite.isEmpty then endCeremony s id 4 seq
      else { s with cer := mput s.cer id { c with closeSeq := seq, closer := none } }
  | _ => s

/-- The close that took its ceremony to APPLYING commits with a failing status: the ceremony is cancelled (Table 3). -/
def closeFailed (s : State) (k : Nat) (t : Step) : State :=
  if dOp t.desc = 0x0803 then
    let id := leAt t.desc 64 4
    match mget s.cer id with
    | some c =>
      if c.mode = .applying ∧ c.closer = some k ∧ c.toWrite.isEmpty = true then
        cancelCeremony (if c.domain = 0 then wardenFree s else s) id 3
      else s
    | none => s
  else s

end Sys2Proof.Machine
end

