-- ==== Sys2Proof/Machine/Guard.lean ====
section
/-!
DEFINITION. The way of a register write to its register: the link (R61, R79), the window of a die (R50), tamper-halt
(R464), recovery mode (R493) and semaphore 0 (R56). The rows that name one register pass through here, and so does the
general access path.
-/
namespace Sys2Proof.Machine

/-- Alias accesses of a port that are held (R51). -/
def heldOf (s : State) (p : Port) : Nat := (s.sw.aliasHeld.filter (fun e => e.who == partyOf p)).length

/-- An access of a party to a function reaches the base die: a port's does while the function is up and fewer than 64 of the
port's accesses are held. -/
def arrives (s : State) (who : Party) (fn : Nat := 0) : Bool :=
  match partyPort who with
  | some p => fnUp (portOf s p) fn && decide (heldOf s p < 64)
  | none => true

/-- Data for a read. A port whose link has gone down takes none. -/
def answer (s : State) (who : Party) (v : Word) : State :=
  match partyPort who with
  | some p => if (portOf s p).linkUp then send s (.readData who v) else s
  | none => send s (.readData who v)

/-- The party holds a semaphore. -/
def holds (s : State) (n : Nat) (who : Party) : Bool := (semOf s n).holder == some who

/-- An access error of a party at an address, captured on a page (R48). -/
def captureAt (s : State) (pg : Nat) (who : Party) (cause addr : Nat) (slice : Option Nat := none) : State :=
  capture s pg { cause := cause, source := partySource who, addr := addr, slice := slice }

/-- A guarded write without semaphore 0: counted, captured and journalled, and nothing else (R56). -/
def rejectWrite (s : State) (who : Party) (pg addr : Nat) : State :=
  let s := bump s (pg + oLock) 32 16 1
  let s := captureAt s pg who 0x0001 addr
  journal s (jev 0x0201 1 (partySource who) (detail 0x0001 0 addr 0 0))

/-- Pages that stay readable in tamper-halt (R464). -/
def haltReadable : Block → Bool
  | .bas | .lev | .lcc | .vlt | .ntu | .gau => true
  | _ => false

/-- Pages that take writes in recovery mode (R493). On the LCC page only the target SCRAP is accepted (R471). -/
def recoveryWritable (b : Block) (off : Nat) : Bool :=
  match b with
  | .sem | .fwu | .lcc => true
  | .wdn => off == 0x118
  | _ => false

/-- The die whose window an address lies in. -/
def windowDie (a : Nat) : Option Die :=
  if win0 ≤ a ∧ a < win1 then some .d0 else if win1 ≤ a ∧ a < winActive then some .d1 else none

/-- The window of an address answers: a base-die page, or a page of a die in service (R50). -/
def windowUp (s : State) (a : Nat) : Bool :=
  match windowDie a with
  | some d => (dieOf s d).inService
  | none => true

/-- A write to a BAR0 register at page address `pg` and offset `off`, whose effect is `f`. -/
def gateWrite (s : State) (who : Party) (b : Block) (pg off : Nat) (guarded : Bool) (f : State → State) : State :=
  if !arrives s who then s
  else if !windowUp s pg then captureAt s pgBas who 0x0006 (pg + off)
  else if s.lev.halted && b != .sem then (if haltReadable b then s else captureAt s pgBas who 0x0006 (pg + off))
  else if s.vault.recovery && !recoveryWritable b off then s
  else if guarded && !holds s 0 who then rejectWrite s who pg (pg + off)
  else f s

end Sys2Proof.Machine
end

