-- ==== Sys2Proof/Machine/Cards.lean ====
section
/-!
DEFINITION. The custodian card ports (R314, R315, R318, R319) and the expiry of ceremonies (R310): card sessions, held
results, shares written to cards, insertion and removal.
-/
namespace Sys2Proof.Machine

/-! ### Internal commits -/

/-- An internal commit (R257, R315): the next commit sequence number, and in duplex running its commit record. -/
def internalCommit (s : State) : State :=
  let (seq, s) := takeCommit s
  let s := countCommit s seq
  if duplex s then mirrorSend s (.commitOwn seq) else s

/-! ### Sessions -/

/-- The ceremony is in a state for an op (R315): approvals and components while it collects them, shares to write after its
close, shares to read in a RESTORE. -/
def opFits (c : Ceremony) (op : Nat) : Bool :=
  match op with
  | 1 => c.mode != .applying
  | 2 => c.mode != .applying && c.action == 0x20
  | 3 => c.mode == .applying && !c.toWrite.isEmpty
  | 4 => c.mode != .applying && c.action == 0x02
  | _ => false

/-- A session ends: done (2) or failed (3) with a cause, counted, with the session_done event. -/
def endSession (s : State) (p code cause : Nat) : State :=
  let s := setCard s p { cardOf s p with session := code, cause := cause }
  let s := if code = 2 then bump s (pgCus p + 0x110) 0 16 1 else bump s (pgCus p + 0x110) 16 16 1
  raise s (pgCus p) 3

/-- A write to CUS_SESSION with an op (Table 7). While a session runs the write is ignored. -/
def startSession (who : Party) (p op id : Nat) (s : State) : State :=
  gateWrite s who .cus (pgCus p) 0x108 true (fun s =>
    let c := cardOf s p
    if c.session = 1 then s
    else
      let s := setCard s p { c with session := 1, cause := 0, op := op, ceremony := id, startNt := s.nt.ns, result := none, powered := c.present }
      if !c.present then endSession s p 3 1
      else match mget s.cer id with
        | some x => if opFits x op then s else endSession s p 3 7
        | none => endSession s p 3 7)

/-- A custodian port's number. -/
def cardPortOk (p : Nat) : Bool := decide (p < 2)

def execCardSessionApprove (who : Party) (port ceremony : Nat) (s : State) : Answer :=
  endWith s (if cardPortOk port then startSession who port 1 (ceremony % 2 ^ 32) s else s)
def execCardSessionComponent (who : Party) (port ceremony : Nat) (s : State) : Answer :=
  endWith s (if cardPortOk port then startSession who port 2 (ceremony % 2 ^ 32) s else s)
def execCardSessionPutShare (who : Party) (port ceremony : Nat) (s : State) : Answer :=
  endWith s (if cardPortOk port then startSession who port 3 (ceremony % 2 ^ 32) s else s)
def execCardSessionGetShare (who : Party) (port ceremony : Nat) (s : State) : Answer :=
  endWith s (if cardPortOk port then startSession who port 4 (ceremony % 2 ^ 32) s else s)

/-! ### Shares written to cards (R318, R319) -/

/-- The roster whose custodians receive the shares of a ceremony. -/
def shareRoster (s : State) (c : Ceremony) : Roster := if c.action = 0x01 then newRoster 0x01 c.params else rosterAt s 0

/-- The custodian that a card is, where a share is still to be written to it. -/
def shareHolder (s : State) (c : Ceremony) (point : Bytes) : Option (Nat × Bytes) :=
  c.toWrite.find? (fun e => match (shareRoster s c).entries[e.1]? with
    | some x => x.card && x.cardFp == cardFpOf point
    | none => false)

/-- The 56 bytes of a share (R318). -/
def shareContent (s : State) (c : Ceremony) (ix : Nat) (share : Bytes) : Bytes :=
  leBytes 1 (ix + 1) ++ leBytes 1 (shareRoster s c).m ++ ownerFpOf (s.vault.ownerRoot.getD []) ++ share ++ zeros 6

/-- The last share of a ceremony is written: the ceremony is CLOSED, and after TAKE_OWNERSHIP the root stands. -/
def sharesDone (s : State) (id : Nat) (c : Ceremony) : State :=
  let s := if c.action = 0x01 then sealRoster (ownerStands s (newRoster 0x01 c.params)) (newRoster 0x01 c.params) else s
  endCeremony s id 4 c.closeSeq

/-- A share has been written to its custodian's card: an internal commit records it (R315). -/
def shareWritten (s : State) (id ix : Nat) : State :=
  match mget s.cer id with
  | none => s
  | some c =>
    let s := internalCommit s
    let c := { c with toWrite := c.toWrite.filter (fun e => e.1 != ix) }
    let s := { s with cer := mput s.cer id c }
    if c.toWrite.isEmpty then sharesDone s id c else s

/-! ### The commands of a session (R314, R315) -/

/-- The head of a command and its data (Table 5). -/
def cardSelect : Bytes × Bytes := ([0x00, 0xA4, 0x04, 0x00], [0xF0, 0x53, 0x55, 0x4E, 0x44, 0x49, 0x45, 0x4E])
def cardGetKey : Bytes × Bytes := ([0x80, 0x10, 0x00, 0x00], [])
def cardSign (op id : Nat) (c : Ceremony) : Bytes × Bytes := ([0x80, 0x20, 0x00, 0x00], cardChallenge op id c)

/-- The command of ops 2 and 4. A PUT_SHARE follows its own checks. -/
def cardFetch (op id : Nat) (c : Ceremony) : List (Bytes × Bytes) :=
  match op with
  | 2 => [([0x80, 0x30, 0x00, 0x00], c.keyPub ++ beBytes 4 id)]
  | 4 => [([0x80, 0x42, 0x00, 0x00], c.keyPub ++ beBytes 4 id)]
  | _ => []

/-- The commands of a session, in order, as far as the session goes. -/
def cardCommands (op id : Nat) (c : Ceremony) : List (Bytes × Bytes) :=
  [cardSelect, cardGetKey, cardSign op id c] ++ cardFetch op id c

/-- The first `n` commands of the session that runs at a port leave the module. -/
def sendCommands (s : State) (p n : Nat) : State :=
  let x := cardOf s p
  match mget s.cer x.ceremony with
  | none => s
  | some c => ((cardCommands x.op x.ceremony c).take n).foldl (fun s e => send s (.cardCommand p e.1 e.2)) s

/-- The commands of a session that fails after its start: none before the card is activated, SELECT alone where the application is
absent, and otherwise as many as the failing one's place, which the outcome does not tell (a free number). -/
def failedCommands (s : State) (p cause : Nat) : State :=
  if cause = 2 then s
  else if cause = 3 then sendCommands s p 1
  else
    let (v, s) := drawFree s
    sendCommands s p (if cause = 4 then 2 + v % 3 else v % 5)

/-- A session of op 3 has run its commands: the card's fingerprint and signature are checked before its share is wrapped
and written. -/
def putShare (s : State) (p : Nat) (point sig : Bytes) : State :=
  let id := (cardOf s p).ceremony
  match mget s.cer id with
  | none => endSession s p 3 7
  | some c =>
    match shareHolder s c point with
    | none => endSession s p 3 7
    | some (ix, share) =>
      if !cardSigned 3 id c point sig then endSession s p 3 4
      else
        match wrapKey c.keyPriv point (cardFpOf point) id 2 with
        | none => endSession s p 3 4
        | some k =>
          let s := send s (.cardPut p id c.keyPub (aesWrap k (shareContent s c ix share)))
          shareWritten (endSession s p 2 0) id ix

/-- A card session ends with what the card answered: cause 0 for success, else 2 to 4 (R314, Table 6). -/
def sessionDone (p cause : Nat) (point sig wrapped : Bytes) (s : State) : State :=
  let c := cardOf s p
  if c.session ≠ 1 ∨ 2 ≤ p then s
  else if cause ≠ 0 then
    let cause := if within 2 4 cause then cause else 2
    endSession (failedCommands s p cause) p 3 cause
  else if c.op = 3 then putShare (sendCommands s p 3) p point sig
  else
    let s := sendCommands s p 4
    let s := setCard s p { c with result := some ⟨c.ceremony, c.op, point, sig, if c.op = 1 then [] else wrapped, s.nt.ns⟩ }
    endSession s p 2 0

def execCardSessionDone (port cause : Nat) (point sig wrapped : List Byte) (s : State) : Answer :=
  endWith s (sessionDone port cause point sig wrapped s)

/-- 2 s after its start a session has failed (R315). -/
def execCardSessionTimeout (port : Nat) (s : State) : Answer :=
  endWith s (
    if (cardOf s port).session = 1 ∧ port < 2 then
      endSession (failedCommands (reach s ((cardOf s port).startNt + 2000000000)) port 5) port 3 5
    else s)

/-- A result held for 60 s is discarded (R315). -/
def execCardResultExpiry (port : Nat) (s : State) : Answer :=
  endWith s (
    match (cardOf s port).result with
    | some r => setCard (reach s (r.heldNt + 60000000000)) port { cardOf s port with result := none }
    | none => s)

/-- C_PRES goes low: a card is present. -/
def execCardInserted (port : Nat) (s : State) : Answer :=
  endWith s (
    if 2 ≤ port ∨ (cardOf s port).present = true then s
    else raise (setCard s port { cardOf s port with present := true }) (pgCus port) 1)

/-- C_PRES goes high: the card is gone, and a running session has failed. -/
def execCardRemoved (port : Nat) (s : State) : Answer :=
  endWith s (
    if 2 ≤ port ∨ (cardOf s port).present = false then s
    else
      let running := (cardOf s port).session == 1
      let s := setCard s port { cardOf s port with present := false, powered := false }
      let s := raise s (pgCus port) 2
      if running then endSession (failedCommands s port 6) port 3 6 else s)

/-- NT reaches the expiry of a ceremony (R310): OPEN and QUORATE end as EXPIRED. In the share-writing phase the ceremony is
cancelled, and a root that TAKE_OWNERSHIP made is discarded (R318, R319). -/
def ceremonyExpiry (id : Nat) (s : State) : State :=
  match mget s.cer id with
  | none => s
  | some c =>
    if c.mode = .applying then
      if c.toWrite.isEmpty then s
      else
        let s := internalCommit (reach s c.expires)
        let s := if c.action = 0x01 then { s with vault := { s.vault with ownerRoot := none } } else s
        cancelCeremony s id 3
    else endCeremony (internalCommit (reach s c.expires)) id 6 0

def execCeremonyExpiry (ceremony : Nat) (s : State) : Answer := endWith s (ceremonyExpiry ceremony s)

end Sys2Proof.Machine
end

