-- ==== Sys2Proof/Machine/Effects.lean ====
section
/-!
DEFINITION. What the commit of a step changes outside the key store: measurement registers (R378 to R381), streams (R220
to R226), the buffer translation cache (R219), the replay session (R520, R521) and ceremonies; and the refusals that are
decided at the commit itself.
-/
namespace Sys2Proof.Machine

/-! ### Measurement registers (R379, R380) -/

/-- V replaced by SHA-512(V ‖ x). -/
def measExtended (v x : Bytes) : Bytes := hash .sha512 (v ++ x)

/-- The replay slice, while a session has been opened since the last start. -/
def isReplaySlice (s : State) (n : Nat) : Bool := s.gauge.replay.state != 0 && s.gauge.replay.slice == n

/-- A slice may claim a register: it is a free slice register and the slice holds fewer than four. -/
def mayClaim (s : State) (n r : Nat) : Bool :=
  within 8 27 r && (mget s.measOwner r).isNone && decide ((ownedRegs s n).length < 4)

/-- A slice may extend a register: with the claim flag a free one, else one that it owns. Replay registers are extended by
replay runs only (Table 10 of the cipher chapter). -/
def mayExtend (s : State) (n r : Nat) (claim : Bool) : Bool :=
  if claim then mayClaim s n r else within 8 27 r && mget s.measOwner r == some n

/-- A slice may read a register. -/
def mayMeasRead (s : State) (n r : Nat) : Bool :=
  decide (r < 8) || (within 8 27 r && mget s.measOwner r == some n) || (within 28 31 r && isReplaySlice s n)

/-- An extension of a register that both dies hold alike. The measurement unit counts it, and the blocks that it hashes
(R372, R379). -/
def extendReg (s : State) (r : Nat) (x : Bytes) : State :=
  let d := curDie s
  let a := pgDge d ((dieOf s d).services.getD 2 2) + 0x108
  let s := bump (bump s a 32 32 1) a 0 32 (ceilDiv (64 + x.length + 17) 128)
  let v := measExtended (measVal s d r) x
  setMeas (setDigest s d ((dieOf s d).services.getD 2 2) 18 v) r v

/-! ### Refusals at the commit -/

/-- The ceremony is live and takes approvals. -/
def cerTakes (s : State) (id : Nat) : Bool :=
  match mget s.cer id with
  | some c => c.mode != .applying
  | none => false

/-- The ceremony is in APPLYING, taken there by this close, and its action is still permitted: a slice that must be QUIESCED has
not been reopened since the close was checked (R63, R65). -/
def cerApplies (s : State) (k id : Nat) : Bool :=
  match mget s.cer id with
  | some c => c.mode == .applying && c.closer == some k && actionPermitted s c.action c.domain c.params
  | none => false

/-- The status that an effect of step `k` has at the commit: ST_OK where it applies (R220, R308, R309, R380, R520). -/
def effectStatus (s : State) (k : Nat) (t : Step) (e : Effect) : Status :=
  let n := t.sliceNo
  match e with
  | .measureExtend r claim _ => if mayExtend s n r claim then stOk else stKeySlotBusy
  | .measureRead r _ => if mayMeasRead s n r then stOk else stKeySlotBusy
  | .streamOpen _ _ _ _ _ => if t.seq.isSome || (freshStream s n).isSome then stOk else stKeySlotBusy
  | .streamUpdate _ _ _ _ => stOk
  | .streamClose id => if (streamOf s n id).isSome then stOk else stKeyNotFound
  | .ceremonyApprove id _ _ | .componentEnter id _ _ | .shareAccept id _ _ _ _ _ | .invalidApproval id | .ceremonyCancel id =>
    if cerTakes s id then stOk else stCeremonyState
  | .rootMade id _ _ | .ceremonyClose id => if cerApplies s k id then stOk else stCeremonyState
  | .replayRun _ => if isReplaySlice s n && s.gauge.replay.state == 1 then stOk else stCeremonyState
  | .ceremonyOpen _ _ _ _ _ => if cerRoom s (leAt t.desc 64 2) then stOk else stCeremonyState
  | .consumeCard _ | .btcInval _ _ => stOk

/-- The first refusal among the effects of a result. -/
def firstRefusal (s : State) (k : Nat) (t : Step) : List Effect → Status
  | [] => stOk
  | e :: r => if effectStatus s k t e = stOk then firstRefusal s k t r else effectStatus s k t e

/-- An effect that stands though its request is refused at the commit: the card result that it named is consumed (R315). -/
def staysRefused (e : Effect) : Bool :=
  match e with
  | .consumeCard _ => true
  | _ => false

/-- An open takes its identifier at the commit (R35, R308). -/
def openNow (s : State) (t : Step) (res : Result) : Result :=
  match res.effects with
  | [.ceremonyOpen _ exp nonce priv pub] =>
    { res with ext := openBytes t s.vault.cerNext exp nonce pub, effects := [.ceremonyOpen s.vault.cerNext exp nonce priv pub] }
  | _ => res

/-- The register that a result reads at its commit. -/
def measureReadOf (res : Result) : Option Nat :=
  res.effects.findSome? (fun e => match e with | .measureRead r _ => some r | _ => none)

/-- The result as its commit finds it: a refused effect makes it a failure without output, and a MEASURE_READ takes the
value that stands now (R379). A step with a mark was judged as it took its number. -/
def commitResult (s : State) (k : Nat) (t : Step) (res : Result) : Result :=
  let st := if t.mark.isSome then stOk else firstRefusal s k t res.effects
  if st ≠ stOk then { res with status := st, out := [], ext := [], keys := [], effects := res.effects.filter staysRefused }
  else match measureReadOf res with
    | some r => { res with ext := measVal s (curDie s) r }
    | none => openNow s t res

/-! ### Streams and replay -/

/-- A stream opens: its slot and its sequence number are in its identifier (R220). Its idle time of R225 runs from this commit as
long as no segment has committed: the model's choice (log entry 61). -/
def openStream (s : State) (n id slot gen mode : Nat) (chain : Bytes) : State :=
  { s with streams := mput s.streams id { slice := n, slot := slot, gen := gen, mode := mode, chain := chain, lastNt := s.nt.ns }
           streamSeq := mput s.streamSeq (id % 16384) (id / 16384 + 1) }

/-- A replay run at its commit (R521): the register is extended, and the session ends after its last run. -/
def replayRan (s : State) (d : Bytes) : State :=
  let s := extendReg s s.gauge.replay.reg d
  let r := s.gauge.replay
  let s := { s with gauge := { s.gauge with replay := { r with runs := r.runs + 1 } } }
  if r.limit ≤ r.runs + 1 then endReplay s else s

/-- One effect of a step at its commit. -/
def applyEffect (s : State) (k : Nat) (t : Step) (seq : Nat) (e : Effect) : State :=
  match e with
  | .measureExtend r claim x =>
    let s := if claim then { s with measOwner := mput s.measOwner r t.sliceNo } else s
    extendReg s r x
  | .measureRead r release => if release then releaseReg s r else s
  | .streamOpen id slot gen mode chain => openStream s t.sliceNo id slot gen mode chain
  | .streamUpdate id chain pos final =>
    { s with streams := mmod s.streams id (fun x => { x with chain := chain, pos := pos, final := final, lastNt := s.nt.ns }) }
  | .streamClose id => { s with streams := mdel s.streams id }
  | .btcInval sel page => btcDrop s t.sliceNo sel page
  | .replayRun d => replayRan s d
  | _ => applyCeremony s k t seq e

end Sys2Proof.Machine
end

