-- ==== Sys2Proof/Machine/OpCards.lean ====
section
/-!
DEFINITION. The meanings of the opcodes of the PIN, card, DUKPT and MAC chapters, with NOP (R115, R117 to R202). A row runs the function of an
activated step of its opcode.
-/
namespace Sys2Proof.Machine

/-- NOP: 1,000 core cycles and no other effect (R115). -/
def opNop : OpFn := pureFn (fun _ => returns [])
def execNop (k : Nat) (s : State) : Answer := endWith s (runOp k 0x0000 opNop s)

/-- PIN_TRANSLATE (R131, R132). -/
def opPinTranslate : OpFn := drawFn fnPinTranslate
def execPinTranslate (k : Nat) (s : State) : Answer := endWith s (runOp k 0x0101 opPinTranslate s)

/-- PIN_VERIFY_OFFSET. -/
def opPinVerifyOffset : OpFn := pureFn fnPinVerifyOffset
def execPinVerifyOffset (k : Nat) (s : State) : Answer := endWith s (runOp k 0x0102 opPinVerifyOffset s)

/-- PIN_VERIFY_VALUE. -/
def opPinVerifyValue : OpFn := pureFn fnPinVerifyValue
def execPinVerifyValue (k : Nat) (s : State) : Answer := endWith s (runOp k 0x0103 opPinVerifyValue s)

/-- PIN_GENERATE. -/
def opPinGenerate : OpFn := drawFn fnPinGenerate
def execPinGenerate (k : Nat) (s : State) : Answer := endWith s (runOp k 0x0104 opPinGenerate s)

/-- PIN_OFFSET_DERIVE. -/
def opPinOffsetDerive : OpFn := pureFn fnPinOffsetDerive
def execPinOffsetDerive (k : Nat) (s : State) : Answer := endWith s (runOp k 0x0105 opPinOffsetDerive s)

/-- PIN_SCREEN. -/
def opPinScreen : OpFn := pureFn fnPinScreen
def execPinScreen (k : Nat) (s : State) : Answer := endWith s (runOp k 0x0106 opPinScreen s)

/-- PIN_CHANGE_SCRIPT. -/
def opPinChangeScript : OpFn := pureFn fnPinChangeScript
def execPinChangeScript (k : Nat) (s : State) : Answer := endWith s (runOp k 0x0107 opPinChangeScript s)

/-- PIN_VALUE_DERIVE. -/
def opPinValueDerive : OpFn := pureFn fnPinValueDerive
def execPinValueDerive (k : Nat) (s : State) : Answer := endWith s (runOp k 0x0108 opPinValueDerive s)

/-- ARQC_VERIFY. -/
def opArqcVerify : OpFn := pureFn fnArqcVerify
def execArqcVerify (k : Nat) (s : State) : Answer := endWith s (runOp k 0x0201 opArqcVerify s)

/-- ARPC_GENERATE. -/
def opArpcGenerate : OpFn := pureFn fnArpcGenerate
def execArpcGenerate (k : Nat) (s : State) : Answer := endWith s (runOp k 0x0202 opArpcGenerate s)

/-- ARQC_VERIFY_ARPC. -/
def opArqcVerifyArpc : OpFn := pureFn fnArqcVerifyArpc
def execArqcVerifyArpc (k : Nat) (s : State) : Answer := endWith s (runOp k 0x0203 opArqcVerifyArpc s)

/-- SCRIPT_MAC. -/
def opScriptMac : OpFn := pureFn fnScriptMac
def execScriptMac (k : Nat) (s : State) : Answer := endWith s (runOp k 0x0204 opScriptMac s)

/-- SCRIPT_ENCRYPT. -/
def opScriptEncrypt : OpFn := pureFn fnScriptEncrypt
def execScriptEncrypt (k : Nat) (s : State) : Answer := endWith s (runOp k 0x0205 opScriptEncrypt s)

/-- CVC_GENERATE. -/
def opCvcGenerate : OpFn := pureFn fnCvcGenerate
def execCvcGenerate (k : Nat) (s : State) : Answer := endWith s (runOp k 0x0211 opCvcGenerate s)

/-- CVC_VERIFY. -/
def opCvcVerify : OpFn := pureFn fnCvcVerify
def execCvcVerify (k : Nat) (s : State) : Answer := endWith s (runOp k 0x0212 opCvcVerify s)

/-- DCVC_GENERATE. -/
def opDcvcGenerate : OpFn := pureFn fnDcvcGenerate
def execDcvcGenerate (k : Nat) (s : State) : Answer := endWith s (runOp k 0x0213 opDcvcGenerate s)

/-- DCVC_VERIFY. -/
def opDcvcVerify : OpFn := pureFn fnDcvcVerify
def execDcvcVerify (k : Nat) (s : State) : Answer := endWith s (runOp k 0x0214 opDcvcVerify s)

/-- DUKPT_PIN_TRANSLATE. -/
def opDukptPinTranslate : OpFn := drawFn fnDukptPinTranslate
def execDukptPinTranslate (k : Nat) (s : State) : Answer := endWith s (runOp k 0x0301 opDukptPinTranslate s)

/-- DUKPT_MAC_VERIFY. -/
def opDukptMacVerify : OpFn := pureFn fnDukptMacVerify
def execDukptMacVerify (k : Nat) (s : State) : Answer := endWith s (runOp k 0x0302 opDukptMacVerify s)

/-- DUKPT_DECRYPT_DATA. -/
def opDukptDecryptData : OpFn := pureFn fnDukptDecryptData
def execDukptDecryptData (k : Nat) (s : State) : Answer := endWith s (runOp k 0x0303 opDukptDecryptData s)

/-- DUKPT_INITIAL_KEY (R192, R193). -/
def opDukptInitialKey : OpFn := fnInitialKey
def execDukptInitialKey (k : Nat) (s : State) : Answer := endWith s (runOp k 0x0304 opDukptInitialKey s)

/-- MAC_GENERATE. -/
def opMacGenerate : OpFn := pureFn fnMacGenerate
def execMacGenerate (k : Nat) (s : State) : Answer := endWith s (runOp k 0x0311 opMacGenerate s)

/-- MAC_VERIFY. -/
def opMacVerify : OpFn := pureFn fnMacVerify
def execMacVerify (k : Nat) (s : State) : Answer := endWith s (runOp k 0x0312 opMacVerify s)

/-- HMAC_GENERATE. -/
def opHmacGenerate : OpFn := pureFn fnMacGenerate
def execHmacGenerate (k : Nat) (s : State) : Answer := endWith s (runOp k 0x0313 opHmacGenerate s)

/-- HMAC_VERIFY. -/
def opHmacVerify : OpFn := pureFn fnMacVerify
def execHmacVerify (k : Nat) (s : State) : Answer := endWith s (runOp k 0x0314 opHmacVerify s)

/-- The functions of these opcodes. -/
def opCardsTable : List (Nat × OpFn) :=
  [(0x0000, opNop),
   (0x0101, opPinTranslate),
   (0x0102, opPinVerifyOffset),
   (0x0103, opPinVerifyValue),
   (0x0104, opPinGenerate),
   (0x0105, opPinOffsetDerive),
   (0x0106, opPinScreen),
   (0x0107, opPinChangeScript),
   (0x0108, opPinValueDerive),
   (0x0201, opArqcVerify),
   (0x0202, opArpcGenerate),
   (0x0203, opArqcVerifyArpc),
   (0x0204, opScriptMac),
   (0x0205, opScriptEncrypt),
   (0x0211, opCvcGenerate),
   (0x0212, opCvcVerify),
   (0x0213, opDcvcGenerate),
   (0x0214, opDcvcVerify),
   (0x0301, opDukptPinTranslate),
   (0x0302, opDukptMacVerify),
   (0x0303, opDukptDecryptData),
   (0x0304, opDukptInitialKey),
   (0x0311, opMacGenerate),
   (0x0312, opMacVerify),
   (0x0313, opHmacGenerate),
   (0x0314, opHmacVerify)]

end Sys2Proof.Machine
end

