-- ==== Sys2Proof/Machine/OpKeys.lean ====
section
/-!
DEFINITION. The meanings of the token, bulk and key-store opcodes (R203 to R226, R252 to R258). A row runs the function of an
activated step of its opcode.
-/
namespace Sys2Proof.Machine

/-- TOKEN_ENCODE. -/
def opTokenEncode : OpFn := pureFn (fun i => fnToken i false)
def execTokenEncode (k : Nat) (s : State) : Answer := endWith s (runOp k 0x0401 opTokenEncode s)

/-- TOKEN_DECODE. -/
def opTokenDecode : OpFn := pureFn (fun i => fnToken i true)
def execTokenDecode (k : Nat) (s : State) : Answer := endWith s (runOp k 0x0402 opTokenDecode s)

/-- BULK_OPEN (R221, R222). -/
def opBulkOpen : OpFn := fnBulkOpen
def execBulkOpen (k : Nat) (s : State) : Answer := endWith s (runOp k 0x0411 opBulkOpen s)

/-- BULK_SEGMENT (R223). -/
def opBulkSegment : OpFn := fnBulkSegment
def execBulkSegment (k : Nat) (s : State) : Answer := endWith s (runOp k 0x0412 opBulkSegment s)

/-- BULK_CLOSE (R225). -/
def opBulkClose : OpFn := fnBulkClose
def execBulkClose (k : Nat) (s : State) : Answer := endWith s (runOp k 0x0413 opBulkClose s)

/-- BULK_TK7 (R226). -/
def opBulkTk7 : OpFn := fnBulkTk7
def execBulkTk7 (k : Nat) (s : State) : Answer := endWith s (runOp k 0x0414 opBulkTk7 s)

/-- KEY_GENERATE. -/
def opKeyGenerate : OpFn := storeDrawFn fnKeyGenerate
def execKeyGenerate (k : Nat) (s : State) : Answer := endWith s (runOp k 0x0501 opKeyGenerate s)

/-- KEY_IMPORT_BLOCK. -/
def opKeyImportBlock : OpFn := storeFn fnKeyImport
def execKeyImportBlock (k : Nat) (s : State) : Answer := endWith s (runOp k 0x0502 opKeyImportBlock s)

/-- KEY_EXPORT_BLOCK. -/
def opKeyExportBlock : OpFn := drawFn fnKeyExport
def execKeyExportBlock (k : Nat) (s : State) : Answer := endWith s (runOp k 0x0503 opKeyExportBlock s)

/-- KEY_REWRITE. -/
def opKeyRewrite : OpFn := fnRewrite
def execKeyRewrite (k : Nat) (s : State) : Answer := endWith s (runOp k 0x0504 opKeyRewrite s)

/-- KEY_ERASE. -/
def opKeyErase : OpFn := fnErase
def execKeyErase (k : Nat) (s : State) : Answer := endWith s (runOp k 0x0505 opKeyErase s)

/-- KEY_READ_ATTR. -/
def opKeyReadAttr : OpFn := pureFn fnKeyReadAttr
def execKeyReadAttr (k : Nat) (s : State) : Answer := endWith s (runOp k 0x0506 opKeyReadAttr s)

/-- KEY_ACTIVATE_AT. -/
def opKeyActivateAt : OpFn := fnActivateAt
def execKeyActivateAt (k : Nat) (s : State) : Answer := endWith s (runOp k 0x0507 opKeyActivateAt s)

/-- KEY_CHECK_VALUE. -/
def opKeyCheckValue : OpFn := pureFn fnKeyCheckValue
def execKeyCheckValue (k : Nat) (s : State) : Answer := endWith s (runOp k 0x0508 opKeyCheckValue s)

/-- KEY_TXN_QUERY. -/
def opKeyTxnQuery : OpFn := fnTxnQuery
def execKeyTxnQuery (k : Nat) (s : State) : Answer := endWith s (runOp k 0x0509 opKeyTxnQuery s)

/-- KEY_BLOCK_VERIFY. -/
def opKeyBlockVerify : OpFn := pureFn fnKeyBlockVerify
def execKeyBlockVerify (k : Nat) (s : State) : Answer := endWith s (runOp k 0x050A opKeyBlockVerify s)

/-- The functions of these opcodes. -/
def opKeysTable : List (Nat × OpFn) :=
  [(0x0401, opTokenEncode),
   (0x0402, opTokenDecode),
   (0x0411, opBulkOpen),
   (0x0412, opBulkSegment),
   (0x0413, opBulkClose),
   (0x0414, opBulkTk7),
   (0x0501, opKeyGenerate),
   (0x0502, opKeyImportBlock),
   (0x0503, opKeyExportBlock),
   (0x0504, opKeyRewrite),
   (0x0505, opKeyErase),
   (0x0506, opKeyReadAttr),
   (0x0507, opKeyActivateAt),
   (0x0508, opKeyCheckValue),
   (0x0509, opKeyTxnQuery),
   (0x050A, opKeyBlockVerify)]

end Sys2Proof.Machine
end

