-- ==== Sys2Proof/Machine/OpRest.lean ====
section
/-!
DEFINITION. The meanings of the public-key, attestation, digest, random, measurement and cache opcodes (R266 to R298, R371 to R391, R219). A row runs the function of an
activated step of its opcode.
-/
namespace Sys2Proof.Machine

/-- PK_SIGN. -/
def opPkSign : OpFn := drawFn fnPkSign
def execPkSign (k : Nat) (s : State) : Answer := endWith s (runOp k 0x0601 opPkSign s)

/-- PK_VERIFY. -/
def opPkVerify : OpFn := pureFn fnPkVerify
def execPkVerify (k : Nat) (s : State) : Answer := endWith s (runOp k 0x0602 opPkVerify s)

/-- PK_DECRYPT. -/
def opPkDecrypt : OpFn := pureFn fnPkDecrypt
def execPkDecrypt (k : Nat) (s : State) : Answer := endWith s (runOp k 0x0603 opPkDecrypt s)

/-- PK_ENCRYPT. -/
def opPkEncrypt : OpFn := drawFn fnPkEncrypt
def execPkEncrypt (k : Nat) (s : State) : Answer := endWith s (runOp k 0x0604 opPkEncrypt s)

/-- KEY_PAIR_GENERATE. -/
def opKeyPairGenerate : OpFn := storeDrawFn fnKeyPair
def execKeyPairGenerate (k : Nat) (s : State) : Answer := endWith s (runOp k 0x0605 opKeyPairGenerate s)

/-- ECDH_DERIVE. -/
def opEcdhDerive : OpFn := storeFn fnEcdhDerive
def execEcdhDerive (k : Nat) (s : State) : Answer := endWith s (runOp k 0x0606 opEcdhDerive s)

/-- KEM_ENCAPS. -/
def opKemEncaps : OpFn := storeDrawFn fnKemEncaps
def execKemEncaps (k : Nat) (s : State) : Answer := endWith s (runOp k 0x0607 opKemEncaps s)

/-- KEM_DECAPS. -/
def opKemDecaps : OpFn := storeFn fnKemDecaps
def execKemDecaps (k : Nat) (s : State) : Answer := endWith s (runOp k 0x0608 opKemDecaps s)

/-- TR34_IMPORT. -/
def opTr34Import : OpFn := storeFn fnTr34Import
def execTr34Import (k : Nat) (s : State) : Answer := endWith s (runOp k 0x0611 opTr34Import s)

/-- TR34_EXPORT. -/
def opTr34Export : OpFn := drawFn fnTr34Export
def execTr34Export (k : Nat) (s : State) : Answer := endWith s (runOp k 0x0612 opTr34Export s)

/-- TRANSPORT_HYBRID_SEAL. -/
def opTransportHybridSeal : OpFn := drawFn fnHybridSeal
def execTransportHybridSeal (k : Nat) (s : State) : Answer := endWith s (runOp k 0x0613 opTransportHybridSeal s)

/-- TRANSPORT_HYBRID_OPEN. -/
def opTransportHybridOpen : OpFn := storeFn fnHybridOpen
def execTransportHybridOpen (k : Nat) (s : State) : Answer := endWith s (runOp k 0x0614 opTransportHybridOpen s)

/-- ATTEST_KEY. -/
def opAttestKey : OpFn := storeDrawFn fnAttestKey
def execAttestKey (k : Nat) (s : State) : Answer := endWith s (runOp k 0x0621 opAttestKey s)

/-- ATTEST_MODULE. -/
def opAttestModule : OpFn := storeDrawFn fnAttestModule
def execAttestModule (k : Nat) (s : State) : Answer := endWith s (runOp k 0x0622 opAttestModule s)

/-- DIGEST_BLOCKS. -/
def opDigestBlocks : OpFn := fnDigestBlocks
def execDigestBlocks (k : Nat) (s : State) : Answer := endWith s (runOp k 0x0701 opDigestBlocks s)

/-- RANDOM_GET. -/
def opRandomGet : OpFn := fnRandomGet
def execRandomGet (k : Nat) (s : State) : Answer := endWith s (runOp k 0x0702 opRandomGet s)

/-- MEASURE_EXTEND. -/
def opMeasureExtend : OpFn := fnMeasureExtend
def execMeasureExtend (k : Nat) (s : State) : Answer := endWith s (runOp k 0x0703 opMeasureExtend s)

/-- MEASURE_READ. -/
def opMeasureRead : OpFn := fnMeasureRead
def execMeasureRead (k : Nat) (s : State) : Answer := endWith s (runOp k 0x0704 opMeasureRead s)

/-- BTC_INVAL. -/
def opBtcInval : OpFn := fnBtcInval
def execBtcInval (k : Nat) (s : State) : Answer := endWith s (runOp k 0x0710 opBtcInval s)

/-- The functions of these opcodes. -/
def opRestTable : List (Nat × OpFn) :=
  [(0x0601, opPkSign),
   (0x0602, opPkVerify),
   (0x0603, opPkDecrypt),
   (0x0604, opPkEncrypt),
   (0x0605, opKeyPairGenerate),
   (0x0606, opEcdhDerive),
   (0x0607, opKemEncaps),
   (0x0608, opKemDecaps),
   (0x0611, opTr34Import),
   (0x0612, opTr34Export),
   (0x0613, opTransportHybridSeal),
   (0x0614, opTransportHybridOpen),
   (0x0621, opAttestKey),
   (0x0622, opAttestModule),
   (0x0701, opDigestBlocks),
   (0x0702, opRandomGet),
   (0x0703, opMeasureExtend),
   (0x0704, opMeasureRead),
   (0x0710, opBtcInval)]

end Sys2Proof.Machine
end

