-- ==== Sys2Proof/Machine/Replay.lean ====
section
/-!
DEFINITION. Replay (R517 to R522): which steps are captured, what a capture entry holds, the capture ring, and the functions
of REPLAY_RUN and REPLAY_STATUS.
-/
namespace Sys2Proof.Machine

/-! ### Capture (R517 to R519) -/

/-- Opcodes that capture records. -/
def capturable (op : Nat) : Bool :=
  ((decide (1 ≤ op / 256) && decide (op / 256 ≤ 6)) || op == 0x0701 || op == 0x0702) &&
    ! [0x0411, 0x0412, 0x0413, 0x0414, 0x0509, 0x0621, 0x0622].contains op

/-- The step is captured: its policy says so and its function has run. -/
def captured (t : Step) (res : Result) : Bool :=
  t.policyCapture && capturable (dOp t.desc) && decide (res.cycles ≠ 0)

/-- The capture entry of a step, sealed under the root in force. -/
def captureEntry (s : State) (t : Step) (res : Result) (seq : Nat) (st : Status) : Capture :=
  let whole := decide (t.input.length ≤ 4096) && decide (res.drawn.flatten.length ≤ 3888)
  sealCapture s.kst.rootKey s.kst.rootId
    { sliceNo := t.sliceNo, opcode := dOp t.desc, complete := whole, ranAhead := t.ahead, seq := seq, actNt := t.actNt,
      gens := (List.range 4).map (genAt t), counter := res.counter, pinGrants := t.pinGrants, pinScreenMin := t.pinScreenMin,
      input := if whole then t.input else [], drbg := if whole then res.drawn else [], status := st,
      desc := if whole then t.desc else [] }

/-- The entry written at the next position of the ring of an MRAM die. -/
def capturePut (e : Capture) (m : Mram) : Mram :=
  { m with capture := mput m.capture (m.captured % 65536) e, captured := m.captured + 1 }

/-- A capture entry is written to the MRAM of every die required (R517). -/
def captureStep (s : State) (t : Step) (res : Result) (seq : Nat) (st : Status) : State :=
  if captured t res then
    let e := captureEntry s t res seq st
    let s := onMram s (mramDies s) (capturePut e)
    let s := bump s (pgRpl (curDie s) + 0x120) 0 32 1
    if e.complete then s else bump s (pgRpl (curDie s) + 0x120) 32 16 1
  else s

/-! ### REPLAY_RUN (R521) -/

/-- The functions of the opcodes that capture records. -/
def opFnOf (op : Nat) : Option OpFn :=
  ((opCardsTable ++ opKeysTable ++ opRestTable).find? (fun e => e.1 == op)).map (·.2)

/-- The entry with a commit sequence number on an MRAM die. -/
def entryIn (m : Mram) (seq : Nat) : Option Capture := (captureEntries m).find? (fun e => e.seq == seq)

/-- An entry opens under the root in force. -/
def opens (s : State) (e : Capture) : Bool := captureOpens s.kst.rootKey s.kst.rootId e

/-- The entry that a run opens: the active die's copy, or the other die's where its tag fails. -/
def entryFor (s : State) (seq : Nat) : Option Capture :=
  match entryIn (mramOf s (curDie s)) seq with
  | some e =>
    if opens s e then some e
    else match entryIn (mramOf s (otherDie (curDie s))) seq with
      | some o => if opens s o then some o else some e
      | none => some e
  | none => none

/-- Binding of one captured position at its captured generation. -/
def replayBind (s : State) (n slot gen : Nat) : Except Status KeyRecord :=
  if groupDamaged s slot then .error stIntegrity
  else if inWithdrawal s slot then .error stKeyWithdrawn
  else match slotView s slot with
    | .held r => if r.owner ≠ n then .error stKeyNotFound else if r.generation ≠ gen then .error stKeyGeneration else .ok r
    | _ => .error stKeyNotFound

/-- The records of the captured positions, in position order; an unused position has an empty record. -/
def replayKeys (s : State) (e : Capture) (ps : List Nat) : Except Status (List KeyRecord) :=
  match ps with
  | [] => .ok []
  | p :: r =>
    let gen := e.gens.getD p 0
    let here := if gen = 0 then .ok {} else replayBind s e.sliceNo (hSlot (dHandle e.desc p)) gen
    match here with
    | .error st => .error st
    | .ok k => match replayKeys s e r with
      | .error st => .error st
      | .ok l => .ok (k :: l)

/-- The usage, mode, algorithm and window checks of a run against act_nt, whatever the trust state. -/
def replayCheck (s : State) (e : Capture) (keys : List KeyRecord) (p : Nat) : Status :=
  let r := keys.getD p {}
  if e.gens.getD p 0 = 0 then stOk
  else if !posOk e.opcode e.desc (keys.take p) p r then stKeyUsage
  else windowStatus s { r with expireAtReset := false } e.actNt true

/-- The key store as a run sees it, in which no target slot is in use: the checks of target slots do not apply to a run. -/
def replayStore (s : State) (n : Nat) : State :=
  { s with mram0 := {}, mram1 := {},
           slices := sset (fun _ => {}) s.slices n { sliceOf s n with keyBase := 0, keyCount := 2 ^ 24 }
           kst := { s.kst with marks := [], withdrawal := [], pendings := [], draws := [] } }

/-- The step that a run executes: the captured one, as it stood at its activation. -/
def replayStep (t : Step) (e : Capture) : Step :=
  { t with desc := e.desc, actNt := e.actNt, pinGrants := e.pinGrants, pinScreenMin := e.pinScreenMin, input := e.input
           bound := (List.range 4).filterMap (fun p =>
             let g := e.gens.getD p 0
             if g = 0 then none else some { pos := p, slot := hSlot (dHandle e.desc p), gen := g }) }

/-- The result of the captured function, at act_nt and with the captured counter and DRBG outputs. Draws of the counter
continue from the captured value. -/
def replayFn (s : State) (t : Step) (e : Capture) (keys : List KeyRecord) : Result :=
  match opFnOf e.opcode with
  | none => fails stOpcode
  | some f =>
    let i : FnIn :=
      { op := e.opcode, desc := e.desc, input := e.input, keys := keys.map (fun r => { r with nonceCtr := e.counter }), slice := t.sliceNo, nt := e.actNt, trusted := true,
        pinGrants := e.pinGrants, pinScreenMin := e.pinScreenMin, exportGrant := (sliceOf s t.sliceNo).policy.exportGrant }
    if e.opcode = 0x0507 then returns []
    else (f (replayStore s t.sliceNo) (replayStep t e) i { nt := e.actNt, replayed := some e.drbg }).1

/-- The number of generations that a creating or rewriting opcode returns at the head of its output. -/
def genCount (res : Result) : Nat :=
  (res.keys.filter (fun c => match c with | .create _ _ | .rewrite _ _ _ _ _ => true | _ => false)).length

/-- The digest of a replayed result. -/
def replayDigest (res : Result) (ext : Nat) : Bytes :=
  hash .sha256 (leBytes 2 res.status.toNat ++ leBytes 1 res.out.length ++ leBytes 4 ext ++ res.out ++ res.ext)

/-- What a run answers: its digest, which its commit extends into the register. -/
def replayAnswer (res : Result) : Result :=
  let d := replayDigest res res.ext.length
  { status := stOk, out := d, effects := [.replayRun d] }

/-- Everything of a run but the generations assigned to its targets, which are free values (log entry 26). -/
def replayOutcome (s : State) (t : Step) : Result :=
  let seq := leAt t.desc 64 8
  if !(isReplaySlice s t.sliceNo && s.gauge.replay.state == 1) then fails stCeremonyState
  else match entryFor s seq with
    | none => fails stReplayNotCaptured
    | some e =>
      if e.sliceNo ≠ t.sliceNo ∨ e.deleted = true ∨ e.complete = false then fails stReplayNotCaptured
      else if opens s e = false then fails stIntegrity
      else match replayKeys s e (List.range 4) with
        | .error st => fails st
        | .ok keys =>
          match (List.range 4).find? (fun p => replayCheck s e keys p != stOk) with
          | some p => replayAnswer (fails (replayCheck s e keys p))
          | none =>
            let res := replayFn s t e keys
            let gens := (List.range (genCount res)).map (fun j => Config.freeValue (s.freeCount + j) % 2 ^ 31)
            replayAnswer { res with out := patchGens res.out gens }

/-- REPLAY_RUN. -/
def opReplayRun : OpFn := fun s t _ r => (replayOutcome s t, r)
/-- The free-value counter moves past the generations that a run may have read. -/
def execReplayRun (k : Nat) (s : State) : Answer :=
  endWith s (let s' := runOp k 0x0901 opReplayRun s; { s' with freeCount := s'.freeCount + 4 })

/-- REPLAY_STATUS (R522). -/
def opReplayStatus : OpFn := fun s t _ r =>
  let x := s.gauge.replay
  let mine := (captureEntries (mramOf s (curDie s))).filter (fun e => e.sliceNo == t.sliceNo && e.complete && !e.deleted)
  let oldest := mine.foldl (fun a e => min a e.seq) (match mine with | e :: _ => e.seq | [] => 0)
  let head := leBytes 1 x.state ++ leBytes 1 x.reg ++ zeros 2 ++ leBytes 4 x.runs ++ leBytes 4 x.limit
  (returns (head ++ leBytes 4 mine.length ++ leBytes 8 oldest ++ leBytes 8 x.ends), r)
def execReplayStatus (k : Nat) (s : State) : Answer := endWith s (runOp k 0x0902 opReplayStatus s)

end Sys2Proof.Machine
end

