-- ==== Sys2Proof/Machine/Rules.lean ====
section
/-!
DEFINITION. The protection rules of a core (R403 to R406): the rule set that Confluence writes at a hand-over, and the swap
at which it becomes active.
-/
namespace Sys2Proof.Machine

/-- A rule word of Table 5 of the memory chapter: a region of SRAM bytes with its permissions. -/
def ruleWord (base bytes : Nat) (write : Bool) : Word :=
  flag 0 true ||| flag 1 true ||| flag 2 write ||| fld 3 21 (base / 64) ||| fld 24 21 (bytes / 64)

/-- Owner of the rules and of the engine jobs of a step: its slice, or the module (1,024) for ceremonies and jobs under the
module's identity keys (R272, R403). -/
def ownerOf (t : Step) : Nat :=
  if dOp t.desc / 256 = 8 ∨ dOp t.desc = 0x0621 ∨ dOp t.desc = 0x0622 then 1024 else t.sliceNo

/-- The sixteen rules of a step on a core: its context, its fetch slot, the core's scratch, its yield area, its slice's
stream states where its opcode uses streams, and the constants (log entry 27). -/
def stepRules (c k : Nat) (t : Step) : List Word :=
  let streams := dOp t.desc / 16 = 0x041
  [ruleWord (0x1000000 + ctxOf k * 512) 512 true, ruleWord (0x2000000 + (8 * t.sliceNo + t.pair) * 4096) 4096 false,
   ruleWord (0x5000000 + c * 0x8000) 0x8000 true, Config.yieldRule k,
   if streams then Config.streamRule t.sliceNo else 0, 0, 0, 0, 0, 0, 0, 0,
   Config.constantRule 12, Config.constantRule 13, Config.constantRule 14, Config.constantRule 15]

/-- The shadow set of a core is written for a step that is handed to it. -/
def shadowRules (s : State) (c k : Nat) : State :=
  match stepOf s k with
  | none => s
  | some t =>
    let r := rulesOf s c
    let w := stepRules c k t
    setRules s c (if r.active = 0 then { r with set1 := w, shadowOwner := ownerOf t, shadowReady := true }
      else { r with set0 := w, shadowOwner := ownerOf t, shadowReady := true })

/-- The core passes to the next request: its sets swap roles. Its write buffer has drained: every command that fills it drains it
(`storesDrain`). The cycles of the drain before the swap are a free value of at most 8 buffered stores (R406; log entry 27). -/
def swapRules (s : State) (c : Nat) : State :=
  let r := rulesOf s c
  if !r.shadowReady then s
  else
    let (v, s) := drawFree s
    let s := setRules s c { r with active := 1 - r.active, activeOwner := r.shadowOwner, shadowOwner := r.activeOwner, shadowReady := false }
    let a := pgMpu (curDie s) c + 0x110
    bump (bump s a 0 32 1) a 32 32 (v % 9)

end Sys2Proof.Machine
end

