-- ==== Sys2Proof/Machine/Chain.lean ====
section
/-!
DEFINITION. Commit (R33 to R37, R96, R97, R109, R110, R259, R354, R355, R361): when a step or a refused chain sends its
commit record, what its commit point changes, the completion it owes, and what the end of one step means for the other
steps of its chain.
-/
namespace Sys2Proof.Machine

/-! ### Completions (R96, R97) -/

/-- The 64 bytes of a completion. -/
def completionBytes (d : Bytes) (st : Status) (out : Bytes) (extLen seq nt : Nat) : Bytes :=
  let ok := st == stOk
  leBytes 4 (dTag d) ++ leBytes 2 st.toNat ++ leBytes 1 (dIndex d + 16 * dLast d) ++ leBytes 1 (if ok then min 32 out.length else 0) ++
    leBytes 4 (dSeq d) ++ leBytes 4 (if ok then extLen else 0) ++ leBytes 8 seq ++ leBytes 8 nt ++ padTo 32 (if ok then out else [])

/-- A completion enters the list that its ring owes, in commit order (R71). -/
def insertOwed (l : List Owed) (o : Owed) : List Owed :=
  l.filter (fun x => decide (x.seq < o.seq)) ++ [o] ++ l.filter (fun x => decide (o.seq < x.seq))

def owe (s : State) (sliceNo pair : Nat) (o : Owed) : State :=
  let r := ringOf s sliceNo pair
  setRing s sliceNo pair { r with owed := insertOwed r.owed o }

/-! ### Latency histograms (R511) -/

/-- Bin of a latency: the number of edges that it reaches. Edge k is the fourth root of 10^12 × 2^k, rounded down. -/
def histBin (l : Nat) : Nat := ((List.range 63).filter (fun k => decide (10 ^ 12 * 2 ^ k < (l + 1) ^ 4))).length

/-- A commit of a slice's request of an opcode is counted. -/
def histAdd (s : State) (sliceNo op latency : Nat) : State :=
  if op / 256 ≤ 9 then
    let i := sliceNo * 640 + op / 256 * 64 + histBin latency
    let c := sget (fun _ => 0) s.gauge.cur i
    { s with gauge := { s.gauge with cur := sset (fun _ => 0) s.gauge.cur i (min (c + 1) 0xFFFFFFFF) } }
  else s

/-! ### What the end of a step means for its chain (R109, R110, R359, R361) -/

/-- The step has been activated and has not committed. -/
def isActive (t : Step) : Bool :=
  match t.phase with
  | .executing _ | .yielded | .readyOnCore _ | .inEddy _ _ | .ended => true
  | .listed | .prefetched _ => t.ran
  | _ => false

/-- A later step of a chain hears that step `i` ended with a status. -/
def hearEnd (s : State) (k i : Nat) (halt : Bool) (st : Status) : State :=
  match stepOf s k with
  | none => s
  | some t =>
    let guards := dGuarded t.desc && dGuard t.desc == i
    let t' := { t with guardOk := if guards then some (st == stOk) else t.guardOk, haltFailed := t.haltFailed || (halt && st != stOk) }
    let s := setStep s k t'
    if st = stOk ∨ isActive t = false then s
    else if guards then endStep s k stGuardFailed
    else if halt then endStep s k stChainHalted
    else s

/-- Every later uncommitted step of the chain hears of an end. -/
def chainNews (s : State) (t : Step) (st : Status) : State :=
  (stepsWhere s (fun _ e => e.admitSeq == t.admitSeq && decide (t.index < e.index) && !isCommitted e)).foldl
    (fun s k => hearEnd s k t.index (dHalt t.desc) st) s

/-! ### The commit point -/

/-- A request that ended with a status of class 0x09 is journalled (R116, R505). The event is made at the commit point, and the
commit record does not wait for it: the model's choice between R33(b) and R35 (log entry 17). -/
def faultJournal (s : State) (t : Step) (st : Status) : State :=
  if isFaultClass st then
    journal s { jev (0x0B00 + st.toNat % 256) 2 (dieSource (curDie s)) (detail st.toNat 0 0 (dTag t.desc) 0) (some t.sliceNo) with op := dOp t.desc }
  else s

/-- A request of a squashed slice is counted (SLC_RESET_INFO.squashed). -/
def countSquash (s : State) (n : Nat) (st : Status) : State :=
  if st = stSliceReset then
    let sl := sliceOf s n
    setSlice s n { sl with squashed := min (sl.squashed + 1) 0xFFFFFFFF }
  else s

/-- The commit point of a step whose number is assigned: its status is final, and every change that it makes takes effect
(R33, R36, R379). -/
def commitPoint (s : State) (k : Nat) : State :=
  match stepOf s k with
  | none => s
  | some t =>
    match t.result, t.seq with
    | some r0, some seq =>
      let r := commitResult s k t r0
      let st := r.status
      let s := captureStep s t r seq st
      let s := setStep s k { t with phase := .committed, result := some r, final := st, bound := [], ending := none }
      let s := traceRelease s t
      let s := countCommit s seq
      let s := histAdd s t.sliceNo (dOp t.desc) (t.commitNt - t.admNt)
      let s := faultJournal s t st
      let s := r.effects.foldl (fun s e => applyEffect s k t seq e) s
      let s := if st = stOk then s else closeFailed s k t
      let s := countSquash s t.sliceNo st
      chainNews s t st
    | _, _ => s

/-- The step's executing slot or Eddy entry is free after its commit, and its lane is zeroised (R354, R367). -/
def retire (s : State) (k : Nat) : State :=
  match entryOf s k with
  | some (c, _) => dropLane (moveEntry s k .free) c k
  | none => leaveCore s k

/-- Length of the output-segment bytes that a completion reports. -/
def extLenOf (t : Step) (r : Result) : Nat := if dOp t.desc = 0x0412 ∨ dOp t.desc = 0x0414 then leAt t.desc 72 8 else r.ext.length

/-- The completion of a committed step. -/
def owedOf (k : Nat) (t : Step) (r : Result) (st : Status) (seq : Nat) : Owed :=
  { seq := seq, bytes := completionBytes t.desc st r.out (extLenOf t r) seq t.commitNt, ext := if st = stOk then r.ext else []
    segs := sgOut t.sg, signal := dSignal t.desc, step := some k, entry := t.entry }

/-- An accepted data pass is abandoned. Once it has started, its completion carries the status, and the step's commit stands; a
fault status is journalled (R116, R229). Before that, the pass is abandoned as it would start. -/
def abandonPass (s : State) (k : Nat) (st : Status) : State :=
  match stepOf s k with
  | none => s
  | some t =>
    match s.passes.find? (fun p => p.step == k), t.seq with
    | some p, some seq =>
      if !p.started then { s with passes := s.passes.map (fun q => if q.step = k then { q with doom := some (q.doom.getD st) } else q) }
      else
        owe (dropPass (faultJournal s t st) k) t.sliceNo t.pair
          { seq := seq, bytes := completionBytes t.desc st [] 0 seq t.commitNt, ext := [], segs := [], signal := dSignal t.desc, step := some k, entry := t.entry }
    | some _, none => { s with passes := s.passes.map (fun q => if q.step = k then { q with doom := some (q.doom.getD st) } else q) }
    | none, _ => s

/-- The data pass of a committed step starts, through the port that carries its pair now (R228). -/
def startPass (s : State) (k : Nat) (t : Step) : State :=
  let doom := (s.passes.find? (fun p => p.step == k)).bind (·.doom)
  let s := { s with passes := s.passes.map (fun p => if p.step = k then { p with started := true, port := (stepPort s t).getD p.port } else p) }
  match doom with
  | some st => abandonPass s k st
  | none => s

/-- The active die knows of the commit: the step leaves its slots, and its completion is owed. A bulk step's data pass starts
instead, and its completion follows the pass (R227). -/
def oweStep (s : State) (k : Nat) : State :=
  match stepOf s k with
  | none => s
  | some t =>
    match t.result, t.seq with
    | some r, some seq =>
      if !isCommitted t then s
      else
        let s := retire s k
        if hasPass s k && t.final == stOk then startPass s k t
        else owe (dropPass s k) t.sliceNo t.pair (owedOf k t r t.final seq)
    | _, _ => s

/-- Passes that a predicate accepts are abandoned with a status. -/
def abandonAll (s : State) (f : Pass → Bool) (st : Status) : State :=
  ((s.passes.filter f).map (·.step)).foldl (fun s k => abandonPass s k st) s

/-! ### Refused chains (R33, R69) -/

/-- The refused chain with an admission sequence number. -/
def refusedOf (s : State) (a : Nat) : Option Refused := s.conf.refused.find? (fun r => r.admitSeq == a)

def setRefused (s : State) (r : Refused) : State :=
  { s with conf := { s.conf with refused := s.conf.refused.map (fun x => if x.admitSeq = r.admitSeq then r else x) } }

/-- The commit point of the next step of a refused chain. -/
def refusedPoint (s : State) (a : Nat) : State :=
  match refusedOf s a with
  | none => s
  | some r =>
    match r.sent with
    | none => s
    | some (seq, nt, _) =>
      let d := r.descs.getD r.applied []
      let s := setRefused s { r with applied := r.applied + 1 }
      histAdd (countCommit s (seq + r.applied)) r.sliceNo (dOp d) (nt - r.admNt)

/-- The completion of the next step of a refused chain is owed; after its last the chain is gone. -/
def oweRefused (s : State) (a : Nat) : State :=
  match refusedOf s a with
  | none => s
  | some r =>
    match r.sent with
    | none => s
    | some (seq, nt, entry) =>
      let j := r.next
      let d := r.descs.getD j []
      let s := setRefused s { r with next := j + 1 }
      let s := owe s r.sliceNo r.pair
        { seq := seq + j, bytes := completionBytes d r.status [] 0 (seq + j) nt, ext := [], segs := [], signal := dSignal d, step := none, entry := entry + j }
      if r.descs.length ≤ j + 1 then
        { s with conf := { s.conf with refused := s.conf.refused.filter (fun x => x.admitSeq != a) } }
      else s

/-! ### Sending commit records (R33, R37) -/

/-- Positions of the completion ring taken by commits that are sent. -/
def takeEntries (s : State) (sliceNo pair n : Nat) : Nat × State :=
  let r := ringOf s sliceNo pair
  (r.cqNext.toNat, setRing s sliceNo pair { r with cqNext := r.cqNext + BitVec.ofNat 32 n })

/-- The step is ready, nothing of its chain is before it, and its number is not assigned. -/
def awaitsCommit (s : State) (t : Step) : Bool :=
  t.seq.isNone && t.result.isSome && !isCommitted t && earlierDone s t &&
    (match t.phase with
     | .inEddy c i => ((coreOf s c).eddy.getD i {}).mode == .commit
     | .readyOnCore _ | .ended => true
     | _ => false)

/-- Condition (a) of R33: in duplex running the admission record is acknowledged. -/
def admitted (s : State) (acked : Bool) : Bool := acked || !duplex s

/-- The commit of the step is made under a progress mark: it writes a frame, or a roster (R257, R301). -/
def needsMark (s : State) (t : Step) (r : Result) : Bool := needsTxn s t r || !(rosterChanges s r).isEmpty

/-- The transaction of a step stands as far as its commit record needs: it needs none, or its frames are held. -/
def txnReady (s : State) (t : Step) : Bool :=
  match t.mark with
  | some m => (match mget s.kst.marks m with | some x => x.framesHeld | none => false)
  | none => (match t.result with | some r => !needsMark s t r | none => false)

/-- The commit record of an immediate erase of a slot that the step holds has been sent: the step waits for that commit,
which ends it (R248). -/
def erasedUnder (s : State) (t : Step) : Bool :=
  s.kst.marks.any (fun e => e.2.withdraws && e.2.seq != 0 && !e.2.flipped &&
    t.bound.any (fun b => !b.target && e.2.writes.any (fun w => w.slot == b.slot)))

/-- The step sends its commit record now. In simplex running a key transaction takes its number at its flip instead. -/
def maySend (s : State) (t : Step) : Bool :=
  awaitsCommit s t && admitted s t.admAcked && txnReady s t && !erasedUnder s t && (t.mark.isNone || duplex s)

/-- A result that fails at its commit with a status: it keeps what its function spends under that status. -/
def failedResult (t : Step) (r : Result) (st : Status) : Result :=
  { fails st with spends := spentPositions t st, cycles := r.cycles, drawn := r.drawn, counter := r.counter, effects := r.effects.filter staysRefused }

/-- The result opens a stream. -/
def opensStream (r : Result) : Bool := r.effects.any (fun e => match e with | .streamOpen _ _ _ _ _ => true | _ => false)

/-- A step about to take its number is judged. What needs a mark or a stream slot is decided now, for its commit record
carries it; a refusal rolls the mark back, and the step goes on with the failure (R35, R37). -/
def judgeStep (s : State) (k : Nat) : State :=
  match stepOf s k with
  | none => s
  | some t => match t.result with
    | none => s
    | some r =>
      let st := firstRefusal s k t r.effects
      if st = stOk || !(t.mark.isSome || opensStream r) then s
      else
        let s := match t.mark with | some m => dropMark s m | none => s
        setStep s k { t with mark := none, result := some (failedResult t r st) }

/-- The stream that a result opens takes its identifier with the number of its step (R220). -/
def streamNow (s : State) (t : Step) (r : Result) : Result :=
  match freshStream s t.sliceNo with
  | some id =>
    if opensStream r then
      { r with out := leBytes 4 id ++ r.out.drop 4
               effects := r.effects.map (fun e => match e with | .streamOpen _ slot gen mode chain => .streamOpen id slot gen mode chain | e => e) }
    else r
  | none => r

/-- A number, the commit NT and the completion-ring entry are given to a step. -/
def numberStep (s : State) (k : Nat) : State :=
  match stepOf s k with
  | none => s
  | some t =>
    let (seq, s) := takeCommit s
    let (e, s) := takeEntries s t.sliceNo t.pair 1
    let s := setStep s k { t with seq := some seq, commitNt := s.gauge.lastCommitNt, entry := e, result := t.result.map (streamNow s t) }
    match t.mark with
    | some m => numberTxn s m seq
    | none => s

/-- A step sends its commit record; in simplex running its commit point falls at once. -/
def sendStep (s : State) (k : Nat) : State :=
  let s := numberStep s k
  if duplex s then mirrorSend s (.commit k) else oweStep (commitPoint s k) k

/-- A refused chain may send its commit records. -/
def maySendRefused (s : State) (r : Refused) : Bool := r.sent.isNone && admitted s r.admAcked

/-- One commit record for each step of a refused chain, in step order. After a switchover the steps that had committed stay
committed (R441). -/
def sendRefused (s : State) (a : Nat) : State :=
  match refusedOf s a with
  | none => s
  | some r =>
    let i := r.applied
    let n := r.descs.length - i
    let seq := s.conf.commitSeq + 1
    let (e, s) := takeEntries s r.sliceNo r.pair n
    let s := { s with conf := { s.conf with commitSeq := s.conf.commitSeq + n }, gauge := { s.gauge with lastCommitNt := max s.nt.ns s.gauge.lastCommitNt } }
    let s := setRefused s { r with sent := some (seq - i, s.gauge.lastCommitNt, e - i) }
    (List.range n).foldl (fun s j => if duplex s then mirrorSend s (.commitRefused a (i + j)) else oweRefused (refusedPoint s a) a) s

/-- An internal key transaction may send its commit record (R257). -/
def maySendInternal (s : State) (x : Mark) : Bool :=
  duplex s && x.framesHeld && x.seq == 0 && !x.flipped && (match x.kind with | .step _ => false | _ => true)

def sendInternal (s : State) (m : Nat) : State :=
  let (seq, s) := takeCommit s
  mirrorSend (numberTxn s m seq) (.commitInternal m)

/-- Marks in ascending order of their primary slots (R37). -/
def marksBySlot (s : State) : List Nat :=
  s.kst.marks.foldl (fun (acc : List Nat) e =>
    let before := fun m => match mget s.kst.marks m with | some x => decide (x.slot ≤ e.2.slot) | none => true
    acc.filter before ++ [e.1] ++ acc.filter (fun m => !before m)) []

/-! ### Key transactions of steps (R257, R259, R261) -/

/-- The slots that a change would write: those of its group. -/
def aimedSlots (s : State) (c : KeyChange) : List Nat :=
  match c with
  | .create _ _ => changedSlots s c
  | _ => (changeSlot c).toList

/-- Counter part of a key transaction: another transaction on the slot only delays it. A class 0x05 change that finds its
slot in a change fails (R261). -/
def changeBlocked (s : State) (t : Step) (r : Result) : Bool :=
  dOp t.desc / 256 == 5 && (r.keys.map (aimedSlots s)).flatten.any (fun a => changeOn s a)

/-- Step 1 of R259 for a step that is ready: a mark is set, or the step waits for a mark, for the transaction that holds
one of its slots or for a shadow frame, or its change fails. -/
def prepareTxn (s : State) (k : Nat) : State :=
  match stepOf s k with
  | none => s
  | some t =>
    match t.result with
    | none => s
    | some r =>
      if t.mark.isSome || !needsMark s t r then s
      else if changeBlocked s t r then setStep s k { t with result := some (failedResult t r stKeySlotBusy) }
      else match allChanges s t.sliceNo r.keys (counterWrites s t r), freeMark s with
        | .error st, _ => setStep s k { t with result := some (failedResult t r st) }
        | .ok _, none => s
        | .ok ws, some m =>
          if ws.any (fun w => markOn s w.slot) || !framesFound ws then s
          else
            let r' := { r with out := patchGens r.out (assignedGens s r) }
            let s := setStep s k { t with mark := some m, result := some r' }
            setMark s m { kind := .step k, sliceNo := t.sliceNo, slot := (ws.map (·.slot)).headD 0, clientSeq := dSeq t.desc
                          writes := ws, withdraws := withdrawn r, changes := (r.keys.map (changedSlots s)).flatten
                          rosters := rosterChanges s r }

/-! ### Settling -/

/-- A step resumes on a core: its yield area is free, and its lane holds its keys again (R337, R367). -/
def resumeOn (s : State) (c k : Nat) (t : Step) : State :=
  freeYield (match t.result with
    | some r => loadLane s c k (laneAccept [] (laneOps (fnInOf s t) r)).1
    | none => s)

/-- A prefetched item moves to an empty executing slot, and is activated unless it resumes (R336, R337). -/
def promoteCore (s : State) (c : Nat) : State :=
  let x := coreOf s c
  match x.exec, x.pre with
  | none, some k =>
    let s := swapRules (setCore s c { x with exec := some k, pre := none }) c
    match stepOf s k with
    | none => s
    | some t =>
      let s := setStep s k { t with phase := .executing c }
      if t.ran then resumeOn s c k t else activate s k
  | _, _ => s

def promote (s : State) : State := s.cores.foldl (fun s e => promoteCore s e.1) s

/-- Commit records leave in the order of R37: internal transactions by slot, steps by context, refused chains in the order
in which they were consumed. -/
def sendAll (s : State) : State :=
  let s := startJobs 6 s
  let s := (stepsWhere s (fun _ t => awaitsCommit s t && t.mark.isNone)).foldl prepareTxn s
  let s := (marksBySlot s).foldl (fun s m => match mget s.kst.marks m with
    | some x => if maySendInternal s x then sendInternal s m else s
    | none => s) s
  let s := (stepsWhere s (fun _ t => maySend s t)).foldl (fun s k =>
    let s := judgeStep s k
    match stepOf s k with
    | some t => if maySend s t then sendStep s k else s
    | none => s) s
  (s.conf.refused.map (·.admitSeq)).foldl (fun s a => match refusedOf s a with
    | some r => if maySendRefused s r then sendRefused s a else s
    | none => s) s

/-- An entry in ORDER whose earlier steps have all committed stands in COMMIT (R354). -/
def orderToCommit (s : State) : State :=
  (stepsWhere s (fun _ t => earlierDone s t && (match t.phase with
    | .inEddy c i => ((coreOf s c).eddy.getD i {}).mode == .order
    | _ => false))).foldl (fun s k => moveEntry s k .commit) s

/-- Everything that can move without a further event moves: `n` rounds. -/
def settleFor (n : Nat) (s : State) : State :=
  match n with
  | 0 => s
  | m + 1 => settleFor m (sendAll (orderToCommit (enterLists (promote s))))

/-- Rounds enough for a chain of eight steps. -/
def settle (s : State) : State :=
  if !serving s || (s.conf.steps.isEmpty && s.conf.refused.isEmpty && s.kst.marks.isEmpty) then s else settleFor 9 s

end Sys2Proof.Machine
end

