-- ==== Sys2Proof/Machine/Gauge.lean ====
section
/-!
DEFINITION. The Gauge controller (R504 to R513, R520): writing journal records, epochs, totals, and the end of a replay
session by time.
-/
namespace Sys2Proof.Machine

/-! ### The journal -/

/-- The CRC of a record passes. -/
def recordOk (b : Bytes) : Bool := leAt b 60 4 == crc32c (b.take 60)

/-- A record stands in the journal ring of some dies' MRAM (R509). -/
def putJournal (s : State) (ds : List Die) (n : Nat) (b : Bytes) : State :=
  onMram s ds (fun m => { m with journal := mput m.journal (n % 8388608) b })

/-- Dies on which the controller itself writes: the active die, or both where the warden writes before service (R506). -/
def journalDies (s : State) : List Die :=
  match activeDie s with
  | some d => [d]
  | none => [.d0, .d1]

/-- A JOURNAL mirror record has not been applied. -/
def journalSent (s : State) : Bool := s.sw.recs.any (fun r => match r.body with | .journal _ => true | _ => false)

/-- GAU events: bit 1 summary_written, bit 3 tamper_record. -/
def recordEvents (s : State) (e : JEvent) : State :=
  let s := if e.code = 0x0F01 then raise s (pgGau 0) 1 else s
  if e.severity = 3 then raise s (pgGau 0) 3 else s

/-- The record being written stands on every die required, and the next one is chosen (R506, R507). -/
def journalWriteDone (s : State) : State :=
  match s.gauge.writing with
  | none => s
  | some e =>
    if journalSent s then s
    else
      let n := s.gauge.nextRec
      let s := putJournal s (journalDies s) n (recordBytes e n)
      let s := { s with gauge := { s.gauge with writing := none, nextRec := n + 1, epochRecords := s.gauge.epochRecords + 1 } }
      journalKick (recordEvents s e)

def execJournalWriteDone (s : State) : Answer := endWith s (journalWriteDone s)

/-- The standby die applies a JOURNAL mirror record (R428). -/
def journalRecordApply (s : State) : State :=
  match mirrorNext s, standbyDie s with
  | some r, some d =>
    (match r.body with
     | .journal b => if r.arrived then mirrorDone (putJournal s [d] (leAt b 24 8) b) r.seq else s
     | _ => s)
  | _, _ => s

def execJournalRecordApply (s : State) : Answer := endWith s (journalRecordApply s)

/-- An event of a base-die block or of the active die is journalled. -/
def journalEvent (code severity source : Nat) (slice : Option Nat) (d : Bytes) (s : State) : State :=
  if code = 0 ∨ 3 < severity then s else journal s (jev code severity source (padTo 28 d) slice)

def execJournalEvent (code severity source : Nat) (slice : Option Nat) (detail : List Byte) (s : State) : Answer :=
  endWith s (journalEvent code severity source slice detail s)

/-- The events held in the controller's own buffer are handed on (R506). -/
def releaseBuffer (s : State) : State :=
  let b := s.gauge.buf
  let s := { s with gauge := { s.gauge with buf := {} } }
  let items := b.staged ++ (match b.cont with | some c => [c] | none => [])
  let s := items.foldl (fun s e =>
    let (q, w) := stageEvent s.gauge.q s.gauge.writing (poolTight s) { e with cell := (freeCells s 1).head? }
    oweFlag { s with gauge := { s.gauge with q := q } } w e) s
  let s := match b.summary with
    | none => s
    | some m => { s with gauge := { s.gauge with q := { s.gauge.q with summary := some (match s.gauge.q.summary with
        | none => m
        | some x => ⟨x.count + m.count, min x.firstNt m.firstNt, max x.lastNt m.lastNt, x.classes ||| m.classes, max x.severity m.severity⟩) } } }
  journalKick s

/-! ### Epochs and totals (R512, R513, R548) -/

/-- The controller runs and writes records. -/
def gaugeRuns (s : State) : Bool := (activeDie s).isSome && !s.lev.halted

/-- The epoch record (Table 3). -/
def epochRecord (s : State) : JEvent :=
  let g := s.gauge
  { code := 0x0F02, severity := 0, source := 6, nt := s.nt.ns, seqAt := (dieOf s (curDie s)).applied
    detail := leBytes 8 g.epochStart ++ leBytes 8 g.epochCommits ++ leBytes 4 g.epochRecords ++ tempBytes g.epochHi ++
      tempBytes g.epochLo ++ leBytes 2 g.epochVinLo ++ leBytes 2 g.epochVinHi }

/-- Months of life left (R548). -/
def lifeMonths (tat : List Nat) : Nat :=
  let f := fun i => tat.getD i 0
  let w := f 0 + f 1 + f 2 + f 3 + 2 * f 4 + 4 * f 5 + 8 * f 6
  (219150 * 3600 - w) * 2 / (1461 * 3600)

/-- An epoch closes: the banks change places, the epoch record and a carry pair are written, the estimate of life left is
updated, and a notification is written (R512, R516, R548). -/
def closeEpoch (s : State) : State :=
  let g := s.gauge
  let recs := [epochRecord s, carryA s, carryB s]
  let s := { s with gauge := { g with
    closed := g.cur, closedStart := g.curStart, cur := [], curStart := s.nt.ns, own := g.own ++ recs, epochStart := s.nt.ns, epochFrom := s.nt.ns
    epochCommits := 0, epochRecords := 0, epochHi := s.supply.temp, epochLo := s.supply.temp, epochVinLo := 0, epochVinHi := 0
    lifeLeft := lifeMonths g.tat } }
  let s := raise s (pgGau 0) 2
  journalKick (notify s 7 0 0 0 0 0)

/-- NT of the next close: the next multiple of epoch_s seconds after the last close, or after epoch_s was written. -/
def epochEnd (s : State) : Nat := (s.gauge.epochFrom / (s.gauge.epochS * 1000000000) + 1) * (s.gauge.epochS * 1000000000)

def epochClose (s : State) : State := if gaugeRuns s then closeEpoch (reach s (epochEnd s)) else s

def execEpochClose (s : State) : Answer := endWith s (epochClose s)

/-- Bin of a junction temperature in 1/16 °C. -/
def tatBin (t : Int) : Nat :=
  if t < 80 * 16 then 0 else if t < 85 * 16 then 1 else if t < 90 * 16 then 2 else if t < 95 * 16 then 3
  else if t < 100 * 16 then 4 else if t < 105 * 16 then 5 else 6

/-- Lowest and highest of a reading, of which 0 stands for none taken. -/
def lowOf (a v : Nat) : Nat := if a = 0 then v else min a v

/-- A second of elapsed NT passes with VIN present: one bin gains a second, and the extremes take the readings. -/
def temperatureSecond (temp : Int) (vin vaux vbat : Nat) (s : State) : State :=
  if !s.supply.vin || !s.supply.vaux then s
  else
    let s := reach s (s.gauge.lastSecond + 1000000000)
    let g := s.gauge
    let first := g.tat.all (fun n => n == 0)
    let fresh := g.epochVinHi == 0
    let b := tatBin temp
    { s with
      supply := { s.supply with temp := temp, vbatMv := vbat, vauxMv := vaux, batteryLow := s.supply.batteryLow && decide (vbat < 2700) }
      gauge := { g with
        lastSecond := s.nt.ns, tat := g.tat.set b (min (g.tat.getD b 0 + 1) 0xFFFFFFFF)
        loTemp := if first then temp else min g.loTemp temp, hiTemp := if first then temp else max g.hiTemp temp
        loVin := lowOf g.loVin vin, hiVin := max g.hiVin vin, loVaux := lowOf g.loVaux vaux, hiVaux := max g.hiVaux vaux
        loVbat := lowOf g.loVbat vbat
        epochLo := if fresh then temp else min g.epochLo temp, epochHi := if fresh then temp else max g.epochHi temp
        epochVinLo := lowOf g.epochVinLo vin, epochVinHi := max g.epochVinHi vin } }

def execTemperatureSecond (temp : Int) (vinMv vauxMv vbatMv : Nat) (s : State) : Answer :=
  endWith s (temperatureSecond temp vinMv vauxMv vbatMv s)

/-- 3,600 s of elapsed NT after it opened, a replay session ends (R520). -/
def replaySessionEnd (s : State) : State :=
  if s.gauge.replay.state = 1 ∧ serving s = true then endReplay (reach s s.gauge.replay.ends) else s

def execReplaySessionEnd (s : State) : Answer := endWith s (replaySessionEnd s)

/-! ### Totals at a start (R513) -/

/-- The newest intact record of a code in a journal: the one with the highest record number. -/
def newestOf (m : Mram) (code : Nat) : Option Bytes :=
  (m.journal.map (·.2)).foldl (fun a b =>
    if leAt b 0 2 = code ∧ recordOk b = true then
      (match a with
       | some x => if leAt x 24 8 < leAt b 24 8 then some b else a
       | none => some b)
    else a) none

def temp16 (b : Bytes) (at_ : Nat) : Int := (BitVec.ofNat 16 (leAt b at_ 2)).toInt

/-- The totals resume from the newest carry pair. -/
def resumeTotals (s : State) : State :=
  let m := mramOf s (curDie s)
  let s := match newestOf m 0x0F03 with
    | some b => { s with gauge := { s.gauge with tat := (List.range 7).map (fun i => leAt b (32 + 4 * i) 4) } }
    | none => { s with gauge := { s.gauge with tat := [0, 0, 0, 0, 0, 0, 0] } }
  match newestOf m 0x0F04 with
  | some b => { s with gauge := { s.gauge with
      loTemp := temp16 b 32, hiTemp := temp16 b 34, loVin := leAt b 36 2, hiVin := leAt b 38 2, loVaux := leAt b 40 2
      hiVaux := leAt b 42 2, loVbat := leAt b 44 2 } }
  | none => { s with gauge := { s.gauge with loTemp := 0, hiTemp := 0, loVin := 0, hiVin := 0, loVaux := 0, hiVaux := 0, loVbat := 0 } }

end Sys2Proof.Machine
end

