-- ==== Sys2Proof/Machine/Health.lean ====
section
/-!
DEFINITION. Units, spares and the health report (R343, R373, R435, R447 to R449), and Levee's integrity window, in which other
blocks count their events (R450, R454).
-/
namespace Sys2Proof.Machine

/-! ### Confirmed occurrences of hazards (R454, R455) -/

/-- Occurrences of a hazard that its window holds after one at `nt`: those less than w before the newest, at most n. -/
def windowAdd (l : List Nat) (nt w n : Nat) : List Nat := ((nt :: l).filter (fun t => decide (nt - t < w * 1000))).take n

/-- A response is due. -/
def addDue (s : State) (h count tier : Nat) : State := { s with lev := { s.lev with due := s.lev.due ++ [(h, (count, tier))] } }

/-- A confirmed occurrence of a hazard: a counted one enters its window and is due when n of them stand there, an immediate
one is due at once. After a response the window is empty. -/
def occur (s : State) (h : Nat) (tier : Nat) : State :=
  let (_, n, w) := hazCfg s h
  if hazCounted h then
    let l := windowAdd (sget (fun _ => []) s.lev.windows h) s.nt.ns w n
    if n ≤ l.length then addDue { s with lev := { s.lev with windows := sset (fun _ => []) s.lev.windows h [] } } h n tier
    else { s with lev := { s.lev with windows := sset (fun _ => []) s.lev.windows h l } }
  else addDue s h 1 tier

/-- One event of the integrity window, hazard 0x0E. -/
def integrityEvent (s : State) : State := occur s 0x0E (hazCfg s 0x0E).1

/-! ### The health report (R449) -/

/-- Units of a kind that serve while no spare is missing. -/
def unitNominal (kind : Nat) : Nat :=
  match kind with
  | 1 => 256 | 2 => 24 | 3 => 4 | _ => 16

/-- Four misses in a row of path P in an arbiter half. -/
def pathFaulty (s : State) (d : Die) : Bool := decide (4 ≤ (timerOf s 0 d).missP) || decide (4 ≤ (timerOf s 1 d).missP)

/-- A noise source of a die is FATAL. -/
def sourceFatal (s : State) (d : Die) : Bool := (rngOf s d).lns.mode == .fatal || (rngOf s d).jns.mode == .fatal

/-- HLT_ALARM of a die (Table 13 of the switchover chapter). -/
def alarmBits (s : State) (d : Die) : Nat :=
  let x := dieOf s d
  let lost := fun k => sparesLeft x k == 0 && decide (unitsUp x k < unitNominal k)
  let b := fun (i : Nat) (c : Bool) => if c then 2 ^ i else 0
  b 0 (pathFaulty s d) + b 1 (!s.sw.half0Up) + b 2 (!s.sw.half1Up) + b 3 (sourceFatal s d) + b 4 (!duplex s) + b 5 s.sw.hold +
    b 6 (lost 1 || lost 2 || lost 3) + b 7 (x.failed.any (fun e => e.1 == 4)) + b 8 x.failedNow

def healthNow (s : State) (d : Die) : Health :=
  let x := dieOf s d
  if x.declaredFatal.isSome then .fatal else if alarmBits s d ≠ 0 then .alarm else if advisoryBits s d ≠ 0 then .advisory else .good

/-- The arbiter's copy of a die's report. -/
def copyReport (s : State) (d : Die) (h : Health) : State :=
  let n := sparesLeft (dieOf s d) 1
  match d with
  | .d0 => { s with sw := { s.sw with health0 := h, coresLeft0 := n } }
  | .d1 => { s with sw := { s.sw with health1 := h, coresLeft1 := n } }

/-- A die's report after an event: its alarms, its state, the arbiter's copy, the events and the notification. -/
def refreshDie (before : State) (s : State) (d : Die) : State :=
  let x := dieOf s d
  if !x.inService then s
  else
    let h := healthNow s d
    let s := setDie s d { x with alarms := alarmBits s d, health := h }
    let s := copyReport s d h
    let s := if (advisoryBits s d) &&& ((advisoryBits before d) ^^^ 63) ≠ 0 then raise s (pgHlt d) 4 else s
    if h = x.health then s else notify (raise s (pgHlt d) 1) 1 (dieNo d) 0 0 (healthCode x.health) (healthCode h)

/-- Both reports after an event. -/
def refreshHealth (before : State) (s : State) : State := refreshDie before (refreshDie before s .d0) .d1

/-! ### Units that fail (R345, R363, R373, R435, R448) -/

/-- Steps that a core of the active die holds and whose commit record has not been sent are re-executed. -/
def coreLost (s : State) (c : Nat) : State :=
  let x := coreOf s c
  let ks := x.exec.toList ++ x.pre.toList ++ (x.eddy.filter (fun e => e.mode != .free)).map (·.step)
  let s := ks.foldl loseStep s
  setRules (clearLane (setCore s c {}) c) c {}

/-- The operand memory of a BNL engine is scrubbed (R272). -/
def scrubEngine (s : State) (d : Die) (i : Nat) : State :=
  let s := bump s (pgBnl d i + 0x108) 32 32 1
  if curDie s = d then setEngine s i { engineOf s i with scrubbed := true } else s

/-- The engine leaves service scrubbed; the step of its job is re-executed. -/
def engineLost (s : State) (d : Die) (i : Nat) : State :=
  if curDie s = d then
    let s := match (engineOf s i).job with
      | some k => loseStep s k
      | none => s
    setEngine (if (engineOf s i).scrubbed then s else scrubEngine s d i) i {}
  else scrubEngine s d i

/-- The passes of a pipeline that has left service start again on others, and its seal or open job goes to another (R448). -/
def pipeLost (s : State) (i : Nat) (held : List Nat) (job : Option FrameJob) : State :=
  let s := placePasses s held
  match job with
  | some j => startJobs 6 { s with conf := { s.conf with sealReady := j :: s.conf.sealReady } }
  | none => s

/-- The services of a retired digest engine move (R373). -/
def moveServices (d : DieState) (e : Nat) : DieState :=
  let free := (List.range 16).find? (fun i => !d.services.contains i && !d.failed.contains (4, i))
  { d with services := d.services.map (fun i => if i = e then free.getD i else i) }

/-- A unit leaves service: what it was doing ends or goes elsewhere. -/
def unitWork (s : State) (d : Die) (kind inst : Nat) : State :=
  let out := fun (s : State) => setDie s d { dieOf s d with failed := (dieOf s d).failed ++ [(kind, inst)] }
  if curDie s ≠ d then out (if kind = 2 then engineLost s d inst else s)
  else match kind with
    | 1 => out (coreLost s inst)
    | 2 => out (engineLost s d inst)
    | 3 =>
      let x := pipeOf s inst
      pipeLost (out (setPipe s inst {})) inst (x.running.toList ++ x.suspended) (x.sealing.map (·.1))
    | _ => out s

/-- A unit has failed: last failure, alarm, event, notification and journal record. -/
def noteFailure (s : State) (d : Die) (kind inst : Nat) : State :=
  let x := dieOf s d
  let s := setDie s d { x with lastFailKind := kind, lastFailInst := inst, lastFailNt := s.nt.ns, failedNow := true }
  let s := notify (raise s (pgHlt d) 2) 2 (dieNo d) kind inst 0 0
  journal s (jev 0x0604 2 (dieSource d) (detail 0 inst 0 0 kind))

/-- More units of a kind are lost than spares are left. The loss of a core lowers its die's capacity, which is told (R343). The
active die declares itself fatal where the standby die would serve with more units of the kind (R435). -/
def noSpare (s : State) (d : Die) (kind : Nat) : State :=
  if unitNominal kind ≤ unitsUp (dieOf s d) kind + sparesLeft (dieOf s d) kind then s
  else
    let s := if kind = 1 then notify (raise s (pgCfl d 0) 1) 4 (dieNo d) kind 0 0 0 else s
    let x := dieOf s d
    match activeDie s, standbyDie s with
    | some a, some o =>
      if a = d ∧ unitsUp x kind < unitsUp (dieOf s o) kind ∧ x.declaredFatal = none then setDie s d { x with declaredFatal := some 4 } else s
    | _, _ => s

/-- One unit leaves service. -/
def unitOut (s : State) (d : Die) (kind inst : Nat) : State :=
  let x := dieOf s d
  if x.failed.contains (kind, inst) then s
  else if x.spares.contains (kind, inst) then
    noSpare (noteFailure (setDie s d { x with spares := x.spares.erase (kind, inst), failed := x.failed ++ [(kind, inst)] }) d kind inst) d kind
  else
    noSpare (noteFailure (unitWork s d kind inst) d kind inst) d kind

/-- A unit fails (R448). A BNL or digest engine raises retired, and a digest engine takes the cores that it serves out of
service (R270, R373). -/
def unitFail (s : State) (d : Die) (kind inst : Nat) : State :=
  if unitCount kind ≤ inst ∨ (dieOf s d).failed.contains (kind, inst) = true then s
  else
    let before := s
    let s := unitOut s d kind inst
    let s := match kind with
      | 2 => raise s (pgBnl d inst) 2
      | 4 =>
        let s := raise s (pgDge d inst) 2
        let s := setDie s d (moveServices (dieOf s d) inst)
        (List.range 18).foldl (fun s j => unitOut s d 1 (18 * inst + j)) s
      | _ => s
    refreshHealth before s

/-- A spare takes the place of a failed unit (R448, Table 7). -/
def substitute (s : State) (d : Die) (kind : Nat) : State :=
  let x := dieOf s d
  match x.spares.find? (fun e => e.1 == kind) with
  | none => s
  | some sp =>
    if unitNominal kind ≤ unitsUp x kind then s
    else
      let before := s
      let s := setDie s d { x with spares := x.spares.erase sp }
      let s := notify (raise s (pgHlt d) 3) 3 (dieNo d) kind sp.2 0 0
      let s := journal s (jev 0x0605 1 (dieSource d) (detail 0 sp.2 0 0 kind))
      refreshHealth before (settle s)

/-- A sector of a die's MRAM goes to the lowest-numbered spare sector that takes none (R22, R23); its contents go with it. -/
def mapSector (s : State) (d : Die) (sector : Nat) : State :=
  let m := mramOf s d
  match firstKey (fun i => m.sectors.all (fun e => e.2 != i)) 0 32768 with
  | some i => setMram s d { m with sectors := mput m.sectors sector i }
  | none => s

/-- A failed MRAM sector is replaced at its next write (Table 7). -/
def replaceSector (s : State) (d : Die) : State :=
  let x := dieOf s d
  match x.failed.find? (fun e => e.1 == 6) with
  | none => s
  | some f =>
    if 32768 ≤ sectorsUsed s d then s
    else
      let before := s
      let s := mapSector (setDie s d { x with failed := x.failed.erase f }) d f.2
      let s := notify (raise s (pgHlt d) 3) 3 (dieNo d) 6 f.2 0 0
      refreshHealth before (journal s (jev 0x0605 1 (dieSource d) (detail 0 f.2 0 0 6)))

/-! ### The rows -/

/-- A unit fails in service: a core, a BNL engine, a pipeline, a digest engine, or an MRAM sector (kind 6), which is numbered by
its offset in the die's MRAM. -/
def unitFailed (d : Die) (kind inst : Nat) (s : State) : State :=
  if !(dieOf s d).inService then s
  else if kind = 6 then
    (if mayReplace inst = true ∧ (dieOf s d).failed.contains (6, inst) = false then
      let before := s
      refreshHealth before (noteFailure (setDie s d { dieOf s d with failed := (dieOf s d).failed ++ [(6, inst)] }) d 6 inst)
     else s)
  else if 1 ≤ kind ∧ kind ≤ 4 then settle (unitFail s d kind inst) else s

def execUnitFailed (die : Die) (kind inst : Nat) (s : State) : Answer := endWith s (unitFailed die kind inst s)

def spareSubstituted (d : Die) (kind : Nat) (s : State) : State :=
  if !(dieOf s d).inService then s
  else if kind = 6 then replaceSector s d
  else if 1 ≤ kind ∧ kind ≤ 3 then substitute s d kind else s

def execSpareSubstituted (die : Die) (kind : Nat) (s : State) : Answer := endWith s (spareSubstituted die kind s)

/-- A failure or substitution of an SRAM row is told: the two numbers do not fit the 16-bit instance field, whose value is
free. -/
def rowNews (s : State) (d : Die) (event code : Nat) : Nat × State :=
  let (v, s) := drawFree s
  (v % 65536, notify (raise s (pgHlt d) event) code (dieNo d) 5 (v % 65536) 0 0)

/-- A row is marked for replacement (R401). -/
def markRow (s : State) (d : Die) (bank row : Nat) : State :=
  let b := bankOf s d bank
  if b.marked.contains row || (mget b.rowMap row).isSome then s
  else
    let s := setBank s d bank { b with marked := b.marked.filter (fun x => decide (x < row)) ++ [row] ++ b.marked.filter (fun x => decide (row < x)) }
    let (v, s) := rowNews s d 2 2
    setDie s d { dieOf s d with lastFailKind := 5, lastFailInst := v, lastFailNt := s.nt.ns }

/-- The conditioner or the DRBG block of the standby die fails its known answers: it leaves service, and the die holds no seed until
its next start (log entry 46). -/
def randomOut (s : State) (d : Die) : State :=
  let s := noteFailure (setDie s d { dieOf s d with failed := (dieOf s d).failed ++ [(7, 2)] }) d 7 2
  setRng s d { rngOf s d with seeds := [], bits := [] }

/-- A unit may be tested now (R447): on the standby die every unit, on the active die its spares, its digest engines, and
the units of a kind that has a spare left. Kinds 1 to 4 are those of HLT_LAST_FAIL. Kind 5 is a bank of the SRAM with the row that
the march ends on (`bank + 64 × row`), and kind 7 with instance 2 the conditioner and the DRBG block; both are tested on the standby
die only. -/
def mayTest (s : State) (d : Die) (kind inst : Nat) : Bool :=
  let x := dieOf s d
  !x.failed.contains (kind, inst) && s.sw.gap.isNone &&
    (match kind with
     | 5 => standbyDie s == some d && decide (inst < 64 * 8192)
     | 7 => standbyDie s == some d && inst == 2
     | _ =>
       decide (1 ≤ kind) && decide (kind ≤ 4) && decide (inst < unitCount kind) &&
         (standbyDie s == some d || (activeDie s == some d && (kind == 4 || x.spares.contains (kind, inst) || sparesLeft x kind != 0) &&
           !(kind == 2 && (engineOf s inst).job.isSome))))

/-- What a failed self-test brings. -/
def testFailed (s : State) (d : Die) (kind inst : Nat) : State :=
  let s := bump s (pgHlt d + 0x130) 32 32 1
  match kind with
  | 4 => unitFail (raise (bump s (pgDge d inst + 0x110) 0 16 1) (pgDge d inst) 1) d 4 inst
  | 5 => markRow s d (inst % 64) (inst / 64)
  | 7 => randomOut s d
  | _ => unitFail s d kind inst

/-- A self-test ends. A BNL engine's operand memory is scrubbed before it (R272). After the last test of a cycle, the next
cycle begins 60 s of NT after the start of this one. -/
def unitSelftest (d : Die) (kind inst : Nat) (pass last : Bool) (s : State) : State :=
  if !mayTest s d kind inst then s
  else
    let before := s
    let s := if kind = 2 then scrubEngine s d inst else s
    let s := setDie s d { dieOf s d with selftestOn := true }
    let s := bump s (pgHlt d + 0x130) 0 32 1
    let s := if pass then s else testFailed s d kind inst
    let s := if last then
        let x := dieOf s d
        let s := reach s (x.cycleNt + 60000000000)
        setDie s d { x with testCycles := x.testCycles + 1, cycleNt := s.nt.ns, failedNow := false }
      else s
    settle (refreshHealth before s)

def execUnitSelftest (die : Die) (kind inst : Nat) (pass last : Bool) (s : State) : Answer :=
  endWith s (unitSelftest die kind inst pass last s)

end Sys2Proof.Machine
end

