-- ==== Sys2Proof/Machine/Fall.lean ====
section
/-!
DEFINITION. The end of service (R27, R32): what the compute dies lose when no die serves any longer.
-/
namespace Sys2Proof.Machine

/-- A die that has left service. -/
def dieDown (d : DieState) : DieState :=
  { d with inService := false, joining := false, yielding := false, selftestOn := false }

/-- A slice whose requests are gone. -/
def sliceDown (sl : Slice) : Slice :=
  { sl with contexts := 0, cells := 0, deficit := 0, nextPair := 0, waitRings := 0, waitCtx := false, waitCells := false
            waitReserve := false, waitRate := false, claim := none }

/-- A journal record in progress stands on the MRAM dies before the state of the controller's queue is lost (R461, R534). -/
def finishRecord (s : State) : State :=
  match s.gauge.writing with
  | none => s
  | some e =>
    let n := s.gauge.nextRec
    let s := putJournal s (match standbyDie s with | some _ => [.d0, .d1] | none => journalDies s) n (recordBytes e n)
    { s with gauge := { s.gauge with writing := none, nextRec := n + 1, epochRecords := s.gauge.epochRecords + 1 } }

/-- Contexts, Pool contents, Eddy entries, the key cache, session keys and shared SRAM are lost. What is committed stands, and
key transactions in progress wait for the next start under their progress marks (R27, R260). -/
def loseDies (s : State) : State :=
  let s := finishRecord s
  { s with
    die0 := { dieDown s.die0 with digests := [] }, die1 := { dieDown s.die1 with digests := [] }
    slices := mmap (fun _ sl => sliceDown sl) s.slices, rings := []
    conf := { commitSeq := s.conf.commitSeq, admitCount := s.conf.admitCount }
    sram0 := [], sram1 := [], cores := [], engines := [], pipes := [], lanes := [], passes := [], streams := [], streamSeq := [], btc := [], btcClock := 0
    drbg := [], rules := [], measOwner := [], rng0 := {}, rng1 := {}
    kst := { marks := s.kst.marks }
    gauge := { s.gauge with q := {}, own := [] }
    sw := { s.sw with token := none, aliasHeld := [], held := s.sw.token.getD s.sw.held, recs := [], gap := none, planned := false, timers := []
                      creditWithdrawn := false }
    portA := { s.portA with flrWait := [] }, portB := { s.portB with flrWait := [] } }

/-- A held alias access that meets no die in service (R50, R51). -/
def aliasDead (s : State) (e : HeldAccess) : State :=
  let s := captureAt s pgBas e.who 0x0006 e.acc.addr
  if e.acc.write then s else answer s e.who 0

/-- Service ends (R27): SWO raises mode_changed where a die was in service. Alias accesses held in a gap meet no die. -/
def endService (s : State) : State :=
  let held := s.sw.aliasHeld
  let s := if (activeDie s).isSome then raise (loseDies s) pgSwo 4 else loseDies s
  held.foldl aliasDead s

end Sys2Proof.Machine
end

