-- ==== Sys2Proof/Machine/Levee.lean ====
section
/-!
DEFINITION. Levee (R450 to R467): detector pairs, confirmation, windows, the response tiers, the throttle, the configuration
and the always-on flags.
-/
namespace Sys2Proof.Machine

/-! ### Hazards and their detectors (R450) -/

/-- The pair that senses a hazard; none for the integrity window. -/
def hazPair (h : Nat) : Option Nat :=
  match h with
  | 0x01 => some 0
  | 0x02 => some 1
  | 0x03 => some 2
  | 0x04 => some 3
  | 0x05 => some 4
  | 0x06 => some 5
  | 0x07 | 0x08 | 0x09 => some 6
  | 0x0A | 0x10 => some 7
  | 0x0B | 0x0C => some 8
  | 0x0D => some 9
  | 0x0F => some 10
  | _ => none

/-- The hazard that is confirmed when both detectors of a pair fail (log entry 28). -/
def pairHazard (p : Nat) : Nat :=
  match p with
  | 0 => 0x01 | 1 => 0x02 | 2 => 0x03 | 3 => 0x04 | 4 => 0x05 | 5 => 0x06 | 6 => 0x08 | 7 => 0x0A | 8 => 0x0C | 9 => 0x0D | _ => 0x0F

def setPair (s : State) (p : Nat) (x : DetPair) : State := { s with lev := { s.lev with pairs := sset (fun _ => {}) s.lev.pairs p x } }

/-- Only the battery domain senses (R457). -/
def onBattery (s : State) : Bool := !s.supply.alwaysOn

/-- Hazards sensed on battery, and those sensed only there. -/
def batteryHazard (h : Nat) : Bool := (decide (1 ≤ h) && decide (h ≤ 6)) || h == 0x0F || h == 0x10

/-- The hazard is sensed now: the domain that senses it has power, and no mask covers it (R450, R456, R457). -/
def sensed (s : State) (h : Nat) (site : Site) : Bool :=
  (hazPair h).isSome && (if onBattery s then batteryHazard h && !s.vault.keptBad else h != 0x0F && h != 0x10) &&
    !(s.lev.masked && decide (7 ≤ h) && decide (h ≤ 0x0C) && site != .alwaysOn && !(h == 0x0A && site == .base))

/-- Confirmation time of a pair in ns. -/
def confirmNs (p : Nat) : Nat := if p = 0 then 1000 else 2000

/-- The levels that LEV_INPUTS shows. -/
def putInputs (s : State) (h : Nat) (on : Bool) (nets : Nat) : State :=
  let x := s.supply
  if h = 0x01 then { s with supply := { x with meshFault := if on then (List.range 8).filter (fun i => nets.testBit i) else [] } }
  else if 2 ≤ h ∧ h ≤ 5 then
    { s with supply := { x with encOpen := x.encOpen.filter (fun i => i != h - 2) ++ (if on then [h - 2] else []) } }
  else if h = 0x06 then { s with supply := { x with zeroiseLow := on } }
  else s

/-- Clocks of a compute die stop at a confirmed clock fault (R455). -/
def stopClocks (s : State) (site : Site) : State :=
  match site with
  | .die0 => { s with die0 := { s.die0 with stopped := true } }
  | .die1 => { s with die1 := { s.die1 with stopped := true } }
  | _ => s

/-- A hazard is confirmed (R451, R455 to R457). -/
def confirmHazard (s : State) (h : Nat) (site : Site) : State :=
  let p := (hazPair h).getD 0
  let s := bump s (pgLev 2 + 0x100 + 8 * p) 32 16 1
  let s := setPair s p { pairOf s p with aloneNt := none, noted := false }
  let s := if hazCounted h ∨ s.lev.present.contains h = true then s else { s with lev := { s.lev with present := s.lev.present ++ [h] } }
  if onBattery s then addDue s h 1 3
  else if h = 0x09 ∧ site ≠ .alwaysOn then { s with lev := { s.lev with brownDue := true } }
  else if h = 0x0C then occur (stopClocks s site) h (if site = .base ∨ site = .alwaysOn then 3 else (hazCfg s h).1)
  else occur s h (hazCfg s h).1

/-- Both detectors report, or the sound detector of a degraded pair does. On battery a report is a sample of detector A, and two
consecutive failing samples confirm; the battery comparators need both (R451, R452, R457). `x` is the pair before the report. -/
def confirms (s : State) (h : Nat) (x : DetPair) (a b : Bool) : Bool :=
  if onBattery s then (if h = 0x0F then a && b else a && x.aNow)
  else (a && b) || (a && !x.aFailed && x.bFailed) || (b && !x.bFailed && x.aFailed)

/-- The detectors of a hazard's pair report, or cease to. -/
def hazardReport (h : Nat) (site : Site) (a b : Bool) (nets : Nat) (s : State) : State :=
  match hazPair h with
  | none => s
  | some p =>
    if !sensed s h site then s
    else
      let x := pairOf s p
      let s := putInputs (setPair s p { x with aNow := a, bNow := b }) h (a || b) nets
      if !a && !b then
        let s := setPair s p { pairOf s p with aloneNt := none, noted := false }
        if x.aFailed && x.bFailed then s else { s with lev := { s.lev with present := s.lev.present.filter (fun y => y != h) } }
      else if confirms s h x a b then confirmHazard s h site
      else if onBattery s then s
      else setPair s p { pairOf s p with aloneNt := some (x.aloneNt.getD s.nt.ns) }

def execHazardReport (hazard : Nat) (site : Site) (a b : Bool) (nets : Nat) (s : State) : Answer :=
  endWith s (hazardReport hazard site a b nets s)

/-- A lone report has no partner within the confirmation time: a detector fault (R451). -/
def detectorFault (p : Nat) (s : State) : State :=
  let x := pairOf s p
  match x.aloneNt with
  | none => s
  | some t =>
    if x.noted then s
    else
      let s := reach s (t + confirmNs p)
      let s := setPair s p { x with noted := true }
      let s := raise (bump s (pgLev 2 + 0x100 + 8 * p) 16 16 1) (pgLev 2) 1
      journal s (jev 0x0111 2 5 (detail 0 p 0 0 p))

def execDetectorFault (pair : Nat) (s : State) : Answer := endWith s (detectorFault pair s)

/-- A lone report has lasted 1 ms: the silent detector is marked failed, and the occurrence is confirmed (R452). -/
def pairDegraded (h : Nat) (site : Site) (s : State) : State :=
  match hazPair h with
  | none => s
  | some p =>
    match (pairOf s p).aloneNt with
    | none => s
    | some t =>
      if !sensed s h site then s
      else
        let s := detectorFault p s
        let s := reach s (t + 1000000)
        let x := pairOf s p
        let s := setPair s p { x with degraded := true, aFailed := x.aFailed || !x.aNow, bFailed := x.bFailed || !x.bNow }
        confirmHazard (raise s (pgLev 2) 2) h site

def execPairDegraded (hazard : Nat) (site : Site) (s : State) : Answer := endWith s (pairDegraded hazard site s)

/-- The self-test of one pair ends. -/
def testPair (failed : List (Nat × Bool)) (s : State) (p : Nat) : State :=
  let x := pairOf s p
  let fa := failed.contains (p, false)
  let fb := failed.contains (p, true)
  if !fa && !fb then s
  else
    let s := setPair s p { x with aFailed := x.aFailed || fa, bFailed := x.bFailed || fb, degraded := true }
    let s := raise s (pgLev 2) 3
    let s := if x.degraded then s else raise s (pgLev 2) 2
    let y := pairOf s p
    if y.aFailed && y.bFailed && !(x.aFailed && x.bFailed) then confirmHazard s (pairHazard p) .alwaysOn else s

/-- The self-test of a start: a pair that it finds sound is no longer degraded, and the hazard of one that had no sound detector is no
longer present (R452). -/
def startPair (failed : List (Nat × Bool)) (s : State) (p : Nat) : State :=
  let x := pairOf s p
  if failed.contains (p, false) || failed.contains (p, true) then testPair failed s p
  else
    let s := setPair s p { x with aFailed := false, bFailed := false, degraded := false }
    if x.aFailed && x.bFailed && !x.aNow && !x.bNow then
      { s with lev := { s.lev with present := s.lev.present.filter (fun y => y != pairHazard p) } }
    else s

/-- Every 60 s of NT each detector is tested (R453). `failed` names the detectors that fail: pair, and whether it is B. -/
def detectorSelftest (failed : List (Nat × Bool)) (s : State) : State :=
  if onBattery s then s
  else
    let s := reach s (s.lev.lastTest + 60000000000)
    (List.range 11).foldl (testPair failed) { s with lev := { s.lev with lastTest := s.nt.ns } }

def execDetectorSelftest (failed : List (Nat × Bool)) (s : State) : Answer := endWith s (detectorSelftest failed s)

/-! ### Response tiers (R458 to R463) -/

/-- Severity of a response's journal record (Table 2 of the Gauge chapter). -/
def tierSeverity (tier : Nat) : Nat := if tier = 0 then 1 else if tier = 1 then 2 else 3

/-- A response is journalled. Without VIN the controller does not run, and its always-on flag keeps it (R506, R467). -/
def responseRecord (tier : Nat) (s : State) (d : Nat × (Nat × Nat)) : State :=
  if s.supply.vin then
    journal s (jev (0x0100 + d.1) (tierSeverity tier) 5 (detail 0 ((hazPair d.1).getD 0xFFFF) 0 0 d.2.1))
  else s

/-- Entries of a core that a Levee clear empties are counted. -/
def countClears (s : State) : State :=
  s.cores.foldl (fun s e =>
    let n := (e.2.eddy.filter (fun x => x.mode != .free && x.mode != .commit)).length
    if n = 0 then s else raise (bump s (pgEdy (curDie s) e.1 + 0x190) 32 16 n) (pgEdy (curDie s) e.1) 2) s

/-- Every running or suspended data pass ends and starts again from its first byte (R460). -/
def passesAgain (s : State) : State :=
  let ks := (s.pipes.map (fun e => e.2.running.toList ++ e.2.suspended)).flatten
  placePasses { s with pipes := mmap (fun _ p => { p with running := none, suspended := [] }) s.pipes } ks

/-- A tier-2 clear (R460): every activated step without a commit sequence number is re-executed, and keys, schedules and
operands are zeroised. A step of a slice in a squash ends instead. -/
def clearTwo (s : State) : State :=
  if (activeDie s).isNone then s
  else
    let s := countClears s
    let ks := stepsWhere s (fun _ t => isActive t && t.seq.isNone && !isCommitted t)
    let s := ks.foldl (fun s k => match stepOf s k with
      | some t => if (sliceOf s t.sliceNo).mode = .squashing then s else resetStep s k
      | none => s) s
    let s := { s with lanes := [], engines := mmap (fun _ e => { e with scrubbed := true }) s.engines, kst := { s.kst with cache := [] }
                      sram0 := s.sram0.filter (fun e => !isScratch e.1), sram1 := s.sram1.filter (fun e => !isScratch e.1) }
    settle (passesAgain s)

/-- The vault's secret region is zeroised (R462). -/
def zeroiseSecret (s : State) : State :=
  { s with vault := { s.vault with ownerRoot := none, analysisRoot := none, rosterCopy := {}, transferKey := [], instSeed := [] } }

/-- A tier-3 response (R461): service ends, the secret region and everything that holds keys are zeroised, and the module is
in tamper-halt. -/
def zeroiseThree (s : State) : State :=
  let s := zeroiseSecret (endService s)
  { s with lev := { s.lev with halted := true, zeroised := true, tier3Count := s.lev.tier3Count + 1 }
           card0 := { s.card0 with result := none }, card1 := { s.card1 with result := none } }

/-- Always-on flags of the hazards of a response are set (R467). -/
def setFlags (s : State) (hs : List Nat) : State :=
  { s with lev := { s.lev with flags := s.lev.flags ++ hs.filter (fun h => !s.lev.flags.contains h) } }

/-- Earlier tier-2 responses within 60 s. -/
def recentTwos (s : State) : List Nat := s.lev.tier2s.filter (fun t => decide (s.nt.ns - t < 60000000000))

/-- The highest tier due, and whether R463 raises it. -/
def responseTier (s : State) : Nat × Bool :=
  let t := (s.lev.due.map (·.2.2)).foldl max 0
  let e := s.vault.lev.escalate
  if t = 2 ∧ e ≠ 0 ∧ e ≤ (recentTwos s).length + 1 then (3, true) else (t, false)

/-- Actions of tier 1 and above: throttle, LEV_LAST, the counts and the event (R458, R459). -/
def respondOne (s : State) (tier : Nat) (esc : Bool) (d : Nat × (Nat × Nat)) : State :=
  let s := { s with lev := { s.lev with
    lastHazard := d.1, lastTier := tier, lastEscalated := esc, lastCount := d.2.1, lastNt := s.nt.ns
    throttleEnd := some (s.nt.ns + s.vault.lev.throttleMs * 1000000), tierNow := max s.lev.tierNow tier } }
  let s := if tier = 1 then bump s (pgLev 0 + 0x120) 0 16 1 else if tier = 2 then bump s (pgLev 0 + 0x120) 16 16 1 else s
  raise s (pgLev 0) 1

/-- The hazard of a response that is shown in LEV_LAST: the first of the highest tier. -/
def mainDue (l : List (Nat × (Nat × Nat))) : Nat × (Nat × Nat) :=
  let t := (l.map (·.2.2)).foldl max 0
  (l.find? (fun d => d.2.2 == t)).getD (0, 0, 0)

/-- The responses that are due act as one, at the highest tier among them (R463). In tamper-halt a hazard only sets its flag
and is journalled (R464). -/
def hazardResponse (s : State) : State :=
  match s.lev.due with
  | [] => s
  | due =>
    let (tier, esc) := responseTier s
    let before := s
    let s := { s with lev := { s.lev with due := [] } }
    let s := if 2 ≤ tier then raise (setFlags s (due.map (·.1))) (pgLev 0) 2 else s
    let s := if s.lev.halted then s
      else
        let s := if tier = 0 then s else respondOne s tier esc (mainDue due)
        if tier = 2 then clearTwo { s with lev := { s.lev with tier2s := s.nt.ns :: recentTwos before } }
        else if tier = 3 then zeroiseThree s else s
    due.foldl (responseRecord tier) s

def execHazardResponse (s : State) : Answer := endWith s (hazardResponse s)

/-- The throttle ends throttle_ms after the latest response (R459). -/
def throttleEnd (s : State) : State :=
  match s.lev.throttleEnd with
  | none => s
  | some t =>
    let s := reach s t
    raise { s with lev := { s.lev with throttleEnd := none, tierNow := if s.lev.halted then 3 else 0 } } (pgLev 0) 3

def execThrottleEnd (s : State) : Answer := endWith s (throttleEnd s)

/-! ### Flags and configuration (R466, R467) -/

/-- Events that have not reached the journal. -/
def unwritten (s : State) : List JEvent :=
  let of := fun (q : JQueue) => q.staged ++ q.cont.toList
  of s.gauge.q ++ of s.gauge.buf ++ s.gauge.own ++ s.gauge.writing.toList

/-- The warden clears a flag once the journal record of its response is held on the MRAM dies: 0x01 to 0x10 a hazard's flag,
0x11 the flag zeroised. A record that found no place is written from the flag first (R508). -/
def aoFlagClear (h : Nat) (s : State) : State :=
  if s.lev.halted || (activeDie s).isNone then s
  else if h = 0x11 then
    (if (unwritten s).any (fun e => e.severity == 3) then s else { s with lev := { s.lev with zeroised := false } })
  else if s.gauge.owedFlags.contains h then
    journal { s with gauge := { s.gauge with owedFlags := s.gauge.owedFlags.filter (fun x => x != h) } }
      (jev (0x0100 + h) 3 5 (detail 0 ((hazPair h).getD 0xFFFF) 0 0 0))
  else if (unwritten s).any (fun e => e.code == 0x0100 + h) then s
  else { s with lev := { s.lev with flags := s.lev.flags.filter (fun x => x != h) } }

def execAoFlagClear (hazard : Nat) (s : State) : Answer := endWith s (aoFlagClear hazard s)

/-- A value clamped to its bounds. -/
def clamp (lo hi v : Nat) : Nat := max lo (min hi v)

/-- LEV_CTL as a write leaves it. -/
def levCtlNew (c : LevConfig) (w : Word) : LevConfig :=
  let e := getF w 24 4
  { c with throttle := min 2 (getF w 0 2), throttleMs := clamp 10 60000 (getF w 8 16), escalate := if e = 0 then 0 else clamp 2 8 e }

/-- A write of LEV_CTL loosens a field. -/
def levCtlLoose (o n : LevConfig) : Bool :=
  decide (o.throttle < n.throttle) || decide (n.throttleMs < o.throttleMs) ||
    (o.escalate != 0 && (n.escalate == 0 || decide (o.escalate < n.escalate)))

/-- LEV_HAZ_h as a write leaves it. -/
def hazNew (s : State) (h : Nat) (w : Word) : Nat × Nat × Nat :=
  let (t0, n0, w0) := hazCfg s h
  let (lo, hi) := hazTiers h
  let t := getF w 0 2
  let tier := if h = 0x09 then t0 else if lo ≤ t ∧ t ≤ hi then t else lo
  if hazCounted h then (tier, clamp 1 64 (getF w 2 7), clamp 10 1000000 (getF w 16 20)) else (tier, n0, w0)

/-- A write of LEV_HAZ_h loosens a field. -/
def hazLoose (o n : Nat × Nat × Nat) : Bool :=
  decide (n.1 < o.1) || decide (o.2.1 < n.2.1) || decide (n.2.2 < o.2.2)

/-- A loosening write in OWNED is discarded, with cause 0x0101. -/
def loosening (s : State) (who : Party) (inst off : Nat) : State := captureAt s (pgLev inst) who 0x0101 (pgLev inst + off)

/-- The effect of a write to LEV_CTL or LEV_HAZ_h. -/
def levConfigure (who : Party) (inst off : Nat) (w : Word) (s : State) : State :=
  let c := s.vault.lev
  let owned := s.life.state == .owned
  if inst = 0 then
    let n := levCtlNew c w
    if owned && levCtlLoose c n then loosening s who inst off else { s with vault := { s.vault with lev := n } }
  else
    let h := (off - 0x100) / 8
    let n := hazNew s h w
    if owned && hazLoose (hazCfg s h) n then loosening s who inst off
    else { s with vault := { s.vault with lev := { c with haz := if n = hazDefault h then mdel c.haz h else mput c.haz h n } } }

/-- The registers of the Levee configuration. -/
def isLevConfig (inst off : Nat) : Bool := (inst == 0 && off == 0x128) || (inst == 1 && inArray off 0x108 16)

def leveeConfigWrite (who : Party) (inst off : Nat) (w : Word) (s : State) : State :=
  if isLevConfig inst off then gateWrite s who .lev (pgLev inst) off true (levConfigure who inst off w) else s

def execLeveeConfigWrite (who : Party) (inst off : Nat) (data : Word) (s : State) : Answer :=
  endWith s (leveeConfigWrite who inst off data s)

end Sys2Proof.Machine
end

