-- ==== Sys2Proof/Machine/Weir.lean ====
section
/-!
DEFINITION. Weir (R68 to R71, R75, R104, R114, R322 to R334): reading ring heads into fetch slots, parsing, refusing and
admitting chains, the rate and owed buckets, and the two service lists.
-/
namespace Sys2Proof.Machine

/-! ### Reading a ring head (R61, R62, R68, R70, R331) -/

/-- Entries of a ring. -/
def ringSize (r : Ring) : Nat := 2 ^ (r.sizeCode + 4)

/-- Distance from one ring position to another, modulo 2^32 (R67). -/
def ringDist (a b : BitVec 32) : Nat := (b - a).toNat

/-- Reads of a port carry Relaxed Ordering (R62). -/
def readsRo (s : State) (p : Port) : Bool := bitOf (rd s (pgPort p + 0x110)) 0 && (portOf s p).roEnable

/-- A slice runs: in bootstrap form only slice 0 does (R303). -/
def sliceRuns (s : State) (n : Nat) : Bool := (sliceOf s n).mode == .active && (n == 0 || !bootstrap s)

/-- Fetching and admission have stopped: a start waits, or a transition wipes (R472, R485). -/
def stopsFetching (s : State) : Bool :=
  s.starts.due.isSome || (match s.vault.lifeMark with | some m => m.phase == 1 | none => false)

/-- The pair fetches: it is running on a port whose link is up, in a slice that fetches, and no warm start waits (R65, R485). -/
def ringFetches (s : State) (n p : Nat) : Bool :=
  let r := ringOf s n p
  serving s && sliceRuns s n && !stopsFetching s && r.mode == .running && r.enable &&
    (match codePort r.portNow with | some x => portMoves s x | none => false)

/-- The completion ring has room for `k` more descriptors (R68). -/
def ringRoom (r : Ring) (k : Nat) : Bool := decide (ringDist r.cqHead r.sqHead + k ≤ ringSize r)

/-- Entries that the head spans, from its first descriptor (R70, R107). -/
def headSpan (d : Bytes) : Nat := if dIndex d = 0 then dLast d + 1 else 1

/-- The fetch slot holds the first descriptor of a chain whose further descriptors have not been read (R70, R331). -/
def restDue (f : FetchSlot) : Bool := !f.parsed && decide (f.descs.length < headSpan (f.descs.headD []))

/-- sq_tail covers `k` entries and the completion ring has room for them (R68, R70). -/
def covers (r : Ring) (k : Nat) : Bool := decide (k ≤ ringDist r.sqHead r.sqTail) && ringRoom r k

/-- A descriptor read may be made: the fetch slot is empty and a descriptor waits, or the rest of a chain may be read. -/
def mayFetch (s : State) (n p : Nat) : Bool :=
  let r := ringOf s n p
  ringFetches s n p &&
    (match r.fetch with
     | none => r.sqTail != r.sqHead && ringRoom r 1
     | some f => restDue f && covers r (headSpan (f.descs.headD [])))

/-- Host address of a ring's descriptor at `j` entries after sq_head. -/
def descAddr (r : Ring) (j : Nat) : Nat := r.sqBase.toNat + (r.sqHead.toNat + j) % ringSize r * 128

/-- A read of descriptors or data from host memory through a port, with the slice's PASID there (R61). -/
def readFrom (s : State) (n : Nat) (x : Port) (addr len : Nat) : State :=
  send s (.memRead x (pasidOn (sliceOf s n) x) addr len (readsRo s x))

/-- A read of a scatter list or of a buffer table, which never carries the attribute (R62, Table 2). -/
def readPlain (s : State) (n : Nat) (x : Port) (addr len : Nat) : State :=
  send s (.memRead x (pasidOn (sliceOf s n) x) addr len false)

/-- The read of `k` descriptors from the `j`-th of a ring on. -/
def readDescs (s : State) (n p j k : Nat) : State :=
  match codePort (ringOf s n p).portNow with
  | some x => (List.range k).foldl (fun s i => readFrom s n x (descAddr (ringOf s n p) (j + i)) 128) s
  | none => s

/-- The fetch slot of a pair takes descriptors. -/
def putFetch (s : State) (n p : Nat) (descs : List Bytes) : State :=
  let r := ringOf s n p
  setRing s n p { r with fetch := some { descs := descs.map (padTo 128), port := (codePort r.portNow).getD .a } }

/-- The head of a ring is read: its first descriptor, which stays in the slot, and the rest of a chain once sq_tail covers it and
the completion ring has room. `descs` is what the host answers to the reads that the slot still needs. -/
def descriptorFetch (n p : Nat) (descs : List Bytes) (s : State) : State :=
  if !mayFetch s n p then s
  else
    let r := ringOf s n p
    match r.fetch, descs with
    | none, d :: _ =>
      let k := headSpan (padTo 128 d)
      if !covers r k then putFetch (readDescs s n p 0 1) n p [d]
      else if descs.length < k then s
      else putFetch (readDescs s n p 0 k) n p (descs.take k)
    | some f, _ =>
      let m := headSpan (f.descs.headD []) - f.descs.length
      if descs.length < m then s else putFetch (readDescs s n p f.descs.length m) n p (f.descs ++ descs.take m)
    | none, [] => s

def execDescriptorFetch (slice pair : Nat) (descs : List (List Byte)) (s : State) : Answer :=
  endWith s (descriptorFetch slice pair descs s)

/-- A descriptor read ends with an error: the ring is in error and fetches nothing more (R75). -/
def readError (n p : Nat) (s : State) : State :=
  if !mayFetch s n p then s
  else
    let r := ringOf s n p
    let j := match r.fetch with | some f => f.descs.length | none => 0
    let s := readDescs s n p j 1
    let s := setRing s n p { r with mode := .error }
    let x := (codePort r.portNow).getD .a
    let s := capture s (pgSlc n) { cause := 0x0106, source := portNo x, addr := descAddr r j, slice := some n }
    let s := bump s (pgPort x + 0x108) 32 16 1
    raise (raise s (pgSlc n) 2) (pgPort x) 4

def execDescriptorReadError (slice pair : Nat) (s : State) : Answer := endWith s (readError slice pair s)

/-! ### Consuming (R69, R113) -/

/-- sq_head passes `k` descriptors, which owe their completions, and the fetch slot is empty. -/
def consume (s : State) (n p k : Nat) : State :=
  let r := ringOf s n p
  setRing s n p { r with sqHead := r.sqHead + BitVec.ofNat 32 k, debt := r.debt + k, fetch := none }

/-- The next admission sequence number. -/
def takeAdmit (s : State) : Nat × State :=
  (s.conf.admitCount, { s with conf := { s.conf with admitCount := s.conf.admitCount + 1 } })

/-- Bit of a slice in its window of the WEI pages, and the page. -/
def weiPage (s : State) (n : Nat) : Nat := pgWei (curDie s) (1 + n / 16)

/-- The last decision left no head of the slice waiting (R334). -/
def noWait (sl : Slice) : Slice :=
  { sl with waitRings := 0, waitCtx := false, waitCells := false, waitReserve := false, waitRate := false, claim := none }

/-- A pair's head is gone: it claims nothing and holds nothing back any more. -/
def headGone (s : State) (n p : Nat) : State :=
  let sl := sliceOf s n
  if sl.claim = some p ∨ sl.waitRings.testBit p = true then setSlice s n (noWait sl) else s

/-- A chain is consumed with a failure: it takes no context and no cells, and commits with its status (R33, R69). -/
def refuse (s : State) (n p : Nat) (descs : List Bytes) (st : Status) : State :=
  let s := consume s n p descs.length
  let s := setSlice s n (noWait (sliceOf s n))
  let (a, s) := takeAdmit s
  let s := { s with conf := { s.conf with refused := s.conf.refused ++
    [{ sliceNo := n, pair := p, descs := descs, status := st, admNt := s.nt.ns, admitSeq := a, admAcked := !duplex s }] } }
  let s := if duplex s then mirrorSend s (.admitRefused a) else s
  let s := if st = stQuotaNever then raise (bump s (pgWei (curDie s) 0 + 0x100) 32 32 1) (weiPage s n) (1 + n % 16) else s
  settle s

/-! ### Service lists (R332) -/

/-- A slice is owed while its owed bucket holds at least 1 WU (R330). -/
def isOwed (sl : Slice) : Bool := decide (2 ^ 20 ≤ sl.owedLevel)

/-- A pair's parsed head, in a pair that fetches. -/
def parsedHead (s : State) (n p : Nat) : Option FetchSlot :=
  match (ringOf s n p).fetch with
  | some f => if f.parsed && ringFetches s n p then some f else none
  | none => none

/-- A slice has a parsed head. -/
def hasHead (s : State) (n : Nat) : Bool := (List.range 8).any (fun p => (parsedHead s n p).isSome)

/-- The slice enters, at the tail, the list that its owed state names, unless it stands there. -/
def relist (s : State) (n : Nat) : State :=
  if !hasHead s n then s
  else
    let c := s.conf
    if isOwed (sliceOf s n) then
      if c.owedList.contains n then s
      else { s with conf := { c with owedList := c.owedList ++ [n], openList := c.openList.filter (fun x => x != n), visiting := c.visiting.filter (fun x => x != n) } }
    else if c.openList.contains n then s
    else { s with conf := { c with openList := c.openList ++ [n], owedList := c.owedList.filter (fun x => x != n), visiting := c.visiting.filter (fun x => x != n) } }

/-- The slice leaves its list with its deficit at 0. -/
def unlist (s : State) (n : Nat) : State :=
  let rm := fun (l : List Nat) => l.filter (fun x => x != n)
  let s := { s with conf := { s.conf with owedList := rm s.conf.owedList, openList := rm s.conf.openList, visiting := rm s.conf.visiting } }
  setSlice s n { sliceOf s n with deficit := 0 }

/-- The slice moves to the tail of its list; its visit ends. -/
def toTail (s : State) (n : Nat) : State :=
  let mv := fun (l : List Nat) => if l.contains n then l.filter (fun x => x != n) ++ [n] else l
  { s with conf := { s.conf with owedList := mv s.conf.owedList, openList := mv s.conf.openList, visiting := s.conf.visiting.filter (fun x => x != n) } }

/-! ### Parsing -/

/-- The reads that parsing makes: the scatter lists, and the parameter block of a CEREMONY_OPEN (R94, R321). -/
def parseReads (s : State) (n : Nat) (f : FetchSlot) (p : Parsed) : State :=
  if earlyStatus f.descs ≠ stOk then s
  else
    let ix := (List.range f.descs.length).zip f.descs
    let s := ix.foldl (fun s e => if hasList e.2 then readPlain s n f.port (dRef e.2) (16 * dSgCount e.2) else s) s
    ix.foldl (fun s e => if dOp e.2 = 0x0801 then
      (sgIn (p.sg.getD e.1 [])).foldl (fun s g => readFrom s n f.port g.addr g.len) s else s) s

/-- A head in its fetch slot is parsed with what the host answers to its reads. A failure is consumed at once. -/
def descriptorParse (n p : Nat) (reads : List HostRead) (s : State) : State :=
  match (ringOf s n p).fetch with
  | none => s
  | some f =>
    if f.parsed || restDue f || !ringFetches s n p then s
    else
      let q := parseHead s n f.descs reads
      let s := parseReads s n f q
      if q.status ≠ stOk then refuse s n p f.descs q.status
      else relist (setRing s n p { ringOf s n p with
        fetch := some { f with parsed := true, sg := q.sg, blocks := q.blocks, charges := q.charges, charge := q.charges.foldl (· + ·) 0 } }) n

def execDescriptorParse (slice pair : Nat) (reads : List HostRead) (s : State) : Answer :=
  endWith s (descriptorParse slice pair reads s)

/-! ### Admission checks (R114, R304, R295, R325, R327) -/

/-- The opcode is permitted in the present life-cycle state. -/
def lifePermits (s : State) (op : Nat) : Bool :=
  if op / 256 = 8 then s.life.state == .shipped || s.life.state == .owned
  else if op = 0x0621 ∨ op = 0x0622 then !([LifeState.raw, .test, .testOpen, .scrap].contains s.life.state)
  else true

/-- The slice policy grants the opcode; ceremonies need no grant. -/
def granted (p : Policy) (op : Nat) : Bool := op / 256 == 8 || bitOf (p.grants.getD (op / 256) 0) (op % 256)

/-- Cells of a chain. -/
def chainCells (descs : List Bytes) : Nat := (descs.map (fun d => stepCells (dSgCount d))).foldl (· + ·) 0

/-- The admission checks before those of fit, each made of every step before the next. -/
def admitStatus (s : State) (n : Nat) (f : FetchSlot) : Status :=
  let p := (sliceOf s n).policy
  let prio := dPrio (f.descs.headD [])
  firstFail
    [(f.descs.any (fun d => !lifePermits s (dOp d)), stLifecycle),
     (f.descs.any (fun d => !granted p (dOp d)), stPolicyDenied),
     (decide (prio < p.prioHigh) || decide (p.prioLow < prio), stPriorityDenied),
     (f.descs.any (fun d => dDeadline d != 0 && decide (dDeadline d ≤ s.nt.ns)), stDeadline),
     (decide (p.depth < f.charge) || decide (p.cellQuota < chainCells f.descs), stQuotaNever)]

/-- Contexts may be taken: quota, and reserve (R324). The answer is a quota failure and a reserve failure. -/
def ctxBlocked (s : State) (n take : Nat) : Bool × Bool :=
  let sl := sliceOf s n
  let beyond := (sl.contexts + take - 8) - (sl.contexts - 8)
  let within := min 8 (sl.contexts + take) - min 8 sl.contexts
  (decide (sl.policy.ctxQuota < sl.contexts + take),
   decide (0 < beyond) && decide (32768 < ctxUsed s + take + (ctxReserve s - within)))

/-- Cells may be taken. -/
def cellBlocked (s : State) (n take : Nat) : Bool × Bool :=
  let sl := sliceOf s n
  let beyond := (sl.cells + take - 64) - (sl.cells - 64)
  (decide (sl.policy.cellQuota < sl.cells + take), decide (0 < beyond) && decide (poolFree s < take + lowWater s))

/-- Whether a chain fits now, and what holds it back. -/
structure Fit where
  perStep : Bool
  ctx     : Bool
  cells   : Bool
  reserve : Bool
  rate    : Bool
deriving DecidableEq, Repr

def fitOf (s : State) (n : Nat) (f : FetchSlot) : Fit :=
  let k := f.descs.length
  let all := ctxBlocked s n k
  let perStep := !all.1 && !all.2
  let c := if perStep then all else ctxBlocked s n 1
  let m := cellBlocked s n (chainCells f.descs)
  { perStep := perStep, ctx := c.1, cells := m.1, reserve := c.2 || m.2, rate := decide ((sliceOf s n).rateLevel < f.charge * 2 ^ 20) }

def fits (x : Fit) : Bool := !(x.ctx || x.cells || x.reserve || x.rate)

/-- What the decision leaves in WEI_SLC_WAIT. A head has first claim on the bucket while it waits for it (R333). -/
def noteWait (s : State) (n p : Nat) (x : Fit) : State :=
  setSlice s n { sliceOf s n with waitRings := if fits x then 0 else 1 <<< p, waitCtx := x.ctx, waitCells := x.cells
                                  waitReserve := x.reserve, waitRate := x.rate, claim := if x.rate then some p else none }

/-! ### Admission (R322, R323, R330, R333) -/

/-- The first eligible head of a slice: the pair that waits for the rate bucket has first claim; otherwise the most urgent
level, in rotation over the pairs (R333). -/
def eligible (s : State) (n : Nat) : Option Nat :=
  let sl := sliceOf s n
  let level := fun p => match parsedHead s n p with | some f => dPrio (f.descs.headD []) | none => 8
  match sl.claim.filter (fun p => (parsedHead s n p).isSome) with
  | some p => some p
  | none =>
    let order := (List.range 8).map (fun i => (sl.nextPair + i) % 8)
    let best := (order.map level).foldl min 8
    if best = 8 then none else order.find? (fun p => level p == best)

/-- The lowest free context numbers. -/
def freeContexts (s : State) (count : Nat) : List Nat :=
  let l := (List.range (ctxUsed s + count)).filter (fun c => (mget s.conf.ctxs c).isNone)
  l.take count

/-- One step of an admitted chain. -/
def newStep (s : State) (n p a : Nat) (f : FetchSlot) (perStep : Bool) (pos : BitVec 32) (chain j : Nat) : Step :=
  let d := f.descs.getD j []
  let sg := f.sg.getD j []
  { desc := d, sg := sg, block := f.blocks.getD j [], sliceNo := n, pair := p, sqPos := pos, entry := 0, admNt := s.nt.ns
    level := dPrio d, charge := f.charges.getD j 0, index := j, last := f.descs.length - 1, chain := chain
    sequential := !perStep, admitSeq := a, phase := .parked, admAcked := !duplex s }

/-- A list cut into pieces of given lengths. -/
def splitCells : List Nat → List Nat → List (List Nat)
  | [], _ => []
  | n :: r, l => l.take n :: splitCells r (l.drop n)

/-- The trace item of an admission: one for the chain, with its first step and its charge (R340). -/
def traceAdmission (s : State) (k charge : Nat) : State :=
  match stepOf s k with
  | none => s
  | some t => traceWrite s 1 t.sliceNo (traceItem s k { t with charge := charge } 1 0xFFFF 0)

/-- A chain is admitted: it takes its contexts, cells and charge, its admission record is sent, and its steps enter their
lists. -/
def admitHead (s : State) (n p : Nat) (f : FetchSlot) (perStep : Bool) : State :=
  let k := f.descs.length
  let ctxs := freeContexts s (if perStep then k else 1)
  let c0 := ctxs.headD 0
  let keys := (List.range k).map (fun j => if perStep then stepKey (ctxs.getD j 0) j else stepKey c0 j)
  let (a, s) := takeAdmit s
  let pos := (ringOf s n p).sqHead
  let before := poolFree s
  let cells := splitCells (f.descs.map (fun d => stepCells (dSgCount d))) (freeCells s (chainCells f.descs))
  let steps : List (Nat × Step) := keys.zip ((List.range k).map (fun j =>
    { newStep s n p a f perStep (pos + BitVec.ofNat 32 j) c0 j with cells := cells.getD j [] }))
  let s := { s with conf := { s.conf with
    steps := steps.foldl (fun m (e : Nat × Step) => mput m e.1 e.2) s.conf.steps
    ctxs := ctxs.foldl (fun m c => mput m c n) s.conf.ctxs } }
  let s := { s with conf := { s.conf with ctxMin := min s.conf.ctxMin (32768 - ctxUsed s) } }
  let sl := sliceOf s n
  let s := setSlice s n { sl with
    contexts := sl.contexts + ctxs.length, cells := sl.cells + chainCells f.descs
    rateLevel := sl.rateLevel - f.charge * 2 ^ 20, owedLevel := sl.owedLevel - f.charge * 2 ^ 20
    deficit := sl.deficit - f.charge, nextPair := (p + 1) % 8, claim := none }
  let s := consume s n p k
  let s := poolWatch before s
  let s := bump s (pgWei (curDie s) 0 + 0x100) 0 32 1
  let w := weiPage s n + 0x118 + 0x20 * (n % 16)
  let s := bump (bump s w 0 32 1) w 32 32 f.charge
  let s := if duplex s then mirrorSend s (.admission keys) else s
  settle (traceAdmission s (keys.headD 0) f.charge)

/-- One visit of the slice at the head of the list being served (R332). -/
def visit (s : State) (n : Nat) : State :=
  let s := if s.conf.visiting.contains n then s
    else
      let sl := sliceOf s n
      { setSlice s n { sl with deficit := sl.deficit + sl.policy.weight * 64 } with conf := { s.conf with visiting := s.conf.visiting ++ [n] } }
  match eligible s n with
  | none => setSlice (unlist s n) n (noWait (sliceOf (unlist s n) n))
  | some p =>
    match parsedHead s n p with
    | none => unlist s n
    | some f =>
      let st := admitStatus s n f
      if st ≠ stOk then refuse s n p f.descs st
      else
        let x := fitOf s n f
        let s := noteWait s n p x
        if !fits x then unlist s n
        else if (sliceOf s n).deficit < f.charge then toTail s n
        else
          let s := admitHead s n p f x.perStep
          -- a slice whose owed state changed moves to the list that it now names
          if s.conf.owedList.contains n != isOwed (sliceOf s n) then relist s n else s

/-- The active die has set its heartbeat to yielding and admits nothing (R445). -/
def yielding (s : State) : Bool := (dieOf s (curDie s)).yielding

/-- One decision of Weir: the owed list is served while it is not empty, and the open list otherwise. -/
def admissionDecision (s : State) : State :=
  if !serving s || yielding s || stopsFetching s then s
  else match s.conf.owedList, s.conf.openList with
    | n :: _, _ => visit s n
    | [], n :: _ => visit s n
    | [], [] => s

def execAdmissionDecision (s : State) : Answer := endWith s (admissionDecision s)

/-! ### Buckets (R329) -/

/-- Credit of a bucket after `us` microseconds at `num / den` WU per second: the new level and the part below 2^−20 WU,
kept in units of 1 / (10^6 × den) of it. -/
def credit (level frac rate num den us depth : Nat) : Nat × Nat :=
  let t := frac + rate * num * us * 2 ^ 20
  (min (depth * 2 ^ 20) (level + t / (1000000 * den)), t % (1000000 * den))

/-- Quarters of a credit that Levee's throttle leaves (R459). -/
def throttleQuarters (s : State) : Nat :=
  match s.lev.throttleEnd with
  | some _ => (match s.vault.lev.throttle with | 0 => 1 | 1 => 2 | _ => 3)
  | none => 4

/-- The fraction of its minimum rate with which a slice's owed bucket is credited, in units of 1 / 32,768: the cores in
service (R329, R343), the governor's clock step (R544) and Levee's throttle. -/
def owedScale (s : State) : Nat := min 256 (unitsUp (dieOf s (curDie s)) 1) * (32 - s.supply.clockStep) * throttleQuarters s

/-- One slice's credit for a number of microseconds. -/
def creditSlice (s : State) (us : Nat) (sl : Slice) : Slice :=
  let p := sl.policy
  let r := credit sl.rateLevel sl.rateFrac p.rate (throttleQuarters s) 4 us p.depth
  let o := credit sl.owedLevel sl.owedFrac p.minRate (owedScale s) 32768 us p.depth
  { sl with rateLevel := r.1, rateFrac := r.2, owedLevel := o.1, owedFrac := o.2 }

/-- At each whole microsecond of NT every bucket is credited for each microsecond since the last credit, and slices whose
heads wait enter their lists again. -/
def bucketCredit (s : State) : State :=
  let us := s.nt.ns / 1000
  if !serving s || us ≤ s.conf.creditUs then s
  else
    let gone := us - s.conf.creditUs
    let credited := fun (_ : Nat) (sl : Slice) => if sl.mode = .absent then sl else creditSlice s gone sl
    let s := { s with slices := mmap credited s.slices, conf := { s.conf with creditUs := us } }
    (mkeys s.slices (fun _ _ => true)).foldl relist s

def execBucketCredit (s : State) : Answer := endWith s (bucketCredit s)

end Sys2Proof.Machine
end

