-- ==== Sys2Proof/Machine/Cores.lean ====
section
/-!
DEFINITION. Dispatch and the life of a step on a core (R81, R94, R106, R249, R268 to R272, R335 to R340, R352 to R362):
hand-over, the input read, readiness, confirm, scrub, BNL jobs, yield and resume, and the ends at boundaries.
-/
namespace Sys2Proof.Machine

/-! ### Hand-over (R336, R352) -/

/-- Cores of a die. -/
def coreCount : Nat := 288

/-- The step takes the Eddy path at this hand-over. -/
def handsAhead (t : Step) : Bool := mayRunAhead t && !t.ran

/-- A core in service with an empty slot and, for a step that may run ahead, a free Eddy entry. -/
def coreTakes (s : State) (ahead : Bool) (c : Nat) : Bool :=
  unitUp (dieOf s (curDie s)) 1 c && (coreOf s c).pre.isNone && (!ahead || (freeEntry s c).isSome)

/-- The first core from the rotating pointer that a predicate accepts. -/
def coreFrom (s : State) (p : Nat → Bool) : Option Nat :=
  ((List.range coreCount).map (fun i => (s.conf.pointer + i) % coreCount)).find? p

/-- Statistics of a hand-over: CFL_DISPATCH.handovers, served and max_wait of the level. -/
def countHandover (s : State) (t : Step) : State :=
  let d := curDie s
  let s := bump s (pgCfl d 0 + 0x150) 0 32 1
  let s := bump s (pgCfl d 3 + 0x100 + 8 * t.level) 0 32 1
  let wait := min ((s.nt.ns - t.listNt) * 16 / 5) 0xFFFFFFFF
  let a := pgCfl d 2 + 0x100 + 8 * t.level
  if getF (rd s a) 0 32 < wait then wrF s a 0 32 wait else s

/-- The item at the head of a list is handed to a core: to its executing slot, where it is activated or resumes, or else to
its prefetch slot. -/
def handTo (s : State) (k c : Nat) (t : Step) : State :=
  let ahead := handsAhead t
  let slot := if (coreOf s c).exec.isNone then 0 else 1
  let s := offLists s k
  let s := setStep s k { t with phase := if slot = 0 then .executing c else .prefetched c, ahead := t.ahead || ahead }
  let s := setCore s c (if slot = 0 then { coreOf s c with exec := some k } else { coreOf s c with pre := some k })
  let s := match ahead, freeEntry s c with
    | true, some i => setEntry s c i ⟨.ahead, k⟩
    | _, _ => s
  let s := countHandover s t
  let s := shadowRules (traceStep s k 2 c slot) c k
  let s := { s with conf := { s.conf with pointer := (c + 1) % coreCount } }
  if slot = 0 then (if t.ran then resumeOn (swapRules s c) c k t else activate (swapRules s c) k) else s

/-- A step that may run ahead finds an empty slot but no entry: it leaves its list and waits for its guard (R352). -/
def deferStep (s : State) (k : Nat) (t : Step) : State :=
  let s := setStep (offLists s k) k { t with phase := .parked, deferred := true }
  match coreFrom s (fun c => unitUp (dieOf s (curDie s)) 1 c) with
  | some c => raise (bump s (pgEdy (curDie s) c + 0x188) 0 32 1) (pgEdy (curDie s) c) 1
  | none => s

/-- One hand-over: items that are deferred leave first. -/
def handoverFor (n : Nat) (s : State) : State :=
  match n with
  | 0 => s
  | m + 1 =>
    match headOfLists s.conf.ready with
    | none => s
    | some k =>
      match stepOf s k with
      | none => offLists s k
      | some t =>
        match coreFrom s (coreTakes s (handsAhead t)) with
        | some c => handTo s k c t
        | none =>
          if handsAhead t && (coreFrom s (coreTakes s false)).isSome then handoverFor m (deferStep s k t) else s

/-- Items on the core ready lists. -/
def listedCount (s : State) : Nat := (s.conf.ready.map (fun e => e.2.length)).foldl (· + ·) 0

def coreHandover (s : State) : State := if serving s then settle (handoverFor (listedCount s) s) else s

def execCoreHandover (s : State) : Answer := endWith s (coreHandover s)

/-! ### Input (R62, R94, R95) -/

/-- The last `n` bytes of a list of segments, as segments. -/
def lastSegs (n : Nat) : List SgEntry → List SgEntry
  | [] => []
  | g :: r =>
    let rest := sgBytes r
    if n ≤ rest then lastSegs n r else ⟨g.addr + (g.len - min g.len (n - rest)), min g.len (n - rest), g.out⟩ :: r

/-- What a step reads from host memory: its input segments; the last 16 bytes of the source in mode 0x03; a page of its
buffer table. -/
def inputReads (s : State) (t : Step) : List SgEntry :=
  if hasTable t.desc && t.trans.isNone then [⟨tablePage t.desc, 4096, false⟩]
  else match t.trans with
    | some tr => if bulkMode s t = 3 then lastSegs 16 (sgIn tr) else []
    | none => sgIn t.sg

/-- The bytes of an input read enter the step. -/
def takeInput (s : State) (k : Nat) (t : Step) (data : Bytes) : State :=
  if hasTable t.desc && t.trans.isNone then tableRead (btcFill s t.sliceNo (tablePage t.desc) data) k (padTo 4096 data)
  else
    let n := sgBytes (inputReads s t)
    setStep s k { t with input := padTo n data, inputDone := true }

/-- The step waits for its input. -/
def awaitsInput (t : Step) : Bool :=
  t.ran && !t.inputDone && t.bindWait.isNone && t.result.isNone && t.ending.isNone &&
    (match t.phase with | .executing _ => true | _ => false)

/-- The read of a step's input completes with what the host answers, or fails. -/
def inputDone (k : Nat) (data : Option Bytes) (s : State) : State :=
  match stepOf s k with
  | none => s
  | some t =>
    if !awaitsInput t then s
    else match stepPort s t with
      | none => failAct s k stDataFetch
      | some p =>
        let read := if hasTable t.desc && t.trans.isNone then readPlain else readFrom
        let s := (inputReads s t).foldl (fun s g => read s t.sliceNo p g.addr g.len) s
        match data with
        | none => failAct s k stDataFetch
        | some b => takeInput s k t b

def execInputSegmentReadDone (k : Nat) (data : Option (List Byte)) (s : State) : Answer := endWith s (inputDone k data s)

/-- A binding that waits for a key-cache entry proceeds (R249). -/
def cacheFreed (k : Nat) (s : State) : State :=
  match stepOf s k with
  | none => s
  | some t =>
    match t.bindWait, t.phase with
    | some p, .executing _ => bindFrom s k p (4 - p)
    | _, _ => s

def execKeyCacheEntryFreed (k : Nat) (s : State) : Answer := endWith s (cacheFreed k s)

/-! ### Readiness (R33, R115, R145, R354, R355) -/

/-- A bulk step's pass has been accepted, or the step runs none. -/
def passReady (t : Step) (r : Result) : Bool :=
  !(dOp t.desc == 0x0412 || dOp t.desc == 0x0414) || r.status != stOk || t.accepted

/-- The step's function and its engine jobs are done. -/
def functionDone (t : Step) (r : Result) : Bool :=
  t.ending.isNone && (t.job == .none || t.job == .done) && passReady t r

/-- State in which an entry stands that needs no confirm, or that has confirmed: ORDER while an earlier step of the chain is
uncommitted, otherwise COMMIT (R354, R355). -/
def lineMode (s : State) (t : Step) : EddyMode := if earlierDone s t then .commit else .order

/-! ### Confirm (R360, R361) -/

/-- Slots that a target position takes: those of the records that the result creates from it on, and at least its own. -/
def targetNeed (r : Result) (slot : Nat) : Nat :=
  max 1 ((r.keys.map (fun c => match c with
    | .create a x => if slot ≤ a then a - slot + 1 + extNeeded x.algorithm x.cls else 0
    | _ => 0)).foldl max 0)

/-- The outcome of the re-check of one bound position, over every key commit whose number has been assigned. Generation 0 is a
damaged slot bound by KEY_ERASE (R235). -/
def recheckBound (s : State) (k : Nat) (t : Step) (r : Result) (b : Bound) : Status :=
  if b.target then
    let n := targetNeed r b.slot
    if groupEmpty s t.sliceNo b.slot n && !(List.range n).any (fun j => occupiedBy s k (b.slot + j)) then stOk else stKeySlotBusy
  else match b.lost with
    | some st => st
    | none =>
      if b.gen = 0 ∧ groupDamaged s b.slot then stOk
      else match slotView s b.slot with
        | .held x => if x.generation = b.gen then stOk else stKeyGeneration
        | _ => lostStatus s b.slot

/-- Rank of the outcomes of a re-check (Table 3 of the speculation chapter). -/
def recheckRank (st : Status) : Nat :=
  if st = stKeyGeneration then 1 else if st = stKeySlotBusy then 3 else if st = stOk then 4 else 2

/-- The first outcome that applies, over all positions. -/
def recheck (s : State) (k : Nat) (t : Step) (r : Result) : Status :=
  t.bound.foldl (fun a b => let st := recheckBound s k t r b; if recheckRank st < recheckRank a then st else a) stOk

/-- The status with which a step that ran ahead confirms once its guard has committed: the chain's outcome, then the re-check. -/
def confirmStatus (s : State) (k : Nat) (t : Step) (r : Result) : Status :=
  if t.guardOk = some false then stGuardFailed else if t.haltFailed then stChainHalted else recheck s k t r

/-- A step that ran ahead confirms: its own result stands, in ORDER or COMMIT, or its entry goes to SCRUB. -/
def confirmStep (s : State) (k c : Nat) (t : Step) (r : Result) : State :=
  let st := confirmStatus s k t r
  let pg := pgEdy (curDie s) c
  if st = stOk then bump (moveEntry s k (lineMode s t)) (pg + 0x180) 0 32 1
  else
    let checked := t.guardOk = some true ∧ t.haltFailed = false
    endNow (if checked then bump s (pg + 0x188) 32 32 1 else s) k st

/-- A step that ran ahead is ready: it leaves its core, and confirms at once where its guard has committed. -/
def aheadReady (s : State) (k : Nat) (t : Step) (r : Result) : State :=
  match entryOf s k with
  | none => s
  | some (c, i) =>
    let t := { t with phase := .inEddy c i }
    let s := setStep s k t
    if t.guardOk.isSome then confirmStep s k c t r else moveEntry s k .held

/-- A step becomes ready to commit: it leaves its executing slot for an Eddy entry, or keeps the slot where its core has
none. -/
def stepReady (k : Nat) (s : State) : State :=
  match stepOf s k with
  | none => s
  | some t =>
    match t.phase, t.result with
    | .executing c, some r =>
      if !functionDone t r then s
      else
        let s := reach s (t.actNt + cyclesNs r.cycles)
        if t.ahead then settle (aheadReady (vacate s c) k t r)
        else match freeEntry s c with
          | some i => settle (setStep (setEntry (vacate s c) c i ⟨lineMode s t, k⟩) k { t with phase := .inEddy c i })
          | none => settle (setStep s k { t with phase := .readyOnCore c })
    | _, _ => s

def execStepReady (k : Nat) (s : State) : Answer := endWith s (stepReady k s)
/-! ### Ends at boundaries (R81, R106, R248) -/

/-- Statuses of Table 3 of the speculation chapter that are not a step's own. -/
def notOwn (st : Status) : Bool := st == stSliceReset || st == stKeyWithdrawn || st == stGuardFailed || st == stChainHalted

/-- A step that runs ahead ends on its core with a status of its own (R361): what it did is scrubbed, and it is ready with that
status. -/
def endOwn (s : State) (k : Nat) (t : Step) (st : Status) : State :=
  aheadReady (stopStep s k t) k { t with ending := none, mark := none, job := .none, bindWait := none, seedWait := none, result := some (fails st) } (fails st)

/-- The step ends now at a boundary with a status. -/
def endHere (s : State) (k : Nat) (t : Step) (st : Status) : State :=
  if t.ahead && !notOwn st then endOwn s k t st else endNow s k st

/-- A step that is marked to end reaches its next boundary. -/
def boundaryEnd (k : Nat) (s : State) : State :=
  match stepOf s k with
  | none => s
  | some t =>
    match t.ending with
    | some st => if t.seq.isSome then s else settle (endHere s k t st)
    | none => s

def execBoundaryEnd (k : Nat) (s : State) : Answer := endWith s (boundaryEnd k s)

/-- The step runs: it is activated and not ready to commit. -/
def isRunning (t : Step) : Bool :=
  match t.phase with
  | .executing _ | .yielded => true
  | .listed | .prefetched _ => t.ran
  | _ => false

/-- 10 ms after activation a step that is not ready to commit is marked to end (R106). -/
def execLimit (k : Nat) (s : State) : State :=
  match stepOf s k with
  | none => s
  | some t => if isRunning t then settle (endStep (reach s (t.actNt + 10000000)) k stExecLimit) else s

def execExecLimitExpiry (k : Nat) (s : State) : Answer := endWith s (execLimit k s)

/-! ### The guard commits -/

/-- A step in HELD whose guard has committed confirms. -/
def eddyConfirm (k : Nat) (s : State) : State :=
  match stepOf s k, entryOf s k with
  | some t, some (c, i) =>
    (match t.result with
     | some r => if ((coreOf s c).eddy.getD i {}).mode ≠ .held ∨ t.guardOk = none then s else settle (confirmStep s k c t r)
     | none => s)
  | _, _ => s

def execEddyConfirm (k : Nat) (s : State) : Answer := endWith s (eddyConfirm k s)

/-! ### Scrub (R362) -/

/-- A scrub ends: the entry is free, and its step commits in step order with its status. -/
def scrubDone (c i : Nat) (s : State) : State :=
  let e := (coreOf s c).eddy.getD i {}
  if e.mode ≠ .scrub then s
  else
    let s := dropLane (setEntry s c i {}) c e.step
    let s := bump s (pgEdy (curDie s) c + 0x190) 0 32 1
    match stepOf s e.step with
    | some t => settle (setStep s e.step { t with phase := .ended })
    | none => s

def execEddyScrubDone (core entry : Nat) (s : State) : Answer := endWith s (scrubDone core entry s)

/-! ### BNL jobs (R268 to R272, R338) -/

/-- An engine that can take a job. -/
def engineIdle (s : State) (i : Nat) : Bool := unitUp (dieOf s (curDie s)) 2 i && (engineOf s i).job.isNone

/-- Owner of an engine's last job, if it has run one. -/
def engineOwner (e : Engine) : Option Nat := if e.used then some (if e.lastModule then 1024 else e.lastSlice) else none

/-- The engine that takes a job of an owner: the lowest-numbered idle one with that owner, else the lowest-numbered idle. -/
def engineFor (s : State) (owner : Nat) : Option Nat :=
  let idle := (List.range 28).filter (engineIdle s)
  match idle.find? (fun i => engineOwner (engineOf s i) == some owner) with
  | some i => some i
  | none => idle.head?

/-- An engine takes the head of the most urgent BNL ready list, after a scrub where the owner changes. -/
def bnlStart (i : Nat) (s : State) : State :=
  if !serving s then s
  else match headOfLists s.conf.bnlReady with
    | none => s
    | some k =>
      match stepOf s k with
      | none => offLists s k
      | some t =>
        let owner := ownerOf t
        if engineFor s owner ≠ some i then s
        else
          let e := engineOf s i
          let a := pgBnl (curDie s) i + 0x108
          let s := if e.used && engineOwner e != some owner && !e.scrubbed then bump s a 32 32 1 else s
          let s := setBnl s t.level ((listOf s.conf.bnlReady t.level).filter (fun x => x != k))
          let s := setEngine s i { job := some k, startNt := s.nt.ns, lastSlice := t.sliceNo, lastModule := owner == 1024, used := true, scrubbed := false }
          traceStep (setStep s k { t with job := .running }) k 3 i 0

def execBnlJobStart (engine : Nat) (s : State) : Answer := endWith s (bnlStart engine s)

/-- Opcodes whose BNL job makes a private-key operation and is checked (R269). -/
def checkedOp (op : Nat) : Bool := op / 256 == 6 && op != 0x0602 && op != 0x0604 && op != 0x0607

/-- A result fails its check: it is discarded, the engine is retired, and the operation runs once more (R270). -/
def checkFailed (s : State) (i k : Nat) (t : Step) : State :=
  let d := curDie s
  let s := scrubEngine (setEngine s i { engineOf s i with job := none }) d i
  let s := raise (bump s (pgBnl d i + 0x110) 0 16 1) (pgBnl d i) 1
  let s := integrityEvent s
  let s := journal s { jev 0x0402 2 (dieSource d) (detail 0 i 0 (dTag t.desc) 0) (some t.sliceNo) with op := dOp t.desc }
  let s := unitFail s d 2 i
  if t.retries = 0 then
    setBnl (setStep s k { t with job := .queued, retries := 1 }) t.level (k :: listOf s.conf.bnlReady t.level)
  else setStep s k { t with job := .done, result := some { fails stIntegrity with cycles := (match t.result with | some r => r.cycles | none => 0) } }

/-- The operation's own checks of R269 hold, as far as they do not depend on a fault of the engine. -/
def checksHold (t : Step) : Bool := match t.result with | some r => r.holds | none => true

/-- A BNL job ends; `checkOk` says that the engine computed without a fault, so that the checks of R269 see none. -/
def bnlDone (i : Nat) (checkOk : Bool) (s : State) : State :=
  match (engineOf s i).job with
  | none => s
  | some k =>
    match stepOf s k with
    | none => setEngine s i { engineOf s i with job := none }
    | some t =>
      let s := bump s (pgBnl (curDie s) i + 0x108) 0 32 1
      if (!checkOk || !checksHold t) && checkedOp (dOp t.desc) then settle (checkFailed s i k t)
      else setStep (setEngine s i { engineOf s i with job := none }) k { t with job := .done }

def execBnlJobDone (engine : Nat) (checkOk : Bool) (s : State) : Answer := endWith s (bnlDone engine checkOk s)

/-! ### Yield and resume (R337, R356) -/

/-- The step has nothing to do but to wait for a job. -/
def awaitsJob (t : Step) : Bool := t.job == .queued || t.job == .running || awaitsPass t

/-- A step that waits for a job yields its core where a yield area is free. A step that runs ahead does not yield. -/
def stepYield (k : Nat) (s : State) : State :=
  match stepOf s k with
  | none => s
  | some t =>
    match t.phase with
    | .executing c =>
      if t.ahead || !awaitsJob t || t.ending.isSome then s
      else if s.conf.yieldFree = 0 then raise s (pgCfl (curDie s) 0) 2
      else
        let s := bump s (pgCfl (curDie s) 0 + 0x150) 32 32 1
        let s := traceStep s k 5 c 0
        let s := clearLane (vacate s c) c
        let s := setStep s k { t with phase := .yielded }
        settle { s with conf := { s.conf with yieldFree := s.conf.yieldFree - 1 } }
    | _ => s

def execStepYield (k : Nat) (s : State) : Answer := endWith s (stepYield k s)

/-- The job of a yielded step has ended: its resume item enters the head of its level's list. -/
def stepResume (k : Nat) (s : State) : State :=
  match stepOf s k with
  | none => s
  | some t =>
    if t.phase = .yielded ∧ awaitsJob t = false ∧ t.ending = none then settle (pushResume (traceStep s k 6 0xFFFF 0) k) else s

def execStepResume (k : Nat) (s : State) : Answer := endWith s (stepResume k s)

end Sys2Proof.Machine
end

