-- ==== Sys2Proof/Machine/Mirror.lean ====
section
/-!
DEFINITION. The mirror link (R31, R33, R426 to R431, R443, R444): the standby die applies records, acknowledgements arrive,
records are sent again, halves fail, and the standby die leaves or joins.
-/
namespace Sys2Proof.Machine

/-! ### Applying records on the standby die (R428, R429) -/

/-- The record is applied and waits for its acknowledgement. -/
def markApplied (s : State) (n : Nat) : State :=
  { s with sw := { s.sw with recs := s.sw.recs.map (fun r => if r.seq = n then { r with applied := true } else r) } }

/-- The standby die has applied a commit sequence number. -/
def standbyApplied (s : State) (seq : Nat) : State :=
  match standbyDie s with
  | some d => setDie s d { dieOf s d with applied := max (dieOf s d).applied seq }
  | none => s

/-- The directory words of a key transaction stand on the standby die (step 3 of R259). -/
def standbyDirs (s : State) (m : Nat) : State :=
  match mget s.kst.marks m, standbyDie s with
  | some x, some d => standbyApplied (putDirs s [d] x.writes) x.seq
  | _, _ => s

/-- A COMMIT record of a step is applied: the commit point of a step without a key transaction falls; one with a key
transaction commits at its flip (R259). -/
def applyCommit (s : State) (k : Nat) : State :=
  match stepOf s k with
  | none => s
  | some t =>
    let s := standbyApplied s (t.seq.getD 0)
    match t.mark with
    | some m => standbyDirs s m
    | none => commitPoint s k

/-- One record is applied. FRAME, DELIVERED and JOURNAL records leave the sender's keeping with it. -/
def applyRec (s : State) (r : MirrorRec) : State :=
  match r.body with
  | .admission _ | .admitRefused _ => markApplied s r.seq
  | .frame m =>
    (match mget s.kst.marks m, standbyDie s with
     | some x, some d => mirrorDone (putFrames s [d] x) r.seq
     | _, _ => mirrorDone s r.seq)
  | .commit k => markApplied (applyCommit s k) r.seq
  | .commitRefused a j =>
    let s := match refusedOf s a with
      | some x => (match x.sent with | some (q, _, _) => standbyApplied s (q + j) | none => s)
      | none => s
    markApplied (refusedPoint s a) r.seq
  | .commitInternal m => markApplied (standbyDirs s m) r.seq
  | .commitOwn q => markApplied (standbyApplied s q) r.seq
  | .delivered ring _ seq =>
    let x := ringOf s (ring / 8) (ring % 8)
    mirrorDone (setRing s (ring / 8) (ring % 8) { x with uncovered := x.uncovered.filter (fun o => decide (seq < o.seq)) }) r.seq
  | .journal b =>
    (match standbyDie s with
     | some d => mirrorDone (putJournal s [d] (leAt b 24 8) b) r.seq
     | none => mirrorDone s r.seq)
  | .catchup _ => s

/-- The next record in mirror order has arrived, and the predicate accepts what it carries: the standby die applies it. -/
def applyNext (p : MirrorBody → Bool) (s : State) : State :=
  match mirrorNext s with
  | some r => if duplex s && s.sw.gap.isNone && r.arrived && p r.body then applyRec s r else s
  | none => s

def isAdmit : MirrorBody → Bool
  | .admission _ | .admitRefused _ => true
  | _ => false
def isCommit : MirrorBody → Bool
  | .commit _ | .commitRefused _ _ | .commitInternal _ | .commitOwn _ => true
  | _ => false
def isFrame : MirrorBody → Bool
  | .frame _ => true
  | _ => false
def isDelivered : MirrorBody → Bool
  | .delivered _ _ _ => true
  | _ => false

def execAdmitRecordApply (s : State) : Answer := endWith s (applyNext isAdmit s)
def execFrameRecordApply (s : State) : Answer := endWith s (applyNext isFrame s)
def execCommitRecordApply (s : State) : Answer := endWith s (applyNext isCommit s)
def execDeliveredRecordApply (s : State) : Answer := endWith s (applyNext isDelivered s)

/-! ### Acknowledgements (R33) -/

/-- The admission of a chain is known to the standby die. -/
def admitAcked (s : State) (b : MirrorBody) : State :=
  match b with
  | .admission ks => ks.foldl (fun s k => match stepOf s k with | some t => setStep s k { t with admAcked := true } | none => s) s
  | .admitRefused a => (match refusedOf s a with | some r => setRefused s { r with admAcked := true } | none => s)
  | _ => s

/-- The acknowledgement of an admission record arrives: condition (a) of R33. -/
def admitAck (n : Nat) (s : State) : State :=
  match mirrorRec s n with
  | some r => if r.applied && isAdmit r.body then settle (admitAcked (mirrorDone s n) r.body) else s
  | none => s

def execAdmitAckReceived (seq : Nat) (s : State) : Answer := endWith s (admitAck seq s)

/-- The active die knows of a commit: its completion is owed. A key transaction goes on to its flip. -/
def commitAcked (s : State) (b : MirrorBody) : State :=
  match b with
  | .commit k => (match stepOf s k with | some t => if t.mark.isSome then s else oweStep s k | none => s)
  | .commitRefused a _ => oweRefused s a
  | _ => s

/-- The acknowledgement of a commit record arrives: condition (c) of R33. -/
def commitAck (n : Nat) (s : State) : State :=
  match mirrorRec s n with
  | some r => if r.applied && isCommit r.body then settle (commitAcked (mirrorDone s n) r.body) else s
  | none => s

def execCommitAckReceived (seq : Nat) (s : State) : Answer := endWith s (commitAck seq s)

/-! ### The standby die leaves (R32, R431, R434) -/

/-- What becomes of a record that no standby die will acknowledge: its condition no longer holds anything back. -/
def freeRec (s : State) (r : MirrorRec) : State :=
  match r.body with
  | .admission _ | .admitRefused _ => admitAcked s r.body
  | .commit k =>
    (match stepOf s k with
     | some t => if t.mark.isSome then s else oweStep (if r.applied then s else commitPoint s k) k
     | none => s)
  | .commitRefused a _ => oweRefused (if r.applied then s else refusedPoint s a) a
  | _ => s

/-- The standby or joining die leaves service, and the module runs simplex. In a gap the records are those that the end of the gap
decides. -/
def standbyLost (s : State) : State :=
  match activeDie s with
  | none => s
  | some d =>
    let before := s
    let o := otherDie d
    let rs := if s.sw.gap.isSome then [] else s.sw.recs
    let s := { s with sw := { s.sw with recs := if s.sw.gap.isSome then s.sw.recs else [], planned := false, creditWithdrawn := false } }
    let s := setDie s d { dieOf s d with yielding := false }
    let s := setDie s o { dieOf s o with inService := false, joining := false, yielding := false, selftestOn := false }
    let s := setRng s o {}
    let s := rs.foldl freeRec s
    let s := { s with rings := mmap (fun _ r => { r with uncovered := [] }) s.rings }
    let s := if modeCode before = modeCode s then s else raise s pgSwo 4
    settle (refreshHealth before s)

/-! ### Resending and faults of a half (R39, R427, R431) -/

def halfUp (s : State) (h : Nat) : Bool := if h = 0 then s.sw.half0Up else s.sw.half1Up

/-- A record unacknowledged 2 µs after it was sent on a half that has become faulty is sent again on the other half. -/
def mirrorResend (n : Nat) (s : State) : State :=
  match mirrorRec s n with
  | none => s
  | some r =>
    if r.arrived || r.applied || halfUp s r.half || !halfUp s (1 - r.half) then s
    else
      let s := reach s (r.sentNt + 2000)
      { s with sw := { s.sw with recs := s.sw.recs.map (fun x => if x.seq = n then { x with half := 1 - r.half, sentNt := s.nt.ns, arrived := true } else x) } }

def execMirrorResend (seq : Nat) (s : State) : Answer := endWith s (mirrorResend seq s)

/-- A path fault is counted, shown and journalled. -/
def pathFault (s : State) (inst : Nat) : State :=
  journal (raise (bump s (pgSwo + 0x108) 32 16 1) pgSwo 2) (jev 0x0602 2 2 (detail 0 inst 0 0 0))

/-- A mirror half fails; `lost` names the records on it that do not arrive. The loss of both takes the standby die out of
service. -/
def halfDown (h : Nat) (lost : List Nat) (s : State) : State :=
  if !(h == 0 || h == 1) || !halfUp s h then s
  else
    let before := s
    let recs := s.sw.recs.map (fun r => if r.half = h ∧ lost.contains r.seq = true ∧ r.applied = false then { r with arrived := false } else r)
    let s := { s with sw := { s.sw with recs := recs, half0Up := s.sw.half0Up && h != 0, half1Up := s.sw.half1Up && h != 1 } }
    let s := refreshHealth before (pathFault s h)
    if s.sw.half0Up || s.sw.half1Up then s else standbyLost s

def execMirrorHalfDown (half : Nat) (lost : List Nat) (s : State) : Answer := endWith s (halfDown half lost s)

/-! ### Catch-up (R31, R443, R444) -/

/-- The die that joins. -/
def joiningDie (s : State) : Option Die :=
  match activeDie s with
  | some d => if (dieOf s (otherDie d)).joining then some (otherDie d) else none
  | none => none

/-- The sender of a CATCHUP record has one under way. -/
def catchupSent (s : State) : Bool := s.sw.recs.any (fun r => match r.body with | .catchup _ => true | _ => false)

/-- Receive credit is requested: by the token holder for a CATCHUP record, and by the other die. When both ask, the token
holder is granted, and the other die withdraws its request. It renews it after the holder's record is acknowledged, and goes before
the holder's next record. -/
def creditRequest (holder other : Bool) (s : State) : State :=
  match joiningDie s with
  | none => s
  | some j =>
    if s.sw.gap.isSome || catchupSent s then s
    else if s.sw.creditWithdrawn then { s with sw := { s.sw with creditWithdrawn := !other } }
    else if holder then mirrorSend { s with sw := { s.sw with creditWithdrawn := other } } (.catchup (dieOf s j).applied)
    else s

def execMirrorCreditRequest (holder other : Bool) (s : State) : Answer := endWith s (creditRequest holder other s)

/-- What the two MRAM dies hold alike: the joining die takes it from the active die (R23, R443). -/
def copyStore (src dst : Mram) : Mram :=
  { src with slotA := dst.slotA, slotB := dst.slotB, sectors := dst.sectors }

/-- The registers of the start are each die's own; the others follow the active die (R378, R490). -/
def joinMeas (own active : List (Nat × Bytes)) : List (Nat × Bytes) :=
  own.filter (fun e => decide (e.1 < 8)) ++ active.filter (fun e => decide (8 ≤ e.1))

/-- The chain that was consumed with an admission sequence number in simplex running, and that has not committed, sends its
admission record to the die that has joined: condition (a) of R33 holds it back from then on. -/
def admitAgain (s : State) (a : Nat) : State :=
  let ks := stepsWhere s (fun _ t => t.admitSeq == a && !isCommitted t)
  let s := ks.foldl (fun s k => match stepOf s k with | some t => setStep s k { t with admAcked := false } | none => s) s
  let s := if ks.isEmpty then s else mirrorSend s (.admission ks)
  match refusedOf s a with
  | some r => if r.sent.isNone then mirrorSend (setRefused s { r with admAcked := false }) (.admitRefused a) else s
  | none => s

/-- Every chain that has not committed, in the order of consumption. -/
def admitAllAgain (s : State) : State :=
  (ascending (s.conf.steps.map (fun e => e.2.admitSeq) ++ s.conf.refused.map (·.admitSeq))).foldl admitAgain s

/-- In a rollout the warden asks for a planned switchover once the standby die has joined with the new image (R446, R500). -/
def rolloutPlanned (s : State) : State :=
  match activeDie s with
  | some d =>
    if s.starts.rollout && (dieOf s d).bootSlot != some (bootOf s d).slot && duplex s && !s.sw.hold && !s.sw.planned then
      setDie { s with sw := { s.sw with planned := true, plannedNt := s.nt.ns } } d { dieOf s d with yielding := true }
    else s
  | none => s

/-- The joining die applies the committed changes that it lacks. Its commit sequence then equals the active die's, and it is
the standby die (R31). -/
def catchupApply (s : State) : State :=
  match joiningDie s, activeDie s, mirrorNext s with
  | some j, some d, some r =>
    (match r.body with
     | .catchup _ =>
       if !r.arrived then s
       else
         let before := s
         let s := mirrorDone (setMram s j (copyStore (mramOf s d) (mramOf s j))) r.seq
         let x := dieOf s j
         let s := setDie s j { x with joining := false, applied := (dieOf s d).applied, meas := joinMeas x.meas (dieOf s d).meas, cycleNt := s.nt.ns }
         let s := admitAllAgain { s with sw := { s.sw with rejoins := s.sw.rejoins + 1, creditWithdrawn := false } }
         rolloutPlanned (refreshHealth before (raise (raise s pgSwo 5) pgSwo 4))
     | _ => s)
  | _, _, _ => s

def execCatchupRecordApply (s : State) : Answer := endWith s (catchupApply s)

end Sys2Proof.Machine
end

