-- ==== Sys2Proof/Machine/Rings.lean ====
section
/-!
DEFINITION. Slices, ring pairs and ports (R63 to R83): the registers of a slice page, the placing of pairs on ports, the
delivery of completions with their status blocks and interrupts, slice resets, link events and function level resets.
-/
namespace Sys2Proof.Machine

/-! ### Reaching a slice page (R54, R55, R464) -/

/-- BAR2 offset of a register of a slice page. -/
def slcOff (n off : Nat) : Nat := n * 0x1000 + off

/-- An error of a slice page access, captured on that page. -/
def slcCapture (s : State) (who : Party) (n cause off : Nat) : State :=
  capture s (pgSlc n) { cause := cause, source := partySource who, addr := slcOff n off, slice := some n }

/-- A slice page is mapped for a port: the slice exists and is bound there. -/
def slcMapped (s : State) (p : Port) (n : Nat) : Bool := decide (n < 1024) && (sliceOf s n).mode != .absent && boundTo (sliceOf s n) p

/-- A write of a port to a slice page register, whose effect is `f`. -/
def slcGate (s : State) (p : Port) (n off : Nat) (f : State → State) : State :=
  if !arrives s (partyOf p) 1 || (portOf s p).flr then s
  else if s.lev.halted || s.vault.recovery || !slcMapped s p n then captureAt s pgBas (partyOf p) 0x0003 (slcOff n off) (some n)
  else f s

/-! ### Carrying pairs (R78, R79) -/

/-- PTx_CTL.evacuate. -/
def evacuated (s : State) (p : Port) : Bool := bitOf (rd s (pgPort p + 0x110)) 1

/-- A port carries pairs: its link is up, it is not in reset and not evacuated. -/
def portOk (s : State) (p : Port) : Bool := portMoves s p && !evacuated s p

/-- A pair runs on a port; ring_moved is set where that is another port than before (R79, Table 10). -/
def arrive (s : State) (n p : Nat) (x : Port) : State :=
  let r := ringOf s n p
  let old := if r.portNow = 0 then r.lastPort else r.portNow
  let mode := if r.mode = .held then (if r.heldError then .error else .running) else r.mode
  let s := setRing s n p { r with
    portNow := portCode x, lastPort := 0, heldError := false, mode := mode, moveTo := none
    fetch := r.fetch.map (fun f => { f with port := x }) }
  if old = portCode x ∨ old = 0 then s else raise (raise s (pgSlc n) 3) (pgPort x) 3

/-- A pair becomes held. -/
def holdPair (s : State) (n p : Nat) : State :=
  let r := ringOf s n p
  let last := if r.portNow = 0 then r.lastPort else r.portNow
  let s := setRing s n p { r with portNow := 0, lastPort := last, heldError := r.mode == .error, mode := .held, moveTo := none }
  raise s (pgSlc n) 4

/-- A pair that a port has carried is placed on the other bound port, or is held (R79). -/
def placeFrom (s : State) (n p : Nat) (x : Port) : State :=
  let y := otherPort x
  if boundTo (sliceOf s n) y && portOk s y then arrive s n p y else holdPair s n p

/-- Pairs of every slice that a predicate accepts. -/
def pairsOf (s : State) (f : Nat → Ring → Bool) : List Nat := mkeys s.rings f

/-- Every pair that a port carries is placed elsewhere or held. -/
def portGone (s : State) (x : Port) : State :=
  let s := { s with rings := mmap (fun _ r => if r.moveTo = some x then { r with moveTo := none } else r) s.rings }
  (pairsOf s (fun _ r => r.portNow == portCode x && r.mode != .disabled)).foldl (fun s i => placeFrom s (i / 8) (i % 8) x) s

/-- A slice that has a parsed head is listed again. -/
def relistAll (s : State) : State := (mkeys s.slices (fun _ _ => true)).foldl relist s

/-- Pairs that no port carries, of slices bound to a port, run there. -/
def portBack (s : State) (x : Port) : State :=
  if !portOk s x then s
  else
    relistAll ((pairsOf s (fun i r => unplaced r && boundTo (sliceOf s (i / 8)) x)).foldl (fun s i => arrive s (i / 8) (i % 8) x) s)

/-- The home field of a pair has been written: the pair moves at the next boundary between batches, or at once when no
completion is owed (R78). -/
def homeWritten (s : State) (n p : Nat) : State :=
  let r := ringOf s n p
  match codePort r.home with
  | none => s
  | some x =>
    if r.portNow = 0 ∨ r.mode = .disabled ∨ !boundTo (sliceOf s n) x ∨ !portOk s x then s
    else if r.portNow = portCode x then setRing s n p { r with moveTo := none }
    else if r.debt = 0 then arrive s n p x
    else setRing s n p { r with moveTo := some x }

/-! ### Ring registers (R72 to R76) -/

/-- A pair with nothing left to complete is disabled. -/
def settleRing (s : State) (n p : Nat) : State :=
  let r := ringOf s n p
  if !r.enable && r.debt == 0 && r.mode != .disabled then
    setRing s n p { r with mode := .disabled, portNow := 0, lastPort := 0, heldError := false, fetch := none, moveTo := none }
  else s

/-- The enable of a pair is refused (R73). -/
def enableRefused (s : State) (n : Nat) (r : Ring) : Bool :=
  match codePort r.home with
  | none => true
  | some x => !boundTo (sliceOf s n) x || (sliceOf s n).mode != .active

/-- A pair is enabled: its counters are 0 and it runs on its home port, or is placed at once (R73). -/
def enableRing (s : State) (who : Party) (n p off : Nat) : State :=
  let r := ringOf s n p
  if enableRefused s n r then slcCapture s who n 0x0102 off
  else
    let x := (codePort r.home).getD .a
    let s := setRing s n p { r with
      enable := true, mode := .running, sqHead := 0, sqTail := 0, cqHead := 0, cqTail := 0, cqNext := 0, fetch := none
      portNow := portCode x, lastPort := 0, heldError := false, moveTo := none, unsig := 0, gapDb := none, gapCq := none }
    if portOk s x then s else placeFrom s n p x

/-- A pair is disabled: fetching stops. A ring in error becomes disabled like any other once nothing is owed, and takes doorbells
again only after the next enable (R73, R75; log entry 35). -/
def disableRing (s : State) (n p : Nat) : State :=
  settleRing (headGone (setRing s n p { ringOf s n p with enable := false, fetch := none }) n p) n p

/-- The fields of SLC_RING_CTL_n that can be written at any time. -/
def ringFields (r : Ring) (w : Word) : Ring :=
  { r with irqEn := bitOf w 7, vector := getF w 8 11, coalCount := getF w 19 8, coalTime := getF w 32 16 }

/-- A write of SLC_RING_CTL_n: size_code, home and the interrupt fields, then enable (R72, R73). -/
def ringCtl (who : Party) (n p : Nat) (w : Word) (s : State) : State :=
  let off := 0x218 + 0x40 * p
  let r := ringOf s n p
  let size := getF w 1 4
  let home := getF w 5 2
  let s := setRing s n p (ringFields r w)
  let s := if size = r.sizeCode then s
    else if 13 ≤ size then slcCapture s who n 0x0107 off
    else if r.mode ≠ .disabled then slcCapture s who n 0x0101 off
    else setRing s n p { ringOf s n p with sizeCode := size }
  let s := if r.enable ∧ (home = 0 ∨ home = 3) then slcCapture s who n 0x0102 off
    else setRing s n p { ringOf s n p with home := home }
  if bitOf w 0 && !r.enable then enableRing s who n p off
  else if !bitOf w 0 && r.enable then disableRing s n p
  else if r.enable ∧ home ≠ 0 ∧ home ≠ 3 then homeWritten s n p
  else s

/-- A write of a ring base or of the status address (R72). -/
def ringBase (who : Party) (n p reg : Nat) (w : Word) (s : State) : State :=
  let r := ringOf s n p
  if r.mode ≠ .disabled then slcCapture s who n 0x0101 (0x200 + 0x40 * p + reg)
  else setRing s n p (match reg with
    | 0x00 => { r with sqBase := w &&& mask 12 52 }
    | 0x08 => { r with cqBase := w &&& mask 12 52 }
    | _ => { r with stsAddr := w &&& mask 6 58 })

/-- A pair takes doorbells (R74). With enable 0 it takes none, though completions that it still owes keep its ring_state as it
was (log entry 35). -/
def takesDoorbells (s : State) (n p : Nat) : Bool :=
  let r := ringOf s n p
  r.enable && r.mode != .disabled && (sliceOf s n).mode == .active

/-- A submission doorbell, after any gap (R74). -/
def sqRing (who : Party) (n p : Nat) (v : BitVec 32) (s : State) : State :=
  let r := ringOf s n p
  let off := 0x220 + 0x40 * p
  if !takesDoorbells s n p then s
  else if ringSize r < ringDist r.sqHead v then
    let s := setRing s n p { r with mode := .error }
    raise (slcCapture s who n 0x0103 off) (pgSlc n) 2
  else if ringDist r.sqHead v < ringDist r.sqHead r.sqTail then slcCapture s who n 0x0104 off
  else setRing s n p { r with sqTail := v }

/-- A write to SLC_SQ_DB_n. During a switchover gap it is recorded for the new active die (R76). -/
def sqDb (who : Party) (n p : Nat) (w : Word) (s : State) : State :=
  if s.sw.gap.isSome then setRing s n p { ringOf s n p with gapDb := some (who, w) }
  else sqRing who n p (w.setWidth 32) s

/-- A completion doorbell, after any gap (R74). -/
def cqRing (who : Party) (n p : Nat) (v : BitVec 32) (s : State) : State :=
  let r := ringOf s n p
  if !takesDoorbells s n p then s
  else if ringDist r.cqHead r.cqTail < ringDist r.cqHead v then slcCapture s who n 0x0105 (0x228 + 0x40 * p)
  else setRing s n p { r with cqHead := v }

/-- A write to SLC_CQ_DB_n. During a switchover gap it is recorded for the new active die (R76). -/
def cqDb (who : Party) (n p : Nat) (w : Word) (s : State) : State :=
  if s.sw.gap.isSome then setRing s n p { ringOf s n p with gapCq := some (who, w) }
  else cqRing who n p (w.setWidth 32) s

/-- Pair number of a slice. -/
def pairOk (p : Nat) : Bool := decide (p < 8)

/-- A write of SLC_RING_CTL_n whose bits satisfy a condition on the pair's enable. -/
def ringRow (x : Port) (n p : Nat) (w : Word) (cond : Bool → Bool → Bool) (s : State) : State :=
  slcGate s x n (0x218 + 0x40 * p) (fun s =>
    if pairOk p && cond (ringOf s n p).enable (bitOf w 0) then ringCtl (partyOf x) n p w s else s)

def execRingEnable (port : Port) (slice pair : Nat) (ctl : Word) (s : State) : Answer :=
  endWith s (ringRow port slice pair ctl (fun was new => !was && new) s)
def execRingDisable (port : Port) (slice pair : Nat) (ctl : Word) (s : State) : Answer :=
  endWith s (ringRow port slice pair ctl (fun was new => was && !new) s)
def execRingHomeWrite (port : Port) (slice pair : Nat) (ctl : Word) (s : State) : Answer :=
  endWith s (ringRow port slice pair ctl (fun was new => was == new) s)

/-- A write of a ring register at offset `reg` of its pair: 0x00, 0x08, 0x10, or 0x18 for size_code. -/
def ringConfig (x : Port) (n p reg : Nat) (w : Word) (s : State) : State :=
  slcGate s x n (0x200 + 0x40 * p + reg) (fun s =>
    if !pairOk p then s
    else if reg = 0x00 ∨ reg = 0x08 ∨ reg = 0x10 then ringBase (partyOf x) n p reg w s
    else if reg = 0x18 then ringCtl (partyOf x) n p w s
    else s)

def execRingConfigWrite (port : Port) (slice pair reg : Nat) (value : Word) (s : State) : Answer :=
  endWith s (ringConfig port slice pair reg value s)

def execSqDoorbell (port : Port) (slice pair : Nat) (value : Word) (s : State) : Answer :=
  endWith s (slcGate s port slice (0x220 + 0x40 * pair) (fun s => if pairOk pair then sqDb (partyOf port) slice pair value s else s))
def execCqDoorbell (port : Port) (slice pair : Nat) (value : Word) (s : State) : Answer :=
  endWith s (slcGate s port slice (0x228 + 0x40 * pair) (fun s => if pairOk pair then cqDb (partyOf port) slice pair value s else s))

/-! ### Completions (R71, R77, R440) -/

/-- Sequence numbers of a pair that are assigned and whose completions are not yet owed. -/
def seqsOut (s : State) (n p : Nat) : List Nat :=
  let r := ringOf s n p
  (s.conf.steps.filterMap (fun e => if e.2.sliceNo = n ∧ e.2.pair = p then e.2.seq.filter (fun q => r.owed.all (fun o => o.seq != q)) else none)) ++
    (s.conf.refused.filterMap (fun x => if x.sliceNo = n ∧ x.pair = p then x.sent.map (fun e => e.1 + x.next) else none))

/-- The completions that the next batch holds: those before every number still out, in commit order. -/
def batchOf (s : State) (n p : Nat) : List Owed :=
  let out := seqsOut s n p
  (ringOf s n p).owed.filter (fun o => out.all (fun q => decide (o.seq < q)))

/-- Output bytes go to their segments in order. -/
def writeSegs (s : State) (x : Port) (pasid : BitVec 20) (bs : Bytes) : List SgEntry → State
  | [] => s
  | g :: r =>
    if bs.isEmpty then s
    else writeSegs (send s (.memWrite x pasid g.addr (bs.take g.len))) x pasid (bs.drop g.len) r

/-- One completion is written: its output segments, then its 64 bytes at its entry. -/
def writeOwed (n p : Nat) (x : Port) (s : State) (o : Owed) : State :=
  let r := ringOf s n p
  let pasid := pasidOn (sliceOf s n) x
  let s := writeSegs s x pasid o.ext o.segs
  send s (.memWrite x pasid (r.cqBase.toNat + o.entry % ringSize r * 64) o.bytes)

/-- The context and the cells of a step whose completion has been written are free (R37, R323). -/
def releaseStep (s : State) (k : Nat) : State :=
  match stepOf s k with
  | none => s
  | some t =>
    let sl := sliceOf s t.sliceNo
    let freesCtx := !t.sequential || t.index == t.last
    let s := setSlice s t.sliceNo { sl with
      cells := sl.cells - stepCells (dSgCount t.desc), contexts := if freesCtx then sl.contexts - 1 else sl.contexts }
    let s := dropPass s k
    let s := if freesCtx then { s with conf := { s.conf with ctxs := mdel s.conf.ctxs (ctxOf k) } } else s
    delStep s k

/-- The interrupt of a pair is due after a batch (R77). A coal_time of 0 means none (Table 8). -/
def irqDue (s : State) (r : Ring) (signal : Bool) : Bool :=
  r.irqEn && decide (0 < r.unsig) &&
    (signal || decide (r.coalCount + 1 ≤ r.unsig) || (r.coalTime != 0 && decide (r.coalTime * 100 ≤ s.nt.ns - r.unsigNt)))

/-- The interrupt of a pair. -/
def ringIrq (s : State) (n p : Nat) (x : Port) : State :=
  let r := ringOf s n p
  msixSend (setRing s n p { r with unsig := 0 }) x 1 r.vector

/-- The counters of a pair after a batch. -/
def countBatch (s : State) (r : Ring) (b : List Owed) : Ring :=
  let fresh := (b.filter (fun o => !o.again)).length
  { r with
    cqTail := r.cqTail + BitVec.ofNat 32 fresh
    lastSeq := (b.map (·.seq)).foldl max r.lastSeq
    owed := r.owed.filter (fun o => !b.contains o), debt := r.debt - fresh
    uncovered := if duplex s then r.uncovered ++ b else []
    unsig := r.unsig + b.length, unsigNt := if r.unsig = 0 then s.nt.ns else r.unsigNt }

/-- The ring status block (Table 4). -/
def statusBlock (r : Ring) : Bytes := leBytes 4 r.sqHead.toNat ++ leBytes 4 r.cqTail.toNat ++ leBytes 8 r.lastSeq

/-- A batch is written: the completions with their output, the status block, and the interrupt; the boundary after it moves
the pair where its home was written (R71, R77, R78). -/
def writeBatch (s : State) (n p : Nat) (x : Port) (b : List Owed) : State :=
  let s := b.foldl (writeOwed n p x) s
  let r := countBatch s (ringOf s n p) b
  let s := setRing s n p r
  let s := send s (.memWrite x (pasidOn (sliceOf s n) x) r.stsAddr.toNat (statusBlock r))
  let s := if duplex s then mirrorSend s (.delivered (ringKey n p) r.cqTail.toNat r.lastSeq) else s
  let s := if irqDue s r (b.any (·.signal)) then ringIrq s n p x else s
  let s := (b.filterMap (·.step)).foldl releaseStep s
  let s := match (ringOf s n p).moveTo with
    | some y => if portOk s y then arrive s n p y else setRing s n p { ringOf s n p with moveTo := none }
    | none => s
  settle (relist (settleRing s n p) n)

/-- A batch of completions of a pair is written. -/
def batchWrite (n p : Nat) (s : State) : State :=
  if !serving s then s
  else match codePort (ringOf s n p).portNow with
    | none => s
    | some x =>
      let b := batchOf s n p
      if b.isEmpty || !portMoves s x then s else writeBatch s n p x b

def execCompletionBatchWrite (slice pair : Nat) (s : State) : Answer := endWith s (batchWrite slice pair s)

/-- coal_time has elapsed since the first completion that is not signalled (R77). -/
def coalesceExpiry (n p : Nat) (s : State) : State :=
  let r := ringOf s n p
  match codePort r.portNow with
  | none => s
  | some x =>
    if r.irqEn && r.coalTime != 0 && decide (0 < r.unsig) && portMoves s x && serving s then ringIrq (reach s (r.unsigNt + r.coalTime * 100)) n p x else s

def execCoalesceTimerExpiry (slice pair : Nat) (s : State) : Answer := endWith s (coalesceExpiry slice pair s)

/-! ### Slice reset (R65, R81, R82) -/

/-- The slice fetches nothing more: its heads are dropped. -/
def stopFetch (s : State) (n : Nat) : State :=
  let s := unlist ((List.range 8).foldl (fun s p => setRing s n p { ringOf s n p with fetch := none }) s) n
  setSlice s n (noWait (sliceOf s n))

/-- Uncommitted requests of a slice end with ST_SLICE_RESET, its data passes are abandoned with it, and its streams close
(R81, R225, R229). -/
def squashSteps (s : State) (n : Nat) : State :=
  let s := abandonAll s (fun p => p.sliceNo == n) stSliceReset
  let s := { s with streams := s.streams.filter (fun e => e.2.slice != n) }
  settle (endAll s (fun _ t => t.sliceNo == n && !isCommitted t) stSliceReset)

/-- A drain command: it acts in ACTIVE only. -/
def drainSlice (s : State) (n : Nat) : State :=
  let sl := sliceOf s n
  if sl.mode = .active then stopFetch (setSlice s n { sl with mode := .draining, squashed := 0, unwritten := 0 }) n else s

/-- A squash command: it acts in ACTIVE, and converts a drain. -/
def squashSlice (s : State) (n : Nat) : State :=
  let sl := sliceOf s n
  if sl.mode = .active then squashSteps (stopFetch (setSlice s n { sl with mode := .squashing, squashed := 0, unwritten := 0 }) n) n
  else if sl.mode = .draining then squashSteps (setSlice s n { sl with mode := .squashing }) n
  else s

/-- The hold bit is written; 0 in QUIESCED returns the slice to ACTIVE. -/
def holdSlice (s : State) (n : Nat) (h : Bool) : State :=
  let sl := sliceOf s n
  setSlice s n { sl with hold := h, mode := if !h && sl.mode == .quiesced then .active else sl.mode }

/-- A write of SLC_CTL: hold, then drain, then squash. -/
def slcCtl (n : Nat) (w : Word) (s : State) : State :=
  let s := holdSlice s n (bitOf w 2)
  let s := if bitOf w 0 then drainSlice s n else s
  if bitOf w 1 then squashSlice s n else s

def execSliceDrain (port : Port) (slice : Nat) (ctl : Word) (s : State) : Answer :=
  endWith s (slcGate s port slice 0x108 (fun s => if bitOf ctl 0 then slcCtl slice ctl s else s))
def execSliceSquash (port : Port) (slice : Nat) (ctl : Word) (s : State) : Answer :=
  endWith s (slcGate s port slice 0x108 (fun s => if bitOf ctl 1 then slcCtl slice ctl s else s))
def execSliceHoldWrite (port : Port) (slice : Nat) (ctl : Word) (s : State) : Answer :=
  endWith s (slcGate s port slice 0x108 (fun s => if bitOf ctl 0 || bitOf ctl 1 then s else slcCtl slice ctl s))

/-- The completions that a pair owes are discarded: their contexts and cells are free (R82). -/
def discardOwed (s : State) (n p : Nat) (x : Port) : State :=
  let r := ringOf s n p
  let lost := r.owed.length
  let fresh := (r.owed.filter (fun o => !o.again)).length
  let s := (r.owed.filterMap (·.step)).foldl releaseStep s
  let s := setRing s n p { r with owed := [], debt := r.debt - fresh }
  let sl := sliceOf s n
  let s := setSlice s n { sl with unwritten := min (sl.unwritten + lost) 0xFFFF }
  bump s (pgPort x + 0x108) 48 16 lost

/-- While PF1 of a port is in reset, completions of the slices that it squashes and that no port can carry are discarded. -/
def flrDiscard (s : State) (n : Nat) (x : Port) : State :=
  let ps := portOf s x
  if ps.flr && ps.flrWait.contains n then
    (List.range 8).foldl (fun s p => if unplaced (ringOf s n p) then discardOwed s n p x else s) s
  else s

/-- Nothing of the slice is admitted, and every completion that it owed is written. -/
def resetDone (s : State) (n : Nat) : Bool :=
  s.conf.steps.all (fun e => e.2.sliceNo != n) && s.conf.refused.all (fun r => r.sliceNo != n) &&
    (List.range 8).all (fun p => (ringOf s n p).debt == 0 && (ringOf s n p).owed.isEmpty)

/-- A pair is disabled at the end of a reset; its counters keep their values. -/
def endPair (r : Ring) : Ring :=
  { r with enable := false, mode := .disabled, portNow := 0, lastPort := 0, heldError := false, fetch := none, moveTo := none, unsig := 0 }

/-- The FLR of a port waits for a slice no longer (R82). -/
def flrSliceDone (s : State) (n : Nat) (x : Port) : State :=
  let ps := portOf s x
  if ps.flr && ps.flrWait.contains n then
    let w := ps.flrWait.filter (fun y => y != n)
    let s := setPort s x { ps with flrWait := w, flr := !w.isEmpty }
    if w.isEmpty then portBack (send s (.flrDone x 1)) x else s
  else s

/-- A reset ends (step 4 of R81). -/
def resetEnd (n : Nat) (s : State) : State :=
  let s := flrDiscard (flrDiscard s n .a) n .b
  let sl := sliceOf s n
  if (sl.mode = .draining ∨ sl.mode = .squashing) ∧ resetDone s n = true then
    let s := (List.range 8).foldl (fun s p => setRing s n p (endPair (ringOf s n p))) s
    let s := setSlice s n { sliceOf s n with mode := if sl.hold then .quiesced else .active }
    let s := raise s (pgSlc n) 1
    flrSliceDone (flrSliceDone s n .a) n .b
  else s

def execSliceResetEnd (slice : Nat) (s : State) : Answer := endWith s (resetEnd slice s)

/-! ### Management registers of the ports (R79, R81) -/

/-- The block of a port's pages. -/
def portBlock : Port → Block
  | .a => .pta
  | .b => .ptb

/-- A pair homed on a port returns when evacuate is written 0 (R79). -/
def returnHome (s : State) (x : Port) : State :=
  (pairsOf s (fun _ r => r.enable && r.home == portCode x && r.portNow != portCode x)).foldl (fun s i => homeWritten s (i / 8) (i % 8)) s

/-- A write of PTx_CTL. -/
def portCtl (x : Port) (w : Word) (s : State) : State :=
  let was := evacuated s x
  let s := wr s (pgPort x + 0x110) (w &&& mask 0 2)
  if bitOf w 1 then (if was then s else portGone s x) else returnHome (portBack s x) x

def execPortEvacuateWrite (who : Party) (port : Port) (ctl : Word) (s : State) : Answer :=
  endWith s (gateWrite s who (portBlock port) (pgPort port) 0x110 true (portCtl port ctl))

/-- A write of PTx_SLICE_RESET (Table 15): it may name any existing slice. -/
def portReset (w : Word) (s : State) : State :=
  let n := getF w 0 10
  let kind := getF w 10 2
  if (sliceOf s n).mode = .absent ∨ (kind ≠ 1 ∧ kind ≠ 2) then s
  else
    let s := holdSlice s n (bitOf w 12)
    if kind = 1 then drainSlice s n else squashSlice s n

def portResetRow (who : Party) (x : Port) (w : Word) (kind : Nat) (s : State) : State :=
  if getF w 10 2 = kind then gateWrite s who (portBlock x) (pgPort x + 0x1000) 0x110 true (portReset w) else s

def execPtxSliceResetDrain (who : Party) (port : Port) (value : Word) (s : State) : Answer := endWith s (portResetRow who port value 1 s)
def execPtxSliceResetSquash (who : Party) (port : Port) (value : Word) (s : State) : Answer := endWith s (portResetRow who port value 2 s)

/-! ### Semaphores (R84 to R86) -/

/-- Semaphore lease in ns. -/
def leaseNs (s : State) : Nat := getF (rd s (pgSem + 0x200)) 0 24 * 1000

/-- A semaphore is free; semaphore 0 passes to a waiting warden. -/
def semFree (s : State) (n : Nat) : State :=
  let s := setSem s n {}
  if n = 0 ∧ s.wardenWaiting = true then { setSem s 0 { holder := some .warden, leaseEnd := 0 } with wardenWaiting := false } else s

/-- A semaphore is released by expiry, link loss or FLR: SEM raises its event and the journal takes a record (R85). -/
def semLost (s : State) (n : Nat) : State :=
  let h := semOf s n
  journal (raise (semFree s n) pgSem 1) (jev 0x0202 1 (match h.holder with | some w => partySource w | none => 2) (detail 0 n 0 0 0))

/-- Every semaphore that a port holds is released. -/
def releaseSems (s : State) (x : Port) : State :=
  (mkeys s.sems (fun _ m => m.holder == some (partyOf x))).foldl semLost s

/-- A take (R84): granted while free, renewed for the holder; semaphore 0 is not granted while the warden waits. -/
def takeSem (who : Party) (n : Nat) (s : State) : State :=
  match (semOf s n).holder with
  | none => if n = 0 ∧ s.wardenWaiting = true then s else setSem s n { holder := some who, leaseEnd := s.nt.ns + leaseNs s }
  | some h => if h = who then setSem s n { holder := some who, leaseEnd := s.nt.ns + leaseNs s } else s

def releaseSem (who : Party) (n : Nat) (s : State) : State := if holds s n who then semFree s n else s
def renewSem (who : Party) (n : Nat) (s : State) : State :=
  if holds s n who then setSem s n { holder := some who, leaseEnd := s.nt.ns + leaseNs s } else s

/-- A write of SEM_n: one command; several at once are captured with cause 0x0101. -/
def semWrite (who : Party) (n : Nat) (w : Word) (s : State) : State :=
  let c := getF w 0 3
  if c = 1 then takeSem who n s
  else if c = 2 then releaseSem who n s
  else if c = 4 then renewSem who n s
  else if c = 0 then s
  else captureAt s pgSem who 0x0101 (pgSem + 0x100 + 8 * n)

def semRow (who : Party) (n : Nat) (w : Word) (s : State) : State :=
  if n < 32 then gateWrite s who .sem pgSem (0x100 + 8 * n) false (semWrite who n w) else s

def execSemTake (port : Port) (n : Nat) (s : State) : Answer := endWith s (semRow (partyOf port) n 1 s)
/-- The warden's release is its own act: it does not pass through a port. -/
def execSemRelease (who : Party) (n : Nat) (s : State) : Answer := endWith s (semRow who n 2 s)
def execSemRenew (port : Port) (n : Nat) (s : State) : Answer := endWith s (semRow (partyOf port) n 4 s)

/-- A lease runs out: the semaphore is released and counted. The warden's never does. -/
def semExpiry (n : Nat) (s : State) : State :=
  match (semOf s n).holder with
  | none => s
  | some .warden => s
  | some _ => bump (semLost (reach s (semOf s n).leaseEnd) n) (pgSem + 0x208) 0 16 1

def execSemLeaseExpiry (n : Nat) (s : State) : Answer := endWith s (semExpiry n s)

/-- The warden takes semaphore 0 for its work, or waits for its next release (R86). -/
def execWardenSemTake (s : State) : Answer := endWith s (wardenTake s)

/-! ### Link events and function level resets (R79, R82, R85) -/

/-- A port's link goes down. In a gap its pairs move at the end (R442). -/
def linkDown (x : Port) (s : State) : State :=
  if !(portOf s x).linkUp then s
  else
    let s := setPort s x { portOf s x with linkUp := false, speed := 0, width := 0, d3 := [] }
    let s := raise s (pgPort x) 1
    releaseSems (if s.sw.gap.isSome then s else portGone s x) x

def execPortLinkDown (port : Port) (s : State) : Answer := endWith s (linkDown port s)

/-- A port's link comes up: pairs that are held may run there. -/
def linkUpAt (x : Port) (speed width : Nat) (s : State) : State :=
  if !s.supply.vin || (portOf s x).linkUp || !([1, 2, 4, 8].contains width) || speed == 0 || decide (5 < speed) then s
  else
    let ps := portOf s x
    let s := setPort s x { ps with
      linkUp := true, speed := speed, width := width, trained := true, d3 := []
      retrains := if ps.trained then min (ps.retrains + 1) 0xFFFF else ps.retrains }
    let s := raise s (pgPort x) 2
    if s.sw.gap.isSome then s else portBack s x

def execPortLinkUp (port : Port) (speed width : Nat) (s : State) : Answer := endWith s (linkUpAt port speed width s)

/-- The slices for which a port carries a pair. -/
def carriedSlices (s : State) (x : Port) : List Nat :=
  ((pairsOf s (fun _ r => r.portNow == portCode x && r.mode != .disabled)).map (fun i => i / 8)).eraseDups

/-- The configuration and the MSI-X table of a function are reset, and it is in D0 (R82). -/
def portFnReset (ps : PortState) (fn : Nat) : PortState :=
  { ps with
    msix := ps.msix.filter (fun e => if fn = 0 then decide (128 ≤ e.1) else decide (e.1 < 128))
    cfg := ps.cfg.filter (fun e => e.1 / 0x1000 != fn), d3 := ps.d3.filter (fun f => f != fn)
    roEnable := ps.roEnable || fn == 1 }

/-- A Function Level Reset of PF1: every slice for which the port carries a pair is squashed, its pairs move, and the owed
completions of pairs that cannot move are discarded (R82). -/
def flrOne (x : Port) (s : State) : State :=
  if !(portOf s x).linkUp || (portOf s x).flr then s
  else
    let ns := carriedSlices s x
    let pairs := pairsOf s (fun _ r => r.portNow == portCode x && r.mode != .disabled)
    let s := setPort s x { portFnReset (portOf s x) 1 with flr := true, flrWait := ns }
    let s := ns.foldl squashSlice s
    let s := portGone s x
    let s := pairs.foldl (fun s i => if unplaced (ringOf s (i / 8) (i % 8)) then discardOwed s (i / 8) (i % 8) x else s) s
    if ns.isEmpty then portBack (send (setPort s x { portOf s x with flr := false }) (.flrDone x 1)) x else s

def execFlrPf1 (port : Port) (s : State) : Answer := endWith s (flrOne port s)

/-- D3hot of a function is handled as a link loss of that function (R60): PF1's pairs move or are held, and PF0's semaphores are
released. -/
def fnSleep (x : Port) (fn : Nat) (s : State) : State :=
  let s := setPort s x { portOf s x with d3 := fn :: (portOf s x).d3 }
  let s := raise s (pgPort x) 1
  if fn = 0 then releaseSems s x else if s.sw.gap.isSome then s else portGone s x

/-- A function returns to D0. -/
def fnWake (x : Port) (fn : Nat) (s : State) : State :=
  let s := setPort s x { portOf s x with d3 := (portOf s x).d3.filter (fun f => f != fn) }
  let s := raise s (pgPort x) 2
  if fn = 0 ∨ s.sw.gap.isSome = true then s else portBack s x

/-- A Function Level Reset of PF0: its configuration and MSI-X table are reset, and its semaphores released. -/
def flrZero (x : Port) (s : State) : State :=
  if !(portOf s x).linkUp then s
  else
    send (releaseSems (setPort s x (portFnReset (portOf s x) 0)) x) (.flrDone x 0)

def execFlrPf0 (port : Port) (s : State) : Answer := endWith s (flrZero port s)

end Sys2Proof.Machine
end

