-- ==== Sys2Proof/Machine/Pci.lean ====
section
/-!
DEFINITION. The configuration space of PF0 and PF1 (R59, R60): the identities of Table 1, the capabilities of Table 2 and no
others, the Enable Relaxed Ordering bit of R62, Function Level Reset and the power states D0 and D3hot. Where each capability
stands, and the fields that PCIe gives it, follow PCIe (PRESUMED, log entry 58).
-/
namespace Sys2Proof.Machine

/-! ### Where the capabilities stand -/

def capPm : Nat := 0x40
def capMsix : Nat := 0x50
def capPcie : Nat := 0x70
def capAer : Nat := 0x100
def capPasid : Nat := 0x150

/-- Device Control of a function: Enable Relaxed Ordering set, and a maximum read request of 512 bytes. -/
def deviceCtl : Nat := capPcie + 8

/-- Power Management Control and Status. -/
def powerCtl : Nat := capPm + 4

/-- What a 4-byte register of configuration space reads where nothing has been written. A register not listed is reserved. -/
def cfgReset (fn off : Nat) : BitVec 32 :=
  if off = 0x00 then (if fn = 0 then 0x91001E5B else 0x91011E5B)
  else if off = 0x04 then 0x00100000
  else if off = 0x08 then 0x10800000
  else if off = 0x0C then 0x00800000
  else if off = 0x10 then (if fn = 0 then 4 else 0)
  else if off = 0x18 then (if fn = 0 then 0 else 4)
  else if off = 0x20 then 4
  else if off = 0x34 then BitVec.ofNat 32 capPm
  -- power management: D3hot keeps the configuration
  else if off = capPm then 0x00035001
  else if off = powerCtl then 0x00000008
  -- MSI-X: one vector fewer than the table holds, the table at 0 and the pending bits at 0x8000 of BAR4
  else if off = capMsix then (if fn = 0 then 0x007F7011 else 0x077F7011)
  else if off = capMsix + 4 then 0x00000004
  else if off = capMsix + 8 then 0x00008004
  -- PCIe: payloads to 512 bytes, Function Level Reset, links to x8 at 32 GT/s without ASPM, 10-bit tags
  else if off = capPcie then 0x00020010
  else if off = capPcie + 4 then 0x10008022
  else if off = deviceCtl then 0x00002010
  else if off = capPcie + 0x0C then 0x00000085
  else if off = capPcie + 0x24 then 0x00030000
  else if off = capPcie + 0x2C then 0x0000003E
  else if off = capPcie + 0x30 then 0x00000005
  -- AER, and the PASID capability of PF1: 20 bits, no Execute, no Privileged Mode
  else if off = capAer then (if fn = 0 then 0x00020001 else 0x15020001)
  else if fn = 1 ∧ off = capPasid then 0x0001001B
  else if fn = 1 ∧ off = capPasid + 4 then 0x00001400
  else 0

/-- The bits of a register that a configuration write replaces. -/
def cfgMask (fn off : Nat) : BitVec 32 :=
  if off = 0x04 then 0x00000546
  else if off = 0x10 then (if fn = 0 then 0xFC000000 else 0)
  else if off = 0x14 then (if fn = 0 then 0xFFFFFFFF else 0)
  else if off = 0x18 then (if fn = 0 then 0 else 0xFFC00000)
  else if off = 0x1C then (if fn = 0 then 0 else 0xFFFFFFFF)
  else if off = 0x20 then 0xFFFF0000
  else if off = 0x24 then 0xFFFFFFFF
  else if off = capMsix then 0xC0000000
  else if off = deviceCtl then 0x000070FF
  else if off = capPcie + 0x28 then 0x00001000
  else if off = capPcie + 0x30 then 0x0000000F
  else if off = capAer + 8 ∨ off = capAer + 12 ∨ off = capAer + 20 then 0xFFFFFFFF
  else if fn = 1 ∧ off = capPasid + 4 then 0x00010000
  else 0

/-- A 4-byte register of configuration space as it reads now. -/
def cfgWord (ps : PortState) (fn off : Nat) : BitVec 32 :=
  let v := sget (cfgReset fn) (ps.cfg.filterMap (fun e => if e.1 / 0x1000 = fn then some (e.1 % 0x1000, e.2) else none)) off
  if off = powerCtl then v ||| (if ps.d3.contains fn then 3 else 0)
  else if off = deviceCtl ∧ fn = 1 then (v &&& 0xFFFFFFEF) ||| (if ps.roEnable then 0x10 else 0)
  else if off = capPcie + 0x10 then (if ps.linkUp then BitVec.ofNat 32 ((ps.speed + 16 * ps.width) * 0x10000) else 0)
  else v

/-- The bits that an access of 1, 2 or 4 bytes at an offset covers in its register. -/
def cfgLanes (off size : Nat) : BitVec 32 := BitVec.ofNat 32 ((2 ^ (8 * size) - 1) * 2 ^ (8 * (off % 4)))

/-- A configuration access of 1, 2 or 4 bytes, naturally aligned, within the 4 KiB of a function. -/
def cfgOk (off size : Nat) : Bool := (size == 1 || size == 2 || size == 4) && off % size == 0 && decide (off < 0x1000)

/-- A write of the bits `lanes` of a register: its fields are replaced, then a power state is entered or left, or a Function Level
Reset begins. -/
def cfgWrite (x : Port) (fn off : Nat) (lanes w : BitVec 32) (s : State) : State :=
  let ps := portOf s x
  let now := cfgWord ps fn off
  let m := lanes &&& cfgMask fn off
  let v := (now &&& ~~~m) ||| (w &&& m)
  if off = powerCtl then
    if lanes &&& 3 = 0 then s
    else if w &&& 3 = 3 ∧ ps.d3.contains fn = false then fnSleep x fn s
    else if w &&& 3 = 0 ∧ ps.d3.contains fn = true then fnWake x fn s
    else s
  else
    let ro := if off = deviceCtl ∧ fn = 1 then v &&& 0x10 != 0 else ps.roEnable
    let s := setPort s x { ps with cfg := mput ps.cfg (fn * 0x1000 + off) v, roEnable := ro }
    if off = deviceCtl ∧ lanes &&& w &&& 0x8000 ≠ 0 then (if fn = 0 then flrZero x s else flrOne x s) else s

/-- An access to the configuration space of a function. One whose size or alignment PCIe does not form changes nothing. -/
def cfgAccess (x : Port) (fn : Nat) (acc : HostAccess) (s : State) : State :=
  if !(portOf s x).linkUp || !cfgOk acc.addr acc.size then s
  else
    let off := acc.addr / 4 * 4
    if acc.write then cfgWrite x fn off (cfgLanes acc.addr acc.size) ((acc.data.setWidth 32) <<< (8 * (acc.addr % 4))) s
    else answer s (partyOf x) (((cfgWord (portOf s x) fn off &&& cfgLanes acc.addr acc.size) >>> (8 * (acc.addr % 4))).setWidth 64)

end Sys2Proof.Machine
end

