-- ==== Sys2Proof/Machine/Passes.lean ====
section
/-!
DEFINITION. Streaming pipelines (R218, R225 to R229, R339, R368 to R370): data passes, sealing jobs, the sweep of the buffer
translation cache and the idle close of streams.
-/
namespace Sys2Proof.Machine

/-! ### Acceptance (R228) -/

/-- The chain value with which a step's pass begins: its stream's, or its own. -/
def passChain (s : State) (t : Step) : Bytes :=
  if dOp t.desc = 0x0412 then (match streamOf s t.sliceNo (leAt t.desc 64 4) with | some x => x.chain | none => zeros 16)
  else cut t.desc 80 16

/-- The data pass of a bulk step on a pipeline. -/
def passOf (s : State) (k i : Nat) (t : Step) (x : Port) : Pass :=
  let key := boundKey s t 0
  let tr := t.trans.getD []
  { step := k, pipe := i, level := t.level, sliceNo := t.sliceNo, port := x
    slot := (match boundAt t 0 with | some b => b.slot | none => 0), gen := genAt t 0, key := key.material
    mode := bulkMode s t, chain := passChain s t, src := sgIn tr, dst := sgOut tr, len := leAt t.desc 72 8, acceptNt := s.nt.ns }

/-- Bytes that a port carries in 4 ms: 24 GB/s at the rated PCIe 5.0 x8 (R38), and an open value at any other speed or width
(log entry 29). -/
def portBytes (speed width : Nat) : Nat := if speed = 5 ∧ width = 8 then 96000000 else Config.portCarries speed width

/-- The port takes a further pass: the bytes accepted and not finished stay within what it carries in 4 ms, and none was
accepted 2 ms earlier or more. -/
def portTakes (s : State) (x : Port) (len : Nat) : Bool :=
  let l := s.passes.filter (fun p => p.port == x)
  decide ((l.map (·.len)).foldl (· + ·) len ≤ portBytes (portOf s x).speed (portOf s x).width) &&
    l.all (fun p => decide (s.nt.ns - p.acceptNt < 2000000))

/-- A pipeline accepts the data pass at the head of the most urgent pipeline ready list. A pass that was accepted before, and
starts again from its first byte, goes on at once (R228, R448). -/
def passAccept (i : Nat) (s : State) : State :=
  if !serving s then s
  else match headOfLists s.conf.pipeReady with
    | none => s
    | some k =>
      match stepOf s k with
      | none => offLists s k
      | some t =>
        match stepPort s t with
        | none => s
        | some x =>
          if hasPass s k then
            if pipeTakes s i t.level then placeOn (setPipeList s t.level ((listOf s.conf.pipeReady t.level).filter (fun y => y != k))) i k else s
          else if !(portTakes s x (leAt t.desc 72 8) && pipeTakes s i t.level) then s
          else
            let s := setPipeList s t.level ((listOf s.conf.pipeReady t.level).filter (fun y => y != k))
            let s := { s with passes := s.passes ++ [passOf s k i t x] }
            let s := startOn (setStep s k { t with accepted := true }) i k
            traceStep s k 4 i 0

def execDataPassAccept (pipe : Nat) (s : State) : Answer := endWith s (passAccept pipe s)

/-! ### The pass (R226, R227, R368) -/

/-- The CBC decipherment of whole blocks. -/
def cbcOpen (key chain : Bytes) : List Bytes → Bytes
  | [] => []
  | b :: r => xorB (aesDec key b) chain ++ cbcOpen key b r

/-- The CTR encipherment of blocks. In modes 0x01 and 0x02 the low 64 bits count blocks, in mode 0x04 all 128 do. -/
def ctrRun (key chain : Bytes) : List Bytes → Bytes
  | [] => []
  | b :: r => xorB b (aesEnc key chain) ++ ctrRun key (ctrPlus chain 1) r

/-- The output of a pass: a pure function of its parameters and its source. -/
def passBytes (p : Pass) (src : Bytes) : Bytes :=
  let bs := padTo p.len src
  if p.mode = 3 then cbcOpen p.key p.chain (chunks 16 bs) else ctrRun p.key p.chain (chunks 16 bs)

/-- The pass that a pipeline runs, once its commit has started it; a seal or open job suspends it (R369). -/
def runningPass (s : State) (i : Nat) : Option Pass :=
  if (pipeOf s i).sealing.isSome then none
  else (pipeOf s i).running.bind (fun k => s.passes.find? (fun p => p.step == k && p.started))

/-- A pass's reads of its source. -/
def passReads (s : State) (p : Pass) : State := p.src.foldl (fun s g => readFrom s p.sliceNo p.port g.addr g.len) s

/-- A pass's source has arrived: the destination is written, and then the step's completion is owed. -/
def finishPass (s : State) (i : Nat) (p : Pass) (src : Bytes) : State :=
  match stepOf s p.step with
  | none => s
  | some t =>
    match t.result, t.seq with
    | some r, some seq =>
      let s := writeSegs s p.port (pasidOn (sliceOf s p.sliceNo) p.port) (passBytes p src) p.dst
      let s := bump s (pgStp (curDie s) i + 0x108) 0 64 p.len
      owe (dropPass s p.step) t.sliceNo t.pair (owedOf p.step t r t.final seq)
    | _, _ => s

/-- No bound port of a step's slice is up: its reads fail (R94). -/
def portless (s : State) (k : Nat) : Bool :=
  match stepOf s k with
  | some t => (stepPort s t).isNone
  | none => false

/-- A pass finishes. `data` is the source as the host answers, or nothing where a read or a write fails; with no bound port up
the read fails. A pass whose port is down while another carries its pair starts again there first (R228). -/
def passDone (i : Nat) (data : Option Bytes) (s : State) : State :=
  match runningPass s i with
  | none => s
  | some p =>
    if !serving s then s
    else if portless s p.step then settle (abandonPass s p.step stDataFetch)
    else if !portMoves s p.port then s
    else
      let s := passReads s p
      match data with
      | none => settle (abandonPass s p.step stDataFetch)
      | some src => settle (finishPass s i p src)

def execDataPassDone (pipe : Nat) (data : Option (List Byte)) (s : State) : Answer := endWith s (passDone pipe data s)

/-- A pass that is unfinished 10 ms after its step's activation is abandoned (R229). -/
def passAbandon (k : Nat) (s : State) : State :=
  match stepOf s k with
  | none => s
  | some t => if hasPass s k then settle (abandonPass (reach s (t.actNt + 10000000)) k stExecLimit) else s

def execDataPassAbandon (k : Nat) (s : State) : Answer := endWith s (passAbandon k s)

/-- The port of a running pass has lost its link: the pass starts again on the port that carries its pair now (R228). -/
def passPortLoss (i : Nat) (s : State) : State :=
  match runningPass s i with
  | none => s
  | some p =>
    if portMoves s p.port then s
    else match stepOf s p.step with
      | none => s
      | some t =>
        match stepPort s t with
        | none => s
        | some x => { s with passes := s.passes.map (fun q => if q.step = p.step then { q with port := x } else q) }

def execDataPassPortLoss (pipe : Nat) (s : State) : Answer := endWith s (passPortLoss pipe s)

/-! ### Seal and open jobs (R233, R234, R249, R339, R369) -/


/-- Write `ix` of a mark is sealed for its slot, with a fresh seal number. -/
def sealWrite (s : State) (m ix : Nat) : State :=
  match mget s.kst.marks m with
  | none => s
  | some x =>
    match x.writes[ix]? with
    | none => s
    | some w =>
      let (n, s) := takeSeal s
      let x := { x with writes := x.writes.set ix { w with frame := sealedFrame s w.slot n w.frame.body } }
      let s := { s with kst := { s.kst with marks := mput s.kst.marks m x } }
      if x.writes.any unsealed then s else framesSealed s m x

/-- A frame of a group is open. With the last of them the group's entry is loaded, and the bindings that wait go on. -/
def frameOpened (s : State) (slot gen : Nat) : State :=
  match currentAt s slot gen with
  | some r => if isOpening s slot gen || underRepair s slot r then s else rebind ((cacheLoad s slot gen r).getD s)
  | none => if isOpening s slot gen then s else rebind s

/-- The work of a job that ends. -/
def jobWork (s : State) : FrameJob → State
  | .sealWrite m ix => sealWrite s m ix
  | .openFrame slot gen _ => frameOpened s slot gen
  | .void => s

/-- The seal or open job of a pipeline ends, 240 engine cycles (150 ns) after its start: its frame is sealed or opened and
counted, the pass that it suspended goes on, and jobs that wait start. -/
def sealJob (i : Nat) (s : State) : State :=
  match (pipeOf s i).sealing with
  | none => s
  | some (j, t) =>
    if !serving s then s
    else
      let s := reach s t
      let s := bump (setPipe s i { pipeOf s i with sealing := none }) (pgStp (curDie s) i + 0x110) 32 32 1
      settle (startJobs 6 (jobWork s j))

def execSealJob (pipe : Nat) (s : State) : Answer := endWith s (sealJob pipe s)

/-! ### Sweep and idle streams (R218, R225) -/

/-- At each whole millisecond of NT every page filled before that instant is invalid. -/
def btcSweep (s : State) : State :=
  if !serving s then s
  else
    let ms := s.nt.ns / 1000000 * 1000000
    { s with btc := s.btc.map (fun p => if p.filled < ms then { p with valid := false } else p) }

def execBtcSweep (s : State) : Answer := endWith s (btcSweep s)

/-- A stream closes 60 s of NT after its last committed segment. -/
def streamIdle (id : Nat) (s : State) : State :=
  match mget s.streams id with
  | some x => if serving s then { reach s (x.lastNt + 60000000000) with streams := mdel s.streams id } else s
  | none => s

def execStreamIdleClose (stream : Nat) (s : State) : Answer := endWith s (streamIdle stream s)

end Sys2Proof.Machine
end

