-- ==== Sys2Proof/Machine/KeyRows.lean ====
section
/-!
DEFINITION. Rows of the key store (R235, R245, R247 to R250, R259 to R262): the steps of a key transaction, internal
transactions, withdrawal, and the repair of frames.
-/
namespace Sys2Proof.Machine

/-! ### The steps of a key transaction (R259) -/

/-- The FRAME record of a mark has not been applied. -/
def frameSent (s : State) (m : Nat) : Bool := s.sw.recs.any (fun r => r.body == .frame m)

/-- Step 2 is done: every die required holds the new frames, and the commit record may leave. -/
def framesWritten (m : Nat) (s : State) : State :=
  match mget s.kst.marks m with
  | none => s
  | some x =>
    if !serving s || x.framesHeld || x.writes.any unsealed || frameSent s m then s
    else settle { s with kst := { s.kst with marks := mput s.kst.marks m { x with framesHeld := true } } }

def execKeyTxnFramesWritten (mark : Nat) (s : State) : Answer := endWith s (framesWritten mark s)

/-- A commit record of a mark has not been acknowledged. -/
def commitSent (s : State) (m : Nat) (x : Mark) : Bool :=
  s.sw.recs.any (fun r => match r.body, x.kind with
    | .commit k, .step j => k == j
    | .commitInternal n, _ => n == m
    | _, _ => false)

/-- A numbered step that has not committed holds one of the slots that a transaction withdraws: it commits first (R248). -/
def heldAhead (s : State) (x : Mark) : Bool :=
  x.withdraws && s.conf.steps.any (fun e => e.2.seq.isSome && !isCommitted e.2 && x.kind != .step e.1 &&
    e.2.bound.any (fun b => !b.target && x.writes.any (fun w => w.slot == b.slot)))

/-- The transaction may be set FLIPPED: its commit record is acknowledged, or in simplex running its request may commit. -/
def mayFlip (s : State) (m : Nat) (x : Mark) : Bool :=
  serving s && !x.flipped && x.framesHeld && !heldAhead s x &&
    (if x.seq = 0 then
      !duplex s && (match x.kind with
        | .step k => (match stepOf s k with | some t => awaitsCommit s t | none => false)
        | _ => true)
     else !commitSent s m x)

/-- In simplex running the number is taken at the flip. -/
def numberMark (s : State) (m : Nat) (x : Mark) : State :=
  if x.seq ≠ 0 then s
  else match x.kind with
    | .step k => numberStep s k
    | _ =>
      let (seq, s) := takeCommit s
      numberTxn s m seq

/-- Step 4: one vault write sets FLIPPED, and the transaction has committed. -/
def flipMark (s : State) (m : Nat) : State :=
  match mget s.kst.marks m with
  | none => s
  | some x0 =>
    let s := numberMark s m x0
    match mget s.kst.marks m with
    | none => s
    | some x =>
      let x := { x with flipped := true, logPos := if isLogged x then nextLogPos s x.sliceNo else 0 }
      let s := { s with kst := { s.kst with marks := mput s.kst.marks m x } }
      let s := flipWrites s x
      let s := match x.kind with
        | .step k => oweStep (commitPoint s k) k
        | _ => countCommit s x.seq
      if x.withdraws then abandonAll s (fun p => x.writes.any (fun w => w.slot == p.slot)) stKeyWithdrawn else s

/-- In simplex running a step is judged as it takes its number (R37). -/
def judgeMark (s : State) (x : Mark) : State :=
  match x.kind with
  | .step k => if x.seq = 0 then judgeStep s k else s
  | _ => s

def keyFlip (m : Nat) (s : State) : State :=
  match mget s.kst.marks m with
  | none => s
  | some x =>
    if !mayFlip s m x then s
    else
      let s := judgeMark s x
      if (mget s.kst.marks m).isSome then settle (flipMark s m) else settle s

def execKeyTxnFlip (mark : Nat) (s : State) : Answer := endWith s (keyFlip mark s)

/-- Steps 5 and 6: the log entry stands, the old frames are zeroised, and the mark is free. -/
def logWritten (m : Nat) (s : State) : State :=
  match mget s.kst.marks m with
  | some x => if serving s && x.flipped then settle (finishMark s m) else s
  | none => s

def execKeyTxnLogWritten (mark : Nat) (s : State) : Answer := endWith s (logWritten mark s)

/-! ### Internal transactions (R245, R250, R257, R262) -/

/-- The wait for trust of a slot's cutover is recorded once. -/
def noteUntrusted (s : State) (slot : Nat) : State :=
  if s.kst.waitNoted.contains slot then s
  else journal { s with kst := { s.kst with waitNoted := s.kst.waitNoted ++ [slot] } }
    (jev 0x0303 1 (dieSource (curDie s)) (detail 0 0 (slot * 256) 0 0))

/-- The key-store controller takes no transaction of its own now. -/
def kstIdle (s : State) : Bool := !serving s || !s.kst.isOpen

/-- NT reaches activate_at, and the pending record of a slot is to become current. -/
def keyCutover (slot : Nat) (s : State) : State :=
  if kstIdle s || markOn s slot then s
  else match slotView s slot, pendingView s slot, mget s.kst.pendings slot with
    | .held r, some p, some committed =>
      let s := reach s (max p.activateAt committed)
      if s.nt.trust = .untrusted then noteUntrusted s slot
      else settle (internalMark s .cutover p.owner slot (cutWrites s slot r p []) (groupSlots s slot))
    | _, _, _ => s

def execKeyCutover (slot : Nat) (s : State) : Answer := endWith s (keyCutover slot s)

/-- A record with expire_at_reset of an earlier reset epoch is erased in the background. -/
def expiryErase (slot : Nat) (s : State) : State :=
  if kstIdle s || markOn s slot || !(mramOf s (curDie s)).expiry.contains slot then s
  else match slotView s slot with
    | .held r =>
      if r.expireAtReset && r.resetEpoch != s.vault.resetEpoch then
        settle (internalMark s .resetErase r.owner slot (tombWrites s slot (lastGenOf s slot) (1 + r.extCount) []) (groupSlots s slot))
      else s
    | _ => s

def execResetExpiryErase (slot : Nat) (s : State) : Answer := endWith s (expiryErase slot s)

/-- The current record of a slot stands in a shadow frame and its home frame holds no pending record. -/
def mayHome (s : State) (d : Dir) (slot : Nat) : Bool := d.cur != 0 && d.pend != 1 && !d.damaged && !markOn s slot

/-- Seal number of a slot's current frame: it rises with every write. -/
def sealOf (s : State) (slot : Nat) : Nat :=
  let m := mramOf s (curDie s)
  let d := slotDir m slot
  (placeFrame m slot d d.cur).sealNo

/-- No other slot that may be homed was written before this one. -/
def oldestShadow (s : State) (slot : Nat) : Bool :=
  (mramOf s (curDie s)).dirs.all (fun e => !mayHome s e.2 e.1 || decide (sealOf s slot ≤ sealOf s e.1))

/-- The least recently written shadow record is copied into its home frame. -/
def homing (slot : Nat) (s : State) : State :=
  let m := mramOf s (curDie s)
  let d := slotDir m slot
  let f := placeFrame m slot d d.cur
  if kstIdle s || decide (64508 ≤ shadowFree s) || !mayHome s d slot || f.rootId != s.kst.rootId || !oldestShadow s slot then s
  else settle (internalMark s .homing 0 slot [frameWrite s slot .current f.body d.lastGen []] [])

def execShadowHoming (slot : Nat) (s : State) : Answer := endWith s (homing slot s)

/-! ### Withdrawal and old material (R247 to R249) -/

/-- A step or a pass that holds the slot is still to be squashed. -/
def slotHeld (s : State) (slot : Nat) : Bool :=
  s.conf.steps.any (fun e => !isCommitted e.2 && !hasEnded s e.2 && e.2.bound.any (fun b => !b.target && b.slot == slot)) ||
    s.passes.any (fun p => p.slot == slot)

/-- The material of an immediately erased slot is zeroised, and the slot is empty. -/
def withdrawalEnd (slot : Nat) (s : State) : State :=
  if !serving s || !inWithdrawal s slot || slotHeld s slot then s
  else settle (cacheInvalidate { s with kst := { s.kst with withdrawal := mdel s.kst.withdrawal slot } } slot)

def execWithdrawalEnd (slot : Nat) (s : State) : Answer := endWith s (withdrawalEnd slot s)

/-- The lanes that steps loaded and that wait for their commit lose their schedules where a predicate holds of the step: a step
that waits keeps the generations it bound, and no key material (R247, R361). -/
def clearLanes (s : State) (p : Step → Bool) : State :=
  s.lanes.foldl (fun s e => match e.2.loader with
    | some k => (match stepOf s k with
      | some t => if p t then clearLane s e.1 else s
      | none => clearLane s e.1)
    | none => s) s

/-- The key cache drops a generation that is no longer current and that nothing needs, and so do the lanes. -/
def oldZeroise (slot gen : Nat) (s : State) : State :=
  if gen = curGen s slot ∨ keyHeld s slot gen = true then s
  else
    clearLanes { s with kst := { s.kst with cache := s.kst.cache.filter (fun e => !(e.slot == slot && e.gen == gen)) } }
      (fun t => t.bound.any (fun b => b.slot == slot && b.gen == gen))

def execOldMaterialZeroise (slot gen : Nat) (s : State) : Answer := endWith s (oldZeroise slot gen s)

/-! ### Repair (R235) -/

/-- The place of the frame of a slot's current record, or of its pending one. -/
def recordPlace (d : Dir) (pend : Bool) : Nat := if pend then d.pend - 1 else d.cur

/-- A die's MRAM with the frame of a slot's current or pending record replaced. -/
def putRecord (m : Mram) (slot : Nat) (pend : Bool) (f : Frame) : Mram :=
  let d := slotDir m slot
  match recordPlace d pend with
  | 0 => { m with home := sset (fun _ => {}) m.home slot f }
  | 1 => match d.shadowA with | some n => { m with shadow := sset (fun _ => {}) m.shadow n f } | none => m
  | _ => match d.shadowB with | some n => { m with shadow := sset (fun _ => {}) m.shadow n f } | none => m

/-- The frame of a slot's current or pending record. -/
def recordFrame (m : Mram) (slot : Nat) (pend : Bool) : Frame := placeFrame m slot (slotDir m slot) (recordPlace (slotDir m slot) pend)

/-- The slot becomes damaged: dir_word [42] records it. -/
def damage (s : State) (slot : Nat) : State :=
  let s := onMram s (mramDies s) (fun m => { m with dirs := sset (fun _ => {}) m.dirs slot { slotDir m slot with damaged := true } })
  journal (raise s (pgKst (curDie s) 0) 2) (jev 0x0302 2 (dieSource (curDie s)) (detail 0 0 (slot * 256) 0 0))


/-- A read of a slot's frame has failed: the standby die's copy is requested. In simplex running the slot is damaged. -/
def askRepair (s : State) (slot : Nat) (pend : Bool) : State :=
  if duplex s then { s with kst := { s.kst with repairing := s.kst.repairing ++ [(slot, pend)] } } else damage s slot

/-- The frame of a slot's current or pending record may be read and repaired. -/
def mayRepair (s : State) (slot : Nat) (pend : Bool) : Bool :=
  let m := mramOf s (curDie s)
  let f := recordFrame m slot pend
  !kstIdle s && f.rootId == s.kst.rootId && f.body != .never && (!pend || (slotDir m slot).pend != 0) && !(slotDir m slot).damaged &&
    !s.kst.repairing.any (fun e => e.1 == slot) && !markOn s slot

/-- A frame read whose integrity code failed twice is handled as a failed tag, from step 2 of R235 (R413). -/
def tagAgain (slot : Nat) (s : State) : State := if mayRepair s slot false then askRepair s slot false else s

/-- The tag of the frame of a slot's current or pending record fails: an event of the integrity window, and a repair. -/
def tagFail (slot : Nat) (pend : Bool) (s : State) : State :=
  if !mayRepair s slot pend then s
  else
    let before := s
    let d := curDie s
    let s := setMram s d (putRecord (mramOf s d) slot pend { recordFrame (mramOf s d) slot pend with intact := false })
    let s := integrityEvent (bump s (pgKst d 0 + 0x110) 16 16 1)
    refreshHealth before (settle (askRepair s slot pend))

def execFrameTagFail (slot : Nat) (pend : Bool) (s : State) : Answer := endWith s (tagFail slot pend s)

/-- The standby die's copy arrives: it verifies and repairs the frame, or the slot is damaged. -/
def repairReply (slot : Nat) (verifies : Bool) (s : State) : State :=
  match s.kst.repairing.find? (fun e => e.1 == slot) with
  | none => s
  | some (_, pend) =>
    if kstIdle s then s
    else
      let d := curDie s
      let s := { s with kst := { s.kst with repairing := s.kst.repairing.filter (fun x => x.1 != slot) } }
      let f := recordFrame (mramOf s (otherDie d)) slot pend
      let s := if verifies && duplex s && f.intact then
          let s := setMram s d (putRecord (mramOf s d) slot pend f)
          let s := raise (bump s (pgKst d 0 + 0x110) 0 16 1) (pgKst d 0) 3
          journal s (jev 0x0301 1 (dieSource d) (detail 0 0 (slot * 256) 0 0))
        else damage s slot
      settle (rebind s)

def execFrameRepairReply (slot : Nat) (verifies : Bool) (s : State) : Answer := endWith s (repairReply slot verifies s)

end Sys2Proof.Machine
end

