-- ==== Sys2Proof/Machine/Nt.lean ====
section
/-!
DEFINITION. Network time (R414 to R425): accepted edges, trust, steps and what they move, the reference, labels, and the
floor in the vault.
-/
namespace Sys2Proof.Machine

/-! ### Steps and durations (R419, R422) -/

/-- A time from which a duration runs, or at which one ends, after a step of `d` ns. -/
def later (d : Int) (t : Nat) : Nat := ((t : Int) + d).toNat

def laterO (d : Int) (t : Option Nat) : Option Nat := t.map (later d)

/-- The NTU's own durations after a step. -/
def shiftNtu (d : Int) (n : NtUnit) : NtUnit :=
  { n with
    armed := n.armed.map (fun l => { l with at_ := later d l.at_ }), lastEdge := laterO d n.lastEdge
    lastLabelled := laterO d n.lastLabelled, lastGood := later d n.lastGood, since := later d n.since }

def shiftSource (d : Int) (x : Source) : Source := { x with fails := x.fails.map (later d), holdEnd := later d x.holdEnd }

def shiftRng (d : Int) (r : Rng) : Rng :=
  { r with lns := shiftSource d r.lns, jns := shiftSource d r.jns, readyNt := later d r.readyNt }

def shiftDie (d : Int) (x : DieState) : DieState :=
  { x with cycleNt := later d x.cycleNt, rejoinTries := x.rejoinTries.map (later d) }

def shiftCard (d : Int) (c : CardPort) : CardPort :=
  { c with startNt := later d c.startNt, result := c.result.map (fun r => { r with heldNt := later d r.heldNt }) }

def shiftStep (d : Int) (t : Step) : Step :=
  { t with admNt := later d t.admNt, listNt := later d t.listNt, actNt := later d t.actNt, seedWait := laterO d t.seedWait }

def shiftLevee (d : Int) (l : Levee) : Levee :=
  { l with
    pairs := mmap (fun _ p => { p with aloneNt := laterO d p.aloneNt }) l.pairs, windows := mmap (fun _ w => w.map (later d)) l.windows
    throttleEnd := laterO d l.throttleEnd, tier2s := l.tier2s.map (later d) }

def shiftSwitch (d : Int) (w : Switch) : Switch :=
  { w with
    plannedNt := later d w.plannedNt, recs := w.recs.map (fun r => { r with sentNt := later d r.sentNt })
    timers := mmap (fun _ t => { t with silentNt := later d t.silentNt }) w.timers
    gap := w.gap.map (fun g => { g with declNt := later d g.declNt }) }

/-- Microseconds already credited: a step credits nothing and withholds nothing (Table 4). -/
def shiftCredit (s : State) (dest us : Nat) : Nat := (dest / 1000) - (s.nt.ns / 1000 - us)

/-- Every running duration keeps the time that it has left. -/
def shiftAll (s : State) (d : Int) : State :=
  { s with
    nt := shiftNtu d s.nt
    sems := mmap (fun _ m => { m with leaseEnd := later d m.leaseEnd }) s.sems
    rings := mmap (fun _ r => { r with unsigNt := later d r.unsigNt }) s.rings
    die0 := shiftDie d s.die0, die1 := shiftDie d s.die1
    sw := shiftSwitch d s.sw
    conf := { s.conf with steps := mmap (fun _ t => shiftStep d t) s.conf.steps
                          refused := s.conf.refused.map (fun r => { r with admNt := later d r.admNt })
                          creditUs := shiftCredit s (later d s.nt.ns) s.conf.creditUs }
    kst := { s.kst with withdrawal := mmap (fun _ t => later d t) s.kst.withdrawal, pendings := s.kst.pendings.map (fun e => (e.1, later d e.2)) }
    engines := mmap (fun _ e => { e with startNt := later d e.startNt }) s.engines
    pipes := mmap (fun _ p => { p with sealing := p.sealing.map (fun e => (e.1, later d e.2)) }) s.pipes
    passes := s.passes.map (fun p => { p with acceptNt := later d p.acceptNt })
    streams := mmap (fun _ x => { x with lastNt := later d x.lastNt }) s.streams
    drbg := mmap (fun _ x => { x with seedNt := later d x.seedNt }) s.drbg
    rng0 := shiftRng d s.rng0, rng1 := shiftRng d s.rng1
    supply := { s.supply with downEnd := laterO d s.supply.downEnd, lastRemoval := later d s.supply.lastRemoval }
    lev := shiftLevee d s.lev
    cer := mmap (fun _ c => { c with expires := later d c.expires }) s.cer
    card0 := shiftCard d s.card0, card1 := shiftCard d s.card1
    starts := { s.starts with quiesceEnd := laterO d s.starts.quiesceEnd }
    vault := { s.vault with activatedNt := later d s.vault.activatedNt, failNts := s.vault.failNts.map (later d) }
    gauge := { s.gauge with replay := { s.gauge.replay with ends := later d s.gauge.replay.ends }, lastSecond := later d s.gauge.lastSecond } }

/-- A record of the NTU in the journal, and an error captured on its page. -/
def ntuJournal (s : State) (code value : Nat) : State := journal s (jev code 1 2 (detail 0 0 0 0 value))
def ntuCapture (s : State) (cause off : Nat) : State := captureAt s pgNtu .warden cause (pgNtu + off)

/-- The NT count is stepped to `dest`: durations move, pages of the buffer translation cache are swept, the epoch closes, and the
floor is written. -/
def stepNt (s : State) (dest : Nat) : State :=
  let d : Int := (dest : Int) - s.nt.ns
  let s := shiftAll s d
  let s := { s with nt := { s.nt with ns := dest, lastStep := d, steps := min (s.nt.steps + 1) 0xFFFF, slewLeft := 0, slewPart := 0 }
                    btc := s.btc.map (fun p => { p with valid := false }) }
  let s := ntuJournal (raise s pgNtu 3) 0x0A02 (BitVec.ofInt 64 d).toNat
  let s := if gaugeRuns s then closeEpoch s else s
  { s with vault := { s.vault with ntFloor := dest } }

/-! ### Trust (R418, R420) -/

/-- Time spent in LOCKED. -/
def lockedTime (n : NtUnit) : Nat := n.lockedNs + (if n.trust = .locked then n.ns - n.since else 0)

/-- Trust changes: the trigger is kept, the change counted, shown, told and journalled. -/
def setTrust (s : State) (t : Trust) (cause : Nat) : State :=
  let n := s.nt
  if n.trust = t then s
  else
    let s := { s with nt := { n with
      trust := t, cause := cause, lockedNs := lockedTime n, since := n.ns, changes := min (n.changes + 1) 0xFFFF
      stayLabelled := false, outlierRun := 0 } }
    let s := notify (raise s pgNtu 1) 6 0 0 0 (trustCode n.trust) (trustCode t)
    ntuJournal s 0x0A01 (trustCode n.trust + 256 * trustCode t + 65536 * cause)

/-- The largest change of the frequency correction over any 64 s of the history (R421). -/
def largestChange : List (Nat × Int) → Nat
  | [] => 0
  | x :: r =>
    let near := r.takeWhile (fun y => decide (x.1 - y.1 ≤ 64000000000))
    max ((near.map (fun y => (x.2 - y.2).natAbs)).foldl max 0) (largestChange r)

/-- A frequency correction is taken up: 4,096 s of history stay, and the wander follows from it. -/
def takeCorrection (n : NtUnit) (c : Int) : NtUnit :=
  let now := lockedTime n
  let h := ((now, c) :: n.history).filter (fun y => decide (now - y.1 ≤ 4096000000000))
  { n with correction := c, history := h, wander := min (max 1000 (largestChange h)) 0xFFFFFFFF }

/-- An edge is applied: its phase error is slewed away. -/
def applyEdge (s : State) (e : Int) (labelled : Bool) (ppm : Nat) : State :=
  let n := s.nt
  let good := decide (e.natAbs ≤ 1000)
  let s := { s with nt := { n with
    slewLeft := e, slewPpm := ppm, slewPart := 0, outlierRun := 0
    lastLabelled := if labelled then some n.ns else n.lastLabelled, lastGood := if good then n.ns else n.lastGood
    goodRun := if good then min 8 (n.goodRun + 1) else 0, stayLabelled := n.stayLabelled || labelled } }
  let n := s.nt
  let recent := match n.lastLabelled with | some t => decide (n.ns - t ≤ 64000000000) | none => false
  if n.trust ≠ .locked ∧ n.goodRun = 8 ∧ n.refOk = true ∧ recent = true ∧ (n.trust = .holdover ∨ n.stayLabelled = true) then setTrust s .locked 0 else s

/-- An outlier: counted and not applied. The third in a row ends LOCKED. -/
def outlier (s : State) : State :=
  let n := s.nt
  let s := { s with nt := { n with outliers := min (n.outliers + 1) 0xFFFF, goodRun := 0, outlierRun := n.outlierRun + 1 } }
  if n.trust = .locked ∧ 3 ≤ n.outlierRun + 1 then setTrust s .holdover 5 else s

/-- Backward steps are permitted (R419, R484). -/
def backAllowed (s : State) : Bool := s.nt.allowBack && !(policyForbid s).testBit 3

/-- An edge that asks for a step (R419). One that is rejected changes nothing of the NTU; a step ends the run of consecutive
good edges (log entry 43). -/
def stepEdge (s : State) (e : Int) (label : Nat) : State :=
  if 0 < e ∧ backAllowed s = false then ntuJournal (ntuCapture (raise s pgNtu 4) 0x0101 0x110) 0x0A03 label
  else stepNt { s with nt := { s.nt with goodRun := 0 } } label

/-- An accepted edge in UNTRUSTED (Table 2). -/
def edgeUntrusted (s : State) (e : Int) (label : Nat) (labelled : Bool) : State :=
  if labelled || s.nt.stayLabelled then
    (if e.natAbs ≤ 1000000 then applyEdge s e labelled 500 else stepEdge s e label)
  else s

/-- An edge applied in LOCKED gives a new frequency correction, which the manual does not compute. -/
def freeCorrection (s : State) : State :=
  let (v, s) := drawFree s
  { s with nt := takeCorrection s.nt (BitVec.ofNat 32 v).toInt }

/-- Handling of an accepted edge (Table 2). -/
def handleEdge (s : State) (e : Int) (label : Nat) (labelled : Bool) : State :=
  let far := decide (1000000 < e.natAbs)
  match s.nt.trust with
  | .untrusted => edgeUntrusted s e label labelled
  | .locked =>
    if labelled && far then edgeUntrusted (setTrust s .untrusted 6) e label labelled
    else if e.natAbs ≤ 1000 then applyEdge (freeCorrection s) e labelled 50
    else outlier s
  | .holdover =>
    if labelled && far then edgeUntrusted (setTrust s .untrusted 6) e label labelled
    else if e.natAbs ≤ holdBound s.nt && !far then applyEdge s e labelled 50
    else outlier s

/-- More than 1.5 s without an edge: an edge is missing, and the run of good edges ends. -/
def missedEdge (s : State) : State := if edgeMissing s.nt then { s with nt := { s.nt with goodRun := 0 } } else s

/-- The label of the edge, if it has one, and whether it was written by a host (R417). -/
def edgeLabel (n : NtUnit) : Option Nat × Bool :=
  match n.armed with
  | some l => if l.at_ + 10000000 ≤ n.ns then (some l.label, true) else (n.lastLabel.map (fun t => t + 1000000000), false)
  | none => (n.lastLabel.map (fun t => t + 1000000000), false)

/-- An accepted edge: its timestamp and phase error stand in the registers. Without any label its phase error is free. -/
def acceptEdge (s : State) : State :=
  let n := s.nt
  let s := missedEdge s
  let (label, labelled) := edgeLabel n
  let s := raise { s with nt := { s.nt with
    edgeNt := n.ns, lastEdge := some n.ns, lastLabel := label, armed := if labelled then none else n.armed } } pgNtu 2
  match label with
  | none =>
    let (v, s) := drawFree s
    { s with nt := { s.nt with lastE := (BitVec.ofNat 32 v).toInt } }
  | some l =>
    let e : Int := (n.ns : Int) - l
    handleEdge { s with nt := { s.nt with lastE := e } } e l labelled

/-- An edge of NT_PPS marks a second at NT `at_`. One less than 0.5 s after the last accepted edge is ignored (Table 1). -/
def ppsEdge (at_ : Nat) (s : State) : State :=
  if !s.supply.alwaysOn then s
  else
    let s := reach s at_
    match s.nt.lastEdge with
    | some t =>
      if s.nt.ns - t < 500000000 then
        ntuCapture { s with nt := { s.nt with ignored := min (s.nt.ignored + 1) 0xFFFF } } 0x0102 0x120
      else acceptEdge s
    | none => acceptEdge s

def execPpsEdge (nt : Nat) (s : State) : Answer := endWith s (ppsEdge nt s)

/-! ### The reference, labels and timers (R416, R417, R420) -/

/-- The frequency of NT_REF has been measured, as it is every 1 ms. -/
def refCheck (ok : Bool) (s : State) : State :=
  if !s.supply.alwaysOn then s
  else
    let s := reach s ((s.nt.ns / 1000000 + 1) * 1000000)
    let was := s.nt.refOk
    let s := { s with nt := { s.nt with refOk := ok } }
    if was && !ok then setTrust (raise s pgNtu 5) .untrusted 2 else s

def execNtRefCheck (accepted : Bool) (s : State) : Answer := endWith s (refCheck accepted s)

/-- A label is armed. -/
def armLabel (w : Word) (s : State) : State := { s with nt := { s.nt with nextPulse := w, armed := some ⟨w.toNat, s.nt.ns⟩ } }

def execNtuNextPulse (who : Party) (value : Word) (s : State) : Answer :=
  endWith s (gateWrite s who .ntu pgNtu 0x110 true (armLabel value))

/-- A write of NTU_CTL. A policy fuse holds allow_back at 0 (R484). -/
def ntuCtl (w : Word) (s : State) : State :=
  let s := { s with nt := { s.nt with allowBack := bitOf w 0 && !(policyForbid s).testBit 3, ppsFalling := bitOf w 2 } }
  if bitOf w 1 then setTrust s .untrusted 9 else s

def execNtuDistrust (who : Party) (ctl : Word) (s : State) : Answer :=
  endWith s (gateWrite s who .ntu pgNtu 0x118 true (fun s => if bitOf ctl 1 then ntuCtl ctl s else s))

/-- NT at which a timer of Table 3 runs out, for the trigger that it is. -/
def trustDue (n : NtUnit) (cause : Nat) : Option Nat :=
  match n.trust, cause with
  | .locked, 3 => n.lastEdge.map (fun t => t + 1500000000)
  | .locked, 4 => some (n.lastLabelled.getD n.since + 64000000000)
  | .holdover, 7 => some (n.lastGood + 49000 * 1000000000000 / max 1 n.wander + 1)
  | .holdover, 8 => some (n.since + 86400000000000)
  | _, _ => none

def trustTimer (cause : Nat) (s : State) : State :=
  if !s.supply.alwaysOn then s
  else match trustDue s.nt cause with
    | none => s
    | some t =>
      let s := reach s t
      let s := if cause = 3 then { s with nt := { s.nt with goodRun := 0 } } else s
      setTrust s (if cause ≤ 4 then .holdover else .untrusted) cause

def execTrustTimerExpiry (cause : Nat) (s : State) : Answer := endWith s (trustTimer cause s)

/-- At every whole second of NT the floor is written (R425). -/
def floorWrite (s : State) : State :=
  if !s.supply.alwaysOn then s
  else
    let s := if s.nt.ns % 1000000000 = 0 ∧ s.vault.ntFloor ≠ s.nt.ns then s else reach s ((s.nt.ns / 1000000000 + 1) * 1000000000)
    { s with vault := { s.vault with ntFloor := s.nt.ns } }

def execNtFloorWrite (s : State) : Answer := endWith s (floorWrite s)

end Sys2Proof.Machine
end

