-- ==== Sys2Proof/Machine/Noise.lean ====
section
/-!
DEFINITION. Noise sources, conditioner, seeds and raw sampling (R382 to R393).
-/
namespace Sys2Proof.Machine

/-- A source of a die: 0 LNS, 1 JNS. -/
def sourceOf (s : State) (d : Die) (i : Nat) : Source := if i = 0 then (rngOf s d).lns else (rngOf s d).jns

/-- A source in a new state. A seed in progress whose source stops being RUNNING is discarded (R386). -/
def setSource (s : State) (d : Die) (i : Nat) (x : Source) : State :=
  let r := rngOf s d
  let r := if x.mode = .running ∨ r.bitsSource ≠ i then r else { r with bits := [] }
  setRng s d (if i = 0 then { r with lns := x } else { r with jns := x })

/-! ### Debiasing (R383, R384) -/

/-- The samples of bytes, sample i at bit i mod 8 of byte i / 8. -/
def samplesOf (b : Bytes) : List Bool := (b.map (fun x => (List.range 8).map (fun i => x.toNat.testBit i))).flatten

/-- Bits as bytes, in the same order. -/
def bytesOf (l : List Bool) : Bytes :=
  (List.range ((l.length + 7) / 8)).map (fun i =>
    BitVec.ofNat 8 (((List.range 8).map (fun j => if l.getD (8 * i + j) false then 2 ^ j else 0)).foldl (· + ·) 0))

/-- One pair of samples through a debiaser: XOR, or von Neumann, which gives 0 for 01, 1 for 10 and nothing for equal samples. -/
def debiasPair (neumann a b : Bool) : List Bool := if neumann then (if a = b then [] else [a]) else [a != b]

/-- A block through a debiaser, which keeps no state from one block to the next. -/
def debias (neumann : Bool) : List Bool → List Bool
  | a :: b :: r => debiasPair neumann a b ++ debias neumann r
  | _ => []

/-- The longest run of equal samples, with the value and the length of the run that stands. -/
def longestRun : List Bool → Bool → Nat → Nat
  | [], _, n => n
  | a :: r, v, n => if a = v then longestRun r v (n + 1) else max n (longestRun r a 1)

/-- A block of 1,024 samples in which neither health test fails: no 41 equal samples in a row, and fewer than 795 samples equal to
the first (Table 14). -/
def blockPasses (l : List Bool) : Bool :=
  let v := l.headD false
  l.length == 1024 && decide (longestRun l v 0 < 41) && decide ((l.filter (fun x => x == v)).length < 795)

/-- A block boundary of a die: a setting of RNG_DIE_CTL that waits takes effect, and the seed buffer is emptied (R386). -/
def blockBoundary (s : State) (d : Die) : State :=
  let r := rngOf s d
  match r.ctlNext with
  | none => s
  | some w =>
    let s := setRng s d { r with ctl := w, ctlNext := none, seeds := [], bits := [] }
    if r.seeds.isEmpty then s else raise s (pgRng d 0) 4

/-- Failures of a source that lie less than one second before the newest, oldest first. -/
def recentFails (l : List Nat) (now : Nat) : List Nat := l.filter (fun t => decide (now - t < 1000000000))

/-- What the loss of a source means for its die (R386, R435, R449). -/
def sourceLost (s : State) (d : Die) (i : Nat) : State :=
  let x := dieOf s d
  let s := setDie s d { x with lastFailKind := 7, lastFailInst := i, lastFailNt := s.nt.ns }
  let s := notify (raise s (pgHlt d) 2) 2 (dieNo d) 7 i 0 0
  if (rngOf s d).lns.mode = .fatal ∧ (rngOf s d).jns.mode = .fatal then
    (if activeDie s = some d then
      (if duplex s && (dieOf s d).declaredFatal.isNone then setDie s d { dieOf s d with declaredFatal := some 3 } else s)
     else standbyLost s)
  else s

/-- A failure of a source in STARTUP or RUNNING: the fourth within one second makes it FATAL (R385). -/
def sourceFail (s : State) (d : Die) (i : Nat) : State :=
  let before := s
  let x := sourceOf s d i
  let fails := recentFails x.fails s.nt.ns ++ [s.nt.ns]
  let s := raise s (pgRng d i) 1
  if 4 ≤ fails.length then
    let s := setSource s d i { x with mode := .fatal, fails := fails }
    let s := journal (raise s (pgRng d i) 2) (jev 0x0502 2 (dieSource d) (detail 0 i 0 0 0))
    refreshHealth before (sourceLost s d i)
  else
    let s := setSource s d i { x with mode := .restarting, fails := fails, holdEnd := s.nt.ns + 10000 }
    journal s (jev 0x0501 1 (dieSource d) (detail 0 i 0 0 fails.length))

/-- A health test fails on a block (R384, R385). In RAW it is counted and changes nothing (R392). -/
def noiseFail (d : Die) (i : Nat) (rct apt : Bool) (s : State) : State :=
  if !(dieOf s d).inService || !(rct || apt) || decide (1 < i) then s
  else
    let s := blockBoundary s d
    let mode := (sourceOf s d i).mode
    let a := pgRng d i + 0x108
    let counted := fun (s : State) =>
      let s := if rct then bump s a 0 16 1 else s
      if apt then bump s a 16 16 1 else s
    match mode with
    | .running => sourceFail (bump (counted s) a 48 16 1) d i
    | .startup => sourceFail (bump (counted s) a 32 16 1) d i
    | .raw => counted s
    | _ => s

def execNoiseBlockFail (die : Die) (source : Nat) (rct apt : Bool) (s : State) : Answer := endWith s (noiseFail die source rct apt s)

/-- The hold-off of a source ends. -/
def restartExpiry (d : Die) (i : Nat) (s : State) : State :=
  let x := sourceOf s d i
  if (dieOf s d).inService && x.mode == .restarting && decide (i ≤ 1) then setSource (reach s x.holdEnd) d i { x with mode := .startup } else s

def execSourceRestartExpiry (die : Die) (source : Nat) (s : State) : Answer := endWith s (restartExpiry die source s)

/-- The start-up test of a source passes. -/
def startupDone (d : Die) (i : Nat) (s : State) : State :=
  if !(dieOf s d).inService || (sourceOf s d i).mode != .startup || decide (1 < i) then s
  else
    let s := blockBoundary s d
    setSource s d i { sourceOf s d i with mode := .running }

def execSourceStartupDone (die : Die) (source : Nat) (s : State) : Answer := endWith s (startupDone die source s)

/-- The conditioner hashes 1,024 debiased bits into a seed, in its service slot (R387). -/
def conditionSeed (s : State) (d : Die) (i : Nat) : State :=
  let r := rngOf s d
  if r.bits.length < 1024 ∨ 64 ≤ r.seeds.length ∨ (dieOf s d).failed.contains (7, 2) = true then s
  else
    let h := hash .sha512 (bytesOf (r.bits.take 1024))
    let s := setRng s d { r with seeds := r.seeds ++ [h.take 48], bits := r.bits.drop 1024 }
    let e := (dieOf s d).services.getD i i
    setDigest (bump s (pgDge d e + 0x108) 0 32 2) d e 18 h

/-- Blocks of raw samples of the source that feeds the conditioner: those that pass the health tests go through the debiaser, and
once 1,024 bits stand the conditioner makes a seed. -/
def seedConditioned (d : Die) (blocks : List Bytes) (s : State) : State :=
  if !(dieOf s d).inService then s
  else
    let s := blockBoundary s d
    let r := rngOf s d
    match feeding r with
    | none => s
    | some i =>
      let old := if r.bitsSource = i then r.bits else []
      let new := (((blocks.map samplesOf).filter blockPasses).map (debias (bitOf r.ctl 1))).flatten
      conditionSeed (setRng s d { r with bits := old ++ new, bitsSource := i }) d i

def execSeedConditioned (die : Die) (blocks : List (List Byte)) (s : State) : Answer := endWith s (seedConditioned die blocks s)

/-- A generate call has waited 50 µs for a seed: its step ends, and draws nothing (R390). -/
def seedTimeout (k : Nat) (s : State) : State :=
  match stepOf s k with
  | none => s
  | some t =>
    match t.seedWait with
    | none => s
    | some w =>
      if !serving s || !(rngOf s (curDie s)).seeds.isEmpty then s
      else
        let s := bump (reach s (w + 50000)) (pgRng (curDie s) 0 + 0x188) 32 32 1
        settle (putResult s k t (fnInOf s t) (fails stRngUnavailable) [])

def execSeedWaitTimeout (k : Nat) (s : State) : Answer := endWith s (seedTimeout k s)

/-- A write of RNG_DIE_CTL, which waits for the next block boundary. -/
def rngCtl (d : Die) (w : Word) (s : State) : State :=
  let v := w &&& mask 0 2
  let s := wr s (pgRng d 0 + 0x180) v
  setRng s d { rngOf s d with ctlNext := some v }

def execRngDieCtlWrite (who : Party) (die : Die) (value : Word) (s : State) : Answer :=
  endWith s (gateWrite s who .rng (pgRng die 0) 0x180 true (rngCtl die value))

/-! ### Raw sampling (R392, R393) -/

/-- Raw sampling on a die ends: the buffer is zeroised and the source starts again. -/
def endRaw (s : State) (d : Die) : State :=
  let r := rngOf s d
  if r.rawState = 0 then s
  else
    let s := setRng s d { r with rawState := 0, rawBuf := [], rawBits := [] }
    let x := sourceOf s d r.rawSource
    if x.mode = .raw then setSource s d r.rawSource { x with mode := .startup } else s

/-- What raw sampling takes from blocks of samples: the samples, or at the debiased stage the bits that each block gives. -/
def rawTaken (r : Rng) (blocks : List Bytes) : List Bool :=
  (blocks.map (fun b => if r.rawStage = 0 then samplesOf b else debias (bitOf r.ctl 1) (samplesOf b))).flatten

/-- Blocks of samples are captured. Once all that were asked for stand in the raw buffer, the read window begins. -/
def rawCaptured (d : Die) (blocks : List Bytes) (s : State) : State :=
  let r := rngOf s d
  if r.rawState ≠ 1 ∨ (dieOf s d).inService = false then s
  else
    let l := (r.rawBits ++ rawTaken r blocks).take r.rawCount
    let r := { r with rawBits := l, captured := l.length }
    if l.length < r.rawCount then setRng s d r
    else
      let words := (chunks 8 (bytesOf l)).map (fun b => BitVec.ofNat 64 (leAt b 0 8))
      raise (setRng s d { r with rawState := 2, rawBits := [], rawBuf := words, readyNt := s.nt.ns }) (pgRng d 0) 3

def execRawSamplesCaptured (die : Die) (blocks : List (List Byte)) (s : State) : Answer := endWith s (rawCaptured die blocks s)

/-- 600 s after the samples were ready, raw sampling ends. -/
def rawEnd (d : Die) (s : State) : State :=
  let r := rngOf s d
  if r.rawState = 2 then endRaw (reach s (r.readyNt + 600000000000)) d else s

def execRawSamplingEnd (die : Die) (s : State) : Answer := endWith s (rawEnd die s)

/-- A read of RNG_RAW_DATA has returned a word: the next one follows, and the last word ends the sampling. -/
def rawAdvance (s : State) (d : Die) : State :=
  let r := rngOf s d
  if r.rawState ≠ 2 then s
  else
    let s := setRng s d { r with readSoFar := r.readSoFar + 64 }
    if r.rawCount ≤ r.readSoFar + 64 then endRaw s d else s

end Sys2Proof.Machine
end

