-- ==== Sys2Proof/Machine/Switch.lean ====
section
/-!
DEFINITION. The switchover arbiter (R29, R432 to R438, R443, R445): heartbeats, silence, fatal declarations, HOLD, and the
declaration of a switchover, which begins its gap.
-/
namespace Sys2Proof.Machine

/-! ### Declaration (R438) -/

/-- A switchover is declared with a cause (SWO_LAST.cause): the token moves, the old active die is fenced, and the gap begins.
After a planned switchover the old die stays in service. -/
def declare (s : State) (cause : Nat) : State :=
  match activeDie s, standbyDie s with
  | some d, some o =>
    let before := modeCode s
    let planned := cause == 8
    let s := endRaw (endRaw s d) o
    let x := dieOf s d
    let s := setDie s d (if planned then { x with yielding := false, selftestOn := false } else dieDown x)
    let s := setDie s o { dieOf s o with selftestOn := false }
    let s := if planned then s else setRng s d {}
    let s := { s with sw := { s.sw with
      token := some o, gap := some ⟨s.nt.ns, cause, d⟩, planned := false
      switchovers := min (s.sw.switchovers + 1) 0xFFFF, plannedCount := min (s.sw.plannedCount + (if planned then 1 else 0)) 0xFFFF
      lastCause := cause, lastOld := dieNo d, lastNt := s.nt.ns, lastSeq := (dieOf s o).applied } }
    let s := raise s pgSwo 1
    let s := if modeCode s = before then s else raise s pgSwo 4
    journal s (jev 0x0601 2 2 (detail cause (dieNo d) 0 0 (dieOf s o).applied))
  | _, _ => s

/-! ### HOLD (R436, R437) -/

/-- The arbiter enters HOLD with a cause. -/
def enterHold (s : State) (cause : Nat) : State :=
  if s.sw.hold then s
  else
    let before := s
    let s := raise { s with sw := { s.sw with hold := true, holdCause := cause } } pgSwo 3
    refreshHealth before (journal s (jev 0x0603 2 2 (detail cause 0 0 0 0)))

/-- The check of the test channel, every 10 ms of NT: the timeout register against its shadow, and each half against the
synthetic stream. -/
def testChannel (shadowOk missedA missedB early : Bool) (s : State) : State :=
  if !s.supply.vin || (activeDie s).isNone then s
  else
    let s := reach s ((s.nt.ns / 10000000 + 1) * 10000000)
    let failed := missedA || missedB || early
    let s := bump s (pgSwo + 0x130) (if failed then 48 else 32) 16 1
    if !shadowOk then enterHold s 1
    else if missedA then enterHold s 2
    else if missedB then enterHold s 3
    else if early then enterHold s 4
    else s

def execTestChannelCheck (shadowOk missedA missedB early : Bool) (s : State) : Answer :=
  endWith s (testChannel shadowOk missedA missedB early s)

/-! ### Heartbeats (R432, R433) -/

def setTimer (s : State) (half : Nat) (d : Die) (t : SlotTimer) : State :=
  { s with sw := { s.sw with timers := sset (fun _ => {}) s.sw.timers (half * 2 + dieNo d) t } }

/-- A die sends heartbeats: it is in service and its clocks run. -/
def beats (s : State) (d : Die) (half : Nat) : Bool := (dieOf s d).inService && decide (half ≤ 1)

/-- The count follows the last valid count: it has risen by 1 for a heartbeat in the next slot, and by at most 1 more for each
slot missed since. -/
def follows (last : Option Nat) (missed count : Nat) : Bool :=
  match last with
  | none => decide (count < 16)
  | some c => decide (count < 16) && decide ((count + 16 - c) % 16 ≠ 0) && decide ((count + 16 - c) % 16 ≤ 1 + missed)

/-- Four misses on one path while the other has none: a path fault, counted once in a run of misses. -/
def pathCheck (s : State) (half : Nat) (d : Die) : State :=
  let t := timerOf s half d
  let o := timerOf s (1 - half) d
  let before := s
  if 4 ≤ t.missP ∧ t.missQ = 0 ∧ t.notedP = false then
    let s := setTimer s half d { t with notedP := true }
    if o.notedP then s else refreshHealth before (pathFault s (2 + 2 * dieNo d))
  else if 4 ≤ t.missQ ∧ t.missP = 0 ∧ t.notedQ = false then
    let s := setTimer s half d { t with notedQ := true }
    if o.notedQ then s else refreshHealth before (pathFault s (3 + 2 * dieNo d))
  else s

/-- A die has declared itself fatal (R434, R435): the active die is switched over, also in HOLD; the standby die leaves service;
in simplex running only the loss of firmware working data ends service. The new active die that fails in a gap ends service
(R442). -/
def fatalAct (s : State) (d : Die) : State :=
  match (dieOf s d).declaredFatal with
  | none => s
  | some c =>
    if activeDie s = some d then
      (if s.sw.gap.isSome then endService s
       else if duplex s then declare s c
       else if c = 2 then endService s else s)
    else if (dieOf s d).inService then standbyLost s
    else s

/-- A half receives a heartbeat of a die on path P or Q. -/
def heartbeat (d : Die) (half : Nat) (pathQ : Bool) (count state : Nat) (s : State) : State :=
  let t := timerOf s half d
  if !beats s d half || (dieOf s d).stopped then s
  else if !follows (if pathQ then t.countQ else t.countP) (if pathQ then t.missQ else t.missP) count then s
  else
    let before := s
    let t := if pathQ then { t with missQ := 0, goodQ := min 4 (t.goodQ + 1), countQ := some count, notedQ := false }
      else { t with missP := 0, goodP := min 4 (t.goodP + 1), countP := some count, notedP := false }
    let s := setTimer s half d { t with silent := false, silentNt := 0 }
    let s := refreshHealth before (pathCheck s half d)
    if state = 1 then fatalAct s d else s

def execHeartbeat (die : Die) (half : Nat) (pathQ : Bool) (count state : Nat) (s : State) : Answer :=
  endWith s (heartbeat die half pathQ count state s)

/-- A slot of 250 ns passes without a valid heartbeat: four misses on both paths make the half declare the die silent. -/
def slotMiss (d : Die) (half : Nat) (pathQ : Bool) (s : State) : State :=
  if !beats s d half then s
  else
    let before := s
    let t := timerOf s half d
    let t := if pathQ then { t with missQ := min 4 (t.missQ + 1), goodQ := 0 } else { t with missP := min 4 (t.missP + 1), goodP := 0 }
    let t := if t.missP = 4 ∧ t.missQ = 4 ∧ t.silent = false then { t with silent := true, silentNt := s.nt.ns } else t
    refreshHealth before (pathCheck (setTimer s half d t) half d)

def execHeartbeatSlotMiss (die : Die) (half : Nat) (pathQ : Bool) (s : State) : Answer := endWith s (slotMiss die half pathQ s)

/-- A die that has declared itself fatal says so in its heartbeats. -/
def execDieFatalDeclared (die : Die) (s : State) : Answer := endWith s (fatalAct s die)

/-! ### Silence (R434, R436, R437, R442) -/

/-- Both halves declare a die silent, within 250 ns of each other. -/
def bothSilent (s : State) (d : Die) : Bool :=
  let a := timerOf s 0 d
  let b := timerOf s 1 d
  a.silent && b.silent && decide (a.silentNt - b.silentNt ≤ 250) && decide (b.silentNt - a.silentNt ≤ 250)

/-- The silence of a die that both halves agree on. In HOLD the active die stays, and its silence is shown. -/
def silenceAct (s : State) (d : Die) : State :=
  if activeDie s = some d then
    (if s.sw.gap.isSome then endService s
     else if s.sw.hold then s
     else if duplex s then declare s 1
     else endService s)
  else standbyLost s

/-- NT at which a half stands alone with its declaration for 250 ns. -/
def aloneEnd (s : State) (d : Die) : Nat := max (timerOf s 0 d).silentNt (timerOf s 1 d).silentNt + 250

/-- The arbiter acts on the declarations of its halves: the active die first. -/
def switchoverDeclare (s : State) : State :=
  match activeDie s with
  | none => s
  | some d =>
    let o := otherDie d
    if dieSilent s d then
      (if bothSilent s d then silenceAct s d else enterHold (reach s (aloneEnd s d)) 5)
    else if (dieOf s o).inService && dieSilent s o then
      (if bothSilent s o then silenceAct s o else enterHold (reach s (aloneEnd s o)) 5)
    else s

def execSwitchoverDeclare (s : State) : Answer := endWith s (switchoverDeclare s)

/-! ### SWO_CTL (R434, R443, R445) -/

def swoRefused (s : State) (who : Party) : State := captureAt s pgSwo who 0x0101 (pgSwo + 0x128)

/-- A planned switchover is requested: the active die sets its heartbeat to yielding. -/
def requestPlanned (s : State) (who : Party) : State :=
  match activeDie s with
  | some d =>
    if !duplex s || s.sw.hold || s.sw.gap.isSome then swoRefused s who
    else if s.sw.planned then s
    else setDie { s with sw := { s.sw with planned := true, plannedNt := s.nt.ns } } d { dieOf s d with yielding := true }
  | none => swoRefused s who

/-- A switchover is forced, in HOLD and duplex running only. -/
def requestForce (s : State) (who : Party) : State :=
  if s.sw.hold && duplex s && s.sw.gap.isNone then declare s 9 else swoRefused s who

/-- A further rejoin attempt of a die that is out of service begins. -/
def requestRejoin (s : State) : State :=
  match activeDie s with
  | none => s
  | some d =>
    if (dieOf s (otherDie d)).inService then s
    else match otherDie d with
      | .d0 => { s with starts := { s.starts with dieDue0 := true } }
      | .d1 => { s with starts := { s.starts with dieDue1 := true } }

/-- A write of SWO_CTL. -/
def swoCtl (who : Party) (w : Word) (s : State) : State :=
  let s := if bitOf w 0 then requestPlanned s who else s
  let s := if bitOf w 1 then requestForce s who else s
  if bitOf w 2 then requestRejoin s else s

/-- A write of SWO_CTL with one of its bits. -/
def swoRow (who : Party) (bit : Nat) (s : State) : State :=
  gateWrite s who .swo pgSwo 0x128 true (swoCtl who (flag bit true))

def execSwoPlanned (who : Party) (s : State) : Answer := endWith s (swoRow who 0 s)
def execSwoForce (who : Party) (s : State) : Answer := endWith s (swoRow who 1 s)
def execSwoRejoin (who : Party) (s : State) : Answer := endWith s (swoRow who 2 s)

/-- The active die has sent its remaining journal records. -/
def journalDrained (s : State) : Bool :=
  s.gauge.writing.isNone && s.gauge.own.isEmpty && decide (s.gauge.q = {}) && !journalSent s

/-- The final marker arrives, or 20 µs have passed since the request: the planned switchover is declared. -/
def plannedMarker (timeout : Bool) (s : State) : State :=
  if !s.sw.planned || s.sw.gap.isSome then s
  else if timeout then declare (reach s (s.sw.plannedNt + 20000)) 8
  else if journalDrained s then declare s 8
  else s

def execPlannedMarker (timeout : Bool) (s : State) : Answer := endWith s (plannedMarker timeout s)

end Sys2Proof.Machine
end

