-- ==== Sys2Proof/Machine/Sram.lean ====
section
/-!
DEFINITION. The words of the shared SRAM: its map and banks, the cells of the Pool, and what accesses of one cycle do (R323, R344,
R346, R394 to R397).
-/
namespace Sys2Proof.Machine

/-! ### Places in the SRAM (R394, R395) -/

/-- Bank, row and row group of an SRAM address. -/
def bankAt (a : Nat) : Nat := a / 8 % 64
def rowAt (a : Nat) : Nat := a / 16384 % 8192
def groupAt (row : Nat) : Nat := row / 1024

/-- Regions of Table 1. -/
inductive Region | pool | contexts | fetchSlots | yieldAreas | scratch | streams | rawBuffer | firmware
deriving DecidableEq, Repr

def regionAt (a : Nat) : Region :=
  if a < 0x1000000 then .pool
  else if a < 0x2000000 then .contexts
  else if a < 0x4000000 then .fetchSlots
  else if a < 0x5000000 then .yieldAreas
  else if a < 0x5900000 then .scratch
  else if a < 0x5D00000 then .streams
  else if a < 0x5F00000 then .rawBuffer
  else .firmware

/-! ### Cells of the Pool (R323, R344, R346) -/

/-- A cell: the item body, the link word and its copy, and the check bits of its eight words. -/
structure PoolCell where
  body  : Bytes
  link  : Word
  copy  : Word
  check : List (BitVec 8)
deriving DecidableEq, Repr

/-- The 64 bytes of a cell. -/
def cellBytes (body : Bytes) (link : Word) : Bytes := padTo 48 body ++ leBytes 8 link.toNat ++ leBytes 8 link.toNat

/-- A cell with a body and a link word. -/
def poolCell (body : Bytes) (link : Word) : PoolCell :=
  { body := padTo 48 body, link := link, copy := link
    check := (List.range 8).map (fun i => Config.checkBits (BitVec.ofNat 64 (leAt (cellBytes body link) (8 * i) 8))) }

/-- A link word: the next cell, the first cell of an item, the last cell of a queue. -/
def linkWord (next : Option Nat) (first last : Bool) : Word := fld 0 18 (next.getD 0) ||| flag 18 last ||| flag 19 first

/-- A scatter-list cell: four entries of 12 bytes. -/
def scatterCell (l : List SgEntry) : Bytes :=
  padTo 48 ((l.map (fun g => leBytes 8 g.addr ++ leBytes 3 g.len ++ leBytes 1 (if g.out then 1 else 0))).flatten)

/-- The item of a step is a resume item (R337). -/
def resumes (t : Step) : Bool := match t.phase with | .listed | .prefetched _ => t.ran | _ => false

/-- The bodies of a step's cells: three of its item, which is also the stored form of its descriptor, then its scatter list. -/
def stepBodies (k : Nat) (t : Step) : List Bytes :=
  let d := t.desc
  [leBytes 2 (dOp d) ++ leBytes 2 (if resumes t then 2 else 1) ++ leBytes 4 (dTag d) ++ leBytes 8 t.admNt ++ cut d 2 6 ++ cut d 12 26,
   cut d 38 48, cut d 86 42 ++ leBytes 4 (ctxOf k) ++ zeros 2] ++
    (List.range (t.cells.length - 3)).map (fun i => scatterCell ((t.sg.drop (4 * i)).take 4))

/-- The ready list on which a step's item stands. -/
def listWith (s : State) (k : Nat) : List Nat :=
  ((s.conf.ready ++ s.conf.bnlReady ++ s.conf.pipeReady).map (·.2)).find? (fun l => l.contains k) |>.getD []

/-- What follows an element of a list. -/
def after (l : List Nat) (k : Nat) : Option Nat := ((l.dropWhile (fun x => x != k)).drop 1).head?

/-- First cell of a step's item. -/
def itemCell (s : State) (k : Nat) : Option Nat := (stepOf s k).bind (fun t => t.cells.head?)

/-- The link word of cell `i` of a step: the cells of its item follow one another, and the last leads to the next item. -/
def stepLink (s : State) (k i : Nat) (t : Step) : Word :=
  let l := listWith s k
  if i < 2 then linkWord t.cells[i + 1]? (i == 0) false
  else if i = 2 then linkWord ((after l k).bind (itemCell s)) false (!l.isEmpty && (after l k).isNone)
  else 0

/-- The body of a staged journal event: what its owner lays down in bytes 16 to 47 is not given (log entry 17). -/
def stagedBody (e : JEvent) : Bytes :=
  leBytes 2 e.op ++ leBytes 2 e.code ++ leBytes 4 (leAt e.detail 12 4) ++ leBytes 8 e.nt ++ padTo 32 (Config.stagedTail e.code e.nt)

/-- The cell with a number among the one-cell items of a queue. -/
def queueCell (l : List (Nat × Bytes)) (c : Nat) : Option PoolCell :=
  let r := l.dropWhile (fun e => e.1 != c)
  r.head?.map (fun e => poolCell e.2 (linkWord ((r.drop 1).head?.map (·.1)) true (r.drop 1).isEmpty))

/-- The cell with a number in a die's Pool, where it is in use. The standby die holds the requests' cells as the active die does. -/
def cellAt (s : State) (d : Die) (c : Nat) : Option PoolCell :=
  let here := decide (curDie s = d)
  let ofStep := if here || duplex s then s.conf.steps.findSome? (fun e => (e.2.cells.findIdx? (fun x => x == c)).map (fun i =>
    poolCell ((stepBodies e.1 e.2).getD i []) (stepLink s e.1 i e.2))) else none
  let staged := if here then s.gauge.q.staged.filterMap (fun e => e.cell.map (fun x => (x, stagedBody e))) else []
  match ofStep with
  | some x => some x
  | none => [(poolQueue s d 24).items, (poolQueue s d 25).items, staged].findSome? (fun l => queueCell l c)

/-! ### Words (R395, R397) -/


/-- A word of a die's SRAM, by its number. The Pool and the raw buffer show what the state holds in them. -/
def sramWord (s : State) (d : Die) (w : Nat) : Word :=
  match regionAt (8 * w) with
  | .pool => (match cellAt s d (w / 8) with | some x => BitVec.ofNat 64 (leAt (cellBytes x.body x.link) (w % 8 * 8) 8) | none => 0)
  | .rawBuffer => (rngOf s d).rawBuf.getD (w - 0x5D00000 / 8) 0
  | _ => sget (fun _ => 0) (sramOf s d) w

/-- Bytes stored into one word from an offset on. -/
def putBytes (v : Word) (off : Nat) (b : Bytes) : Word :=
  BitVec.ofNat 64 (leAt ((leBytes 8 v.toNat).take off ++ b ++ (leBytes 8 v.toNat).drop (off + b.length)) 0 8)

/-- A store of bytes into one word. The Pool and the raw buffer are written by the parts that own them only. -/
def storeWord (s : State) (d : Die) (w off : Nat) (b : Bytes) : State :=
  match regionAt (8 * w) with
  | .pool | .rawBuffer => s
  | _ => setSram s d (sset (fun _ => 0) (sramOf s d) w (putBytes (sramWord s d w) off b))

/-- The part of an access of `n` bytes at an address that falls into word `i` of it: word number, offset, first byte and length. -/
def wordPart (a n i : Nat) : Nat × Nat × Nat × Nat :=
  let w := a / 8 + i
  let lo := max a (8 * w)
  (w, lo - 8 * w, lo - a, min (a + n) (8 * w + 8) - lo)

/-- Words that an access touches. -/
def wordCount (a n : Nat) : Nat := (a % 8 + n + 7) / 8

/-- Bytes stored at an address. -/
def storeBytes (s : State) (d : Die) (a : Nat) (b : Bytes) : State :=
  (List.range (wordCount a b.length)).foldl (fun s i =>
    let (w, off, lo, n) := wordPart a b.length i
    storeWord s d w off (cut b lo n)) s

/-- Bytes loaded from an address. -/
def loadBytes (s : State) (d : Die) (a n : Nat) : Bytes :=
  ((List.range (wordCount a n)).map (fun i =>
    let (w, off, _, k) := wordPart a n i
    cut (leBytes 8 (sramWord s d w).toNat) off k)).flatten

/-- Accesses of one cycle: every load sees the words as they stand before it, and the stores land in port order (Table 3). -/
def oneCycle (s : State) (d : Die) (l : List SramAccess) : List (SramAccess × Bytes) × State :=
  let reads := l.filterMap (fun x => match x.store with | none => some (x, loadBytes s d x.addr x.len) | some _ => none)
  let stores := fun p => l.filterMap (fun x => if x.port = p then x.store.map (fun b => (x.addr, b.take x.len)) else none)
  (reads, [0, 1, 2, 3].foldl (fun s p => (stores p).foldl (fun s e => storeBytes s d e.1 e.2) s) s)

/-- Banks that an access uses. -/
def banksOf (x : SramAccess) : List Nat := (List.range (wordCount x.addr x.len)).map (fun i => (x.addr / 8 + i) % 64)

/-- Two accesses need one port of one bank. -/
def sharesPort (x y : SramAccess) : Bool := x.port == y.port && (banksOf x).any (fun b => (banksOf y).contains b)

/-- The accesses that go in one cycle, in order of arrival, and those that wait (R396). -/
def pickCycle : List SramAccess → List SramAccess → List SramAccess × List SramAccess
  | now, [] => (now, [])
  | now, x :: r =>
    if now.any (sharesPort x) then
      let (a, b) := pickCycle now r
      (a, x :: b)
    else pickCycle (now ++ [x]) r

/-- Accesses are served, cycle after cycle. -/
def serveCycles (n : Nat) (s : State) (d : Die) (l : List SramAccess) : List (SramAccess × Bytes) × State :=
  match n with
  | 0 => ([], s)
  | m + 1 =>
    match l with
    | [] => ([], s)
    | _ =>
      let (now, wait) := pickCycle [] l
      let (r, s) := oneCycle s d now
      let (r', s) := serveCycles m s d wait
      (r ++ r', s)

end Sys2Proof.Machine
end

