-- ==== Sys2Proof/Machine/Memory.lean ====
section
/-!
DEFINITION. Shared SRAM, the Pool's cells and queues, protection and integrity codes (R345 to R349, R394 to R413).
-/
namespace Sys2Proof.Machine

/-! ### Rows (R401) -/

/-- A marked row is copied into a spare of its group. A group without one keeps the row in use. -/
def replaceRow (d : Die) (bank row : Nat) (s : State) : State :=
  let b := bankOf s d bank
  if !(dieOf s d).inService || !b.marked.contains row || decide (64 ≤ bank) then s
  else
    let before := s
    let g := groupAt row
    let n := b.used.getD g 0
    let b := { b with marked := b.marked.filter (fun x => x != row) }
    let s := if n < 2 then
        let s := setBank s d bank { b with used := b.used.set g (n + 1), rowMap := mput b.rowMap row (2 * g + n) }
        let s := setDie s d { dieOf s d with sramRowsUsed := (dieOf s d).sramRowsUsed + 1 }
        let (v, s) := rowNews (raise s (pgMem d bank) 2) d 3 3
        journal s (jev 0x0605 1 (dieSource d) (detail 0 v 0 0 5))
      else raise (setBank s d bank b) (pgMem d bank) 3
    refreshHealth before s

def execRowReplace (die : Die) (bank row : Nat) (s : State) : Answer := endWith s (replaceRow die bank row s)

/-! ### Uncorrectable words (R398, R400) -/

/-- What every uncorrectable word brings: its counter, its event, the integrity window, the journal and the row's mark. -/
def uncorrectable (s : State) (d : Die) (a : Nat) : State :=
  let k := bankAt a
  let s := raise (bump s (pgMem d k + 0x100) 32 16 1) (pgMem d k) 1
  let s := journal (integrityEvent s) (jev 0x0401 2 (dieSource d) (detail 0 k a 0 0))
  let s := setBank s d k { bankOf s d k with errRow := some (rowAt a) }
  markRow s d k (rowAt a)

/-- Steps that a predicate accepts and whose numbers are not assigned: re-executed in duplex running, ended in simplex. -/
def restoreSteps (s : State) (p : Nat → Step → Bool) : State :=
  (stepsWhere s (fun k t => p k t && t.seq.isNone && !isCommitted t)).foldl
    (fun s k => if duplex s then loseStep s k else endStep s k stIntegrity) s

/-- A head in a fetch slot is dropped and read again from host memory. -/
def dropHead (s : State) (n p : Nat) : State := relist (headGone (setRing s n p { ringOf s n p with fetch := none }) n p) n

/-- The step that owns a yield area or a core's scratch is re-executed. -/
def ownerLost (s : State) (k : Nat) : State :=
  match stepOf s k with
  | some t => if t.phase != .parked then loseStep s k else s
  | none => s

/-- The outcome of Table 4 on the active die. `owner` is the step that owns a yield area. -/
def regionLost (s : State) (d : Die) (a owner : Nat) : State :=
  match regionAt a with
  | .contexts => restoreSteps s (fun k _ => ctxOf k == (a - 0x1000000) / 512)
  | .fetchSlots => let i := (a - 0x2000000) / 4096; dropHead s (i / 8) (i % 8)
  | .yieldAreas => (match stepOf s owner with | some t => if holdsYield t then ownerLost s owner else s | none => s)
  | .scratch => (match (coreOf s ((a - 0x5000000) / 0x8000)).exec with | some k => ownerLost s k | none => s)
  | .streams => if duplex s then s else { s with streams := s.streams.filter (fun e => e.1 % 16384 != (a - 0x5900000) / 256) }
  | .rawBuffer => endRaw s d
  | .pool | .firmware => s

/-- A die whose firmware working data is lost declares itself fatal (R435). -/
def firmwareLost (s : State) (d : Die) : State :=
  if (dieOf s d).declaredFatal.isSome then s else setDie s d { dieOf s d with declaredFatal := some 2 }

/-- An Eddy entry takes an uncorrectable error: its step is re-executed, and no other step is affected (Table 4 of the speculation
chapter). -/
def entryLost (s : State) (c i : Nat) : State :=
  let e := (coreOf s c).eddy.getD i {}
  if e.mode = .free ∨ e.mode = .scrub then s else loseStep s e.step

/-- A word that cannot be corrected is found. A cell of the Pool is the subject of POOL_UNCORRECTABLE. The addresses above the
SRAM name the Eddy entries of the active die, four to a core, which are no part of the SRAM. -/
def sramUncorrectable (d : Die) (a owner : Nat) (bothCopies : Bool) (s : State) : State :=
  if 0x8000000 ≤ a then
    if activeDie s = some d ∧ s.sw.gap = none then settle (entryLost s ((a - 0x8000000) / 4) (a % 4)) else s
  else if !(dieOf s d).inService || regionAt a == .pool then s
  else
    let before := s
    let s := uncorrectable s d a
    let s := if regionAt a = .firmware then (if bothCopies then firmwareLost s d else s)
      else if regionAt a = .rawBuffer then endRaw s d
      else if activeDie s = some d ∧ s.sw.gap = none then regionLost s d a owner
      else s
    settle (refreshHealth before s)

def execSramUncorrectable (die : Die) (addr owner : Nat) (bothCopies : Bool) (s : State) : Answer :=
  endWith s (sramUncorrectable die addr owner bothCopies s)

/-- A queue without its item number `i`, which is lost. -/
def dropItem (s : State) (d : Die) (q c : Nat) : State :=
  let x := poolQueue s d q
  if x.items.any (fun e => e.1 == c) then
    raise (setPoolQueue s d q { x with items := x.items.filter (fun e => e.1 != c), lost := min (x.lost + 1) 0xFFFFFFFF }) (pgPol d) 3
  else s

/-- A staged event without its cell is lost. -/
def dropStaged (s : State) (d : Die) (c : Nat) : State :=
  let g := s.gauge
  if g.q.staged.any (fun e => e.cell == some c) then
    raise { s with gauge := { g with q := { g.q with staged := g.q.staged.filter (fun e => e.cell != some c) }
                                     lostStaged := min (g.lostStaged + 1) 0xFFFFFFFF } } (pgPol d) 3
  else s

/-- The body of a cell is lost (R345): an item of queues 24 to 26 is dropped and counted as lost; a cell of a request is restored
from the standby die's copy, and in simplex running its step ends. -/
def cellLost (s : State) (d : Die) (c : Nat) : State :=
  let s := dropItem (dropItem s d 24 c) d 25 c
  if activeDie s ≠ some d ∨ s.sw.gap.isSome = true then s
  else
    let s := dropStaged s d c
    if duplex s then s else endAll s (fun _ t => t.cells.contains c) stIntegrity

/-- A word of a Pool cell cannot be corrected: a link word is repaired from its other copy, a body is lost. -/
def poolUncorrectable (d : Die) (a : Nat) (s : State) : State :=
  if !(dieOf s d).inService || regionAt a != .pool then s
  else
    let before := s
    let s := uncorrectable s d a
    let s := if 48 ≤ a % 64 then bump s (pgPol d + 0x110) 48 16 1
      else cellLost (raise (bump s (pgPol d + 0x110) 32 16 1) (pgPol d) 2) d (a / 64)
    settle (refreshHealth before s)

def execPoolUncorrectable (die : Die) (addr : Nat) (s : State) : Answer := endWith s (poolUncorrectable die addr s)

/-! ### Patrol (R398, R399) -/

/-- One correction of the patrol: a data bit or a check bit of the word at an address. Eight corrections in a row within a pass
mark it. -/
def patrolFix (d : Die) (s : State) (f : Nat × Bool) : State :=
  let (a, check) := f
  let k := bankAt a
  let lo := if check then 16 else 0
  let s := bump s (pgMem d k + 0x100) lo 16 1
  let s := if regionAt a = .pool then bump s (pgPol d + 0x110) lo 16 1 else s
  let b := bankOf s d k
  let n := sget (fun _ => 0) b.fixes (rowAt a) + 1
  let s := setBank s d k { b with fixes := sset (fun _ => 0) b.fixes (rowAt a) n }
  if 8 ≤ n then markRow s d k (rowAt a) else s

/-- A pass of the patrol ends: `fixes` are the words that it corrected. -/
def patrolPass (d : Die) (fixes : List (Nat × Bool)) (s : State) : State :=
  if !(dieOf s d).inService then s
  else
    let before := s
    let s := fixes.foldl (patrolFix d) s
    let s := (List.range 64).foldl (fun s k => setBank s d k { bankOf s d k with fixes := [] }) s
    refreshHealth before (bump s (pgMem d 0 + 0x180) 0 32 1)

def execPatrolPass (die : Die) (fixes : List (Nat × Bool)) (s : State) : Answer := endWith s (patrolPass die fixes s)

/-! ### Protection (R405 to R409) -/

/-- An enabled rule holds an address. -/
def ruleHolds (w : Word) (a : Nat) : Bool :=
  let size := if getF w 24 21 = 0 then 2097152 else getF w 24 21
  bitOf w 0 && decide (getF w 3 21 * 64 ≤ a) && decide (a < (getF w 3 21 + size) * 64)

/-- The deciding rule of a set: the lowest-numbered enabled one that holds the address, or 16. -/
def decidingRule (set : List Word) (a : Nat) : Nat := ((List.range 16).find? (fun i => ruleHolds (set.getD i 0) a)).getD 16

/-- A rule set permits a core's access. -/
def ruleAllows (set : List Word) (a : Nat) (write : Bool) : Bool :=
  let i := decidingRule set a
  decide (i < 16) && bitOf (set.getD i 0) (if write then 2 else 1)

/-- The core that makes an access of the active die, if a core does: the even-numbered ones use port 2, the odd-numbered ones
port 3 (Table 2). -/
def accessCore (x : SramAccess) : Option Nat := x.core.filter (fun c => x.port == 2 + c % 2)

/-- An access is made: the access of a core passes its active rule set, others are not checked (R403). -/
def coreMay (s : State) (d : Die) (x : SramAccess) : Bool :=
  match x.core with
  | none => true
  | some c => decide (curDie s = d) && x.port == 2 + c % 2 &&
      ruleAllows (if (rulesOf s c).active = 0 then (rulesOf s c).set0 else (rulesOf s c).set1) x.addr x.store.isSome

/-- Data of a load with what the core's own write buffer holds at its address, the newest store last (R397). -/
def forwarded (l : List Buffered) (a : Nat) (b : Bytes) : Bytes :=
  ((List.range b.length).zip b).map (fun e =>
    l.foldl (fun v x => if x.addr ≤ a + e.1 ∧ a + e.1 < x.addr + x.data.length then x.data.getD (a + e.1 - x.addr) v else v) e.2)

/-- A load of a core receives its data. -/
def coreLoaded (s : State) (d : Die) (x : SramAccess) (b : Bytes) : State :=
  match x.core with
  | some c => if curDie s = d then setCore s c { coreOf s c with loaded := forwarded (coreOf s c).buffer x.addr b } else s
  | none => s

/-- A bank has had no free cycle for 1 µs. -/
def patrolForced (d : Die) (bank : Nat) (l : List SramAccess) (s : State) : State :=
  if !(dieOf s d).inService then s
  else
    let waits := fun x => x.port == 1 && (banksOf x).contains bank
    let s := bump s (pgMem d 0 + 0x180) 32 32 1
    let (a, s) := oneCycle s d (l.filter (fun x => !waits x && coreMay s d x))
    let (b, s) := serveCycles l.length s d (l.filter waits)
    (a ++ b).foldl (fun s e => coreLoaded s d e.1 e.2) s

def execSramPatrolForced (die : Die) (bank : Nat) (accesses : List SramAccess) (s : State) : Answer :=
  endWith s (patrolForced die bank accesses s)

/-- The core that runs a step. -/
def coreRunning (s : State) (k : Nat) : Option Nat :=
  match stepOf s k with
  | some t => (match t.phase with | .executing c => if t.seq.isNone then some c else none | _ => none)
  | none => none

/-- A violation stands in the MPU registers of its core, and is captured, counted and journalled. Kinds: 0 load, 1 unbuffered
store, 2 buffered store, 3 unaligned access. -/
def violation (s : State) (c k kind a : Nat) (pc : Option Nat) : State :=
  match stepOf s k with
  | none => s
  | some t =>
    let d := curDie s
    let pg := pgMpu d c
    let r := rulesOf s c
    let rule := if kind = 3 then 16 else decidingRule (if r.active = 0 then r.set0 else r.set1) a
    let s := wr s (pg + 0x118) (fld 0 2 kind ||| fld 2 5 rule ||| fld 7 1 r.active ||| flag 8 pc.isSome ||| fld 9 15 (ctxOf k) |||
      fld 24 3 t.index ||| fld 27 11 r.activeOwner)
    let s := wr (wr s (pg + 0x120) (fld 0 27 a)) (pg + 0x128) (fld 0 32 (pc.getD 0))
    let s := bump s (pg + 0x108) (match kind with | 0 | 1 => 0 | 2 => 16 | _ => 32) 16 1
    let s := capture s pg { cause := 0x0101 + kind, source := dieSource d, addr := a, tag := dTag t.desc, slice := some t.sliceNo }
    let s := raise s pg (if kind = 3 then 2 else 1)
    journal (integrityEvent s) { jev 0x0403 2 (dieSource d) (detail (0x0101 + kind) c a (dTag t.desc) 0) (some t.sliceNo) with op := dOp t.desc }

/-- A refused load or unbuffered store, or an unaligned access, traps: the instruction does not execute, and the request ends. -/
def preciseTrap (k kind a pc : Nat) (s : State) : State :=
  match coreRunning s k with
  | none => s
  | some c =>
    if !serving s || decide (3 < kind) || kind == 2 then s
    else
      let before := s
      let s := violation s c k kind a (some pc)
      settle (refreshHealth before (match stepOf s k with | some t => endHere s k t stProtection | none => s))

def execMpuPreciseTrap (k kind addr pc : Nat) (s : State) : Answer := endWith s (preciseTrap k kind addr pc s)

/-- The oldest entry of a core's write buffer leaves it, checked against the set that was active when it was issued: it lands, or it
is discarded and recorded, and its request is to end at its next instruction boundary (R397, R408). -/
def drainOne (s : State) (c : Nat) : State :=
  match (coreOf s c).buffer with
  | [] => s
  | e :: rest =>
    let s := setCore s c { coreOf s c with buffer := rest }
    let r := rulesOf s c
    if ruleAllows (if e.set = 0 then r.set0 else r.set1) e.addr true then storeBytes s (curDie s) e.addr e.data
    else endStep (violation s c e.step 2 e.addr none) e.step stProtection

/-- The write buffer drains, in the order in which the core issued its stores. -/
def drainAll (s : State) (c : Nat) : State := (List.range (coreOf s c).buffer.length).foldl (fun s _ => drainOne s c) s

/-- A store of a core enters its write buffer; where that is full, the oldest entry leaves first (R407). -/
def bufferStore (s : State) (c k : Nat) (e : Nat × Bytes) : State :=
  let s := if 8 ≤ (coreOf s c).buffer.length then drainOne s c else s
  setCore s c { coreOf s c with buffer := (coreOf s c).buffer ++ [⟨e.1, e.2, (rulesOf s c).active, k⟩] }

/-- Stores of a step enter the write buffer of its core and drain from it; a store that the rules refuse is discarded. -/
def storesDrain (k : Nat) (stores : List (Nat × Bytes)) (s : State) : State :=
  match coreRunning s k with
  | none => s
  | some c =>
    if !serving s then s
    else
      let before := s
      refreshHealth before (drainAll (stores.foldl (fun s e => bufferStore s c k e) s) c)

def execMpuBufferedStoreRefused (k : Nat) (stores : List (Nat × List Byte)) (s : State) : Answer := endWith s (storesDrain k stores s)

/-! ### Integrity codes (R412, R413) -/

/-- The integrity code of a flit: the CRC over its destination address, its transfer tag and its data (R410). -/
def flitCode (f : Flit) : Nat := crc16 (leBytes 8 f.addr.toNat ++ leBytes 4 f.tag.toNat ++ f.data)

/-- A flit passes the check of its destination. -/
def flitPasses (f : Flit) : Bool := f.code.toNat == flitCode f

/-- One mismatch at a destination on a die. -/
def mismatch (s : State) (d : Die) : State := bump (integrityEvent s) (pgMem d 0 + 0x188) 0 16 1

/-- A flit arrives at its destination: one that fails its code is discarded, and the retry of its origin arrives. A retry that fails
too is the subject of INTEGRITY_SECOND_MISMATCH. -/
def integrityMismatch (d : Die) (f retry : Flit) (s : State) : State :=
  if !(dieOf s d).inService || flitPasses f then s
  else
    let before := s
    let s := mismatch s d
    refreshHealth before (if flitPasses retry then bump s (pgMem d 0 + 0x188) 16 16 1 else s)

def execIntegrityMismatch (die : Die) (flit retry : Flit) (s : State) : Answer := endWith s (integrityMismatch die flit retry s)

/-- A frame write of a transaction fails before its step 4: it rolls back, and its step ends. -/
def frameLost (s : State) (m : Nat) : State :=
  match mget s.kst.marks m with
  | none => s
  | some x =>
    if x.flipped then s
    else match x.kind with
      | .step k =>
        (match stepOf s k with
         | some t => if t.seq.isSome then s else endNow s k stIntegrity
         | none => dropMark s m)
      | _ => if x.seq = 0 then dropMark s m else s

/-- A mirror record is sent on the other half; a mismatch there takes the standby die out of service. -/
def recordLost (s : State) (n : Nat) : State :=
  match mirrorRec s n with
  | none => s
  | some r =>
    if r.half ≠ mirrorHalf s n ∨ halfUp s (1 - r.half) = false then standbyLost s
    else { s with sw := { s.sw with recs := s.sw.recs.map (fun x => if x.seq = n then { x with half := 1 - r.half, sentNt := s.nt.ns } else x) } }

/-- The outcome of Table 8. Kinds: 0 a transfer for a step, 1 a frame write of a mark, 2 a write of something committed,
3 a frame read of a slot, 4 a descriptor or list read of a ring, 5 a mirror record, 6 register forwarding at an address. -/
def secondOutcome (s : State) (d : Die) (kind i : Nat) (who : Party) : State :=
  match kind with
  | 0 => endStep s i stIntegrity
  | 1 => frameLost s i
  | 3 => tagAgain i s
  | 4 => dropHead s (i / 8) (i % 8)
  | 5 => recordLost s i
  | 6 => captureAt s (pgMem d 0) who 0x0110 i
  | _ => s

/-- The retry of a flit arrives, and fails its code too. -/
def secondMismatch (d : Die) (f : Flit) (kind i : Nat) (who : Party) (s : State) : State :=
  if !(dieOf s d).inService || decide (6 < kind) || flitPasses f then s
  else
    let before := s
    let s := bump (mismatch s d) (pgMem d 0 + 0x188) 32 16 1
    let s := journal (raise s (pgMem d 0) 4) (jev 0x0404 2 (dieSource d) (detail 0 kind 0 0 i))
    let s := if serving s then secondOutcome s d kind i who else s
    settle (refreshHealth before s)

def execIntegritySecondMismatch (die : Die) (flit : Flit) (kind index : Nat) (who : Party) (s : State) : Answer :=
  endWith s (secondMismatch die flit kind index who s)

/-! ### The queues of the Pool (R349, R510) -/

/-- An item of the queue that is still being read turns into the idle item: its words that have not been read are zero. The number
of items lost so. -/
def flushLatch (s : State) (d : Die) (q : Nat) : Nat × State :=
  match (dieOf s d).latched with
  | some (p, rest) =>
    if p = q then (1, setDie (rest.foldl (fun s off => wr s (pgPol d + off) 0) s) d { dieOf s d with latched := none }) else (0, s)
  | none => (0, s)

/-- Every item of the selected queue is lost, and the one that is still being read. -/
def flushQueue (s : State) (d : Die) (q : Nat) : State :=
  let (k, s) := flushLatch s d q
  let lost := fun (n : Nat) (s : State) => if n = 0 then s else raise s (pgPol d) 3
  if q = 24 ∨ q = 25 then
    let x := poolQueue s d q
    let n := x.items.length + k
    lost n (setPoolQueue s d q { x with items := [], lost := min (x.lost + n) 0xFFFFFFFF })
  else if curDie s ≠ d then s
  else
    let x := s.gauge.q
    let n := x.staged.length + (if x.cont.isSome then 1 else 0) + (if x.summary.isSome then 1 else 0) + k
    let s := lost n { s with gauge := { s.gauge with q := {}, lostStaged := min (s.gauge.lostStaged + n) 0xFFFFFFFF } }
    journal s (jev 0x0F05 2 (dieSource d) (detail 0 0 0 0 n))

/-- A write of POL_FLUSH. -/
def polFlush (who : Party) (d : Die) (w : Word) (s : State) : State :=
  if !bitOf w 0 then s
  else if 24 ≤ qsel s d ∧ qsel s d ≤ 26 then flushQueue s d (qsel s d)
  else captureAt s (pgPol d) who 0x0101 (pgPol d + 0x170)

def execPolFlush (who : Party) (die : Die) (s : State) : Answer :=
  endWith s (gateWrite s who .pol (pgPol die) 0x170 true (polFlush who die 1))

/-- The six words of an item of 48 bytes. -/
def itemWords (b : Bytes) : List Word := (List.range 6).map (fun i => BitVec.ofNat 64 (leAt b (8 * i) 8))

/-- The idle item (R347). -/
def idleItem : List Word := [0xFFFFFFFF00000000, 0, 0, 0, 0, 0]

/-- The head item of the selected queue is removed: its words, and the state without it. -/
def takeItem (s : State) (d : Die) : List Word × State :=
  let q := qsel s d
  if q = 24 ∨ q = 25 then
    (match (poolQueue s d q).items with
     | x :: r => (itemWords x.2, setPoolQueue s d q { poolQueue s d q with items := r })
     | [] => (idleItem, s))
  else if q = 26 ∧ curDie s = d then
    (match s.gauge.q.staged with
     | x :: r => (itemWords (stagedBody x), { s with gauge := { s.gauge with q := { s.gauge.q with staged := r } } })
     | [] => (idleItem, s))
  else (idleItem, s)

/-- A read of POL_QREAD0: it answers the first word and latches the others, which are still to be read. -/
def queueRead (s : State) (d : Die) : Word × State :=
  let (ws, s) := takeItem s d
  let rest := (List.range 5).map (fun i => 0x148 + 8 * i)
  let s := (List.range 5).foldl (fun s i => wr s (pgPol d + 0x148 + 8 * i) (ws.getD (i + 1) 0)) s
  (ws.getD 0 0, setDie s d { dieOf s d with latched := if ws = idleItem then none else some (qsel s d, rest) })

/-- A word of the item that is being read has been read. -/
def latchRead (s : State) (d : Die) (off : Nat) : State :=
  match (dieOf s d).latched with
  | some (q, rest) =>
    let rest := rest.filter (fun x => x != off)
    setDie s d { dieOf s d with latched := if rest.isEmpty then none else some (q, rest) }
  | none => s

end Sys2Proof.Machine
end

