-- ==== Sys2Proof/Machine/Power.lean ====
section
/-!
DEFINITION. Supply and temperature (R24 to R27, R425, R456, R533 to R544): the domains and what they lose, the battery, and
the governor.
-/
namespace Sys2Proof.Machine

/-! ### What the main domain holds (R24) -/

/-- The page lies in the always-on domain: NTU, LEV, VLT and LCC. -/
def alwaysOnPage (a : Nat) : Bool :=
  (decide (0x6000 ≤ a) && decide (a < 0x7000)) || (decide (0xA000 ≤ a) && decide (a < 0x10000))

/-- A card port without power: no session, no result (R315, R530). -/
def cardOff (c : CardPort) : CardPort := { present := c.present }

/-- The governor at its reset. -/
def governorOff (x : Supply) : Supply :=
  { x with capped := false, bnlStep := 0, clockStep := 0, emergency := false, cappedMs := 0, lid := 0, power := 0 }

/-- The pages of the main domain, and what the warden and the arbiter hold, take their reset values (R485). -/
def resetPages (s : State) : State :=
  { s with
    regs := s.regs.filter (fun e => alwaysOnPage e.1), sems := [], wardenWaiting := false
    card0 := cardOff s.card0, card1 := cardOff s.card1, supply := governorOff s.supply
    life := { s.life with fusSel := 0, trigger := 0, marginal := 0, ambiguous := 0, lastWord := 0, lastKind := 0
                          lastRestrictive := false, lastNt := 0 }
    gauge := { s.gauge with jrnSel := 0, histSel := 0, epochS := 3600, writing := none } }

/-- The main domain loses its power (R27, R534): service ends, the journal events that no MRAM die holds are lost, the ports
are down, and a power-down of at most 5 ms runs. -/
def mainDown (s : State) : State :=
  let s := resetPages (endService s)
  { s with
    portA := {}, portB := {}
    gauge := { s.gauge with buf := {} }
    starts := { s.starts with step := 0, due := none, quiesceEnd := none, quiesced := false, failing := none, rollout := false
                              dieDue0 := false, dieDue1 := false, pass0 := false, pass1 := false }
    life := { s.life with busy := false, sensing := false, burning := false }
    supply := { s.supply with downEnd := some (s.nt.ns + 5000000) } }

/-- The main-domain rails report good: Levee's masks lift and a cold start is due (R456, R533). -/
def railsUp (s : State) : State :=
  { s with lev := { s.lev with masked := false }
           starts := { s.starts with due := some 0, quiesceEnd := none, quiesced := false, failing := none, step := 0 } }

/-- The rails come up when VIN is within rating, the always-on domain has started and no power-down runs. -/
def tryRails (s : State) : State :=
  if s.supply.vin && s.supply.alwaysOn && s.supply.downEnd.isNone then railsUp s else s

/-! ### VIN (R533, R534) -/

/-- VIN comes within rating. During a power-down it is handled at its end. -/
def vinArrival (s : State) : State :=
  if s.supply.vin then s else tryRails { s with supply := { s.supply with vin := true } }

def execVinArrival (s : State) : Answer := endWith s (vinArrival s)

/-- VIN is lost. -/
def vinLoss (s : State) : State :=
  if !s.supply.vin then s
  else
    let was := s.supply.downEnd.isSome || !s.supply.alwaysOn
    let s := { s with supply := { s.supply with vin := false } }
    if was then s else mainDown s

def execVinLoss (s : State) : Answer := endWith s (vinLoss s)

/-- A main-domain power-down ends. -/
def powerDownDone (s : State) : State :=
  if s.supply.downEnd.isNone then s else tryRails { s with supply := { s.supply with downEnd := none } }

def execPowerDownDone (s : State) : Answer := endWith s (powerDownDone s)

/-! ### Brown-out (R456) -/

/-- A record is written at once, after the one in progress. -/
def journalNow (s : State) (e : JEvent) : State :=
  let s := finishRecord s
  let e := { e with nt := s.nt.ns, seqAt := (dieOf s (curDie s)).applied }
  let n := s.gauge.nextRec
  let s := putJournal s (match standbyDie s with | some _ => [.d0, .d1] | none => journalDies s) n (recordBytes e n)
  { s with gauge := { s.gauge with nextRec := n + 1, epochRecords := s.gauge.epochRecords + 1 } }

/-- A confirmed undervoltage of a main-domain rail: journalled at tier 0, and service ends as for a loss of VIN. -/
def brownOut (s : State) : State :=
  if !s.lev.brownDue then s
  else
    let s := { s with lev := { s.lev with brownDue := false } }
    if !s.supply.vin || s.supply.downEnd.isSome then s
    else
      let s := journalNow s (jev 0x0109 1 5 (detail 0 6 0 0 1))
      mainDown { s with lev := { s.lev with masked := true } }

def execBrownOut (s : State) : Answer := endWith s (brownOut s)

/-! ### VAUX and the battery (R25, R425, R457, R535, R536) -/

/-- What Levee holds outside the battery domain: only the flags, the tamper-halt latch and the count of tier 3 stay. -/
def leveeOnBattery (l : Levee) : Levee :=
  { flags := l.flags, zeroised := l.zeroised, halted := l.halted, tier3Count := l.tier3Count, present := l.present
    tierNow := if l.halted then 3 else 0 }

/-- VAUX is lost: the always-on domain changes over to VBAT, and the main domain powers down. -/
def vauxLoss (s : State) : State :=
  if !s.supply.vaux then s
  else
    let s := if s.supply.vin && s.supply.downEnd.isNone && s.supply.alwaysOn then mainDown s else s
    { s with
      supply := { s.supply with vaux := false, alwaysOn := false, batteryLow := false }
      regs := s.regs.filter (fun e => !alwaysOnPage e.1)
      lev := leveeOnBattery s.lev
      life := { s.life with staging := [], token := [0, 0, 0, 0], result := 0, target := 0, tokenIx := 0 } }

def execVauxLoss (s : State) : Answer := endWith s (vauxLoss s)

/-- VAUX has been within rating for 5 ms: the always-on domain starts, NT resumes one second above the floor, and trust is
UNTRUSTED. -/
def vauxReturn (s : State) : State :=
  if s.supply.vaux then s
  else
    let t := s.vault.ntFloor + 1000000000
    let s := { s with
      supply := { s.supply with vaux := true, alwaysOn := true, downEnd := none }
      nt := { ns := t, since := t, cause := 1 }
      lev := { s.lev with lastTest := t }
      gauge := { s.gauge with lastSecond := t } }
    tryRails s

def execVauxReturn (s : State) : Answer := endWith s (vauxReturn s)

/-- What the kept region reads after its power was lost: the manual gives no values (R536). Its blocks fail their check. -/
def lostKept (s : State) : State :=
  let (a, s) := drawFree s
  let (b, s) := drawFree s
  let (c, s) := drawFree s
  let (d, s) := drawFree s
  let (e, s) := drawFree s
  let (f, s) := drawFree s
  let (g, s) := drawFree s
  { s with
    vault := { keptBad := true, ntFloor := a, sealNext := b, resetEpoch := c, cerNext := d, instCount := e
               boot0 := { slot := f % 2 }, boot1 := { slot := f / 2 % 2 } }
    kst := { s.kst with marks := [] }
    lev := { s.lev with flags := (List.range 17).filter (fun h => h != 0 && g.testBit h), halted := g.testBit 0, zeroised := g.testBit 17
                        tier3Count := g / 2 ^ 18, tierNow := if g.testBit 0 then 3 else 0 } }

/-- VBAT falls below its rating with VAUX absent: the battery-low hazard responds at tier 3, and the kept region is lost. -/
def alwaysOnLost (s : State) : State :=
  if s.supply.vaux then s else lostKept (zeroiseThree (setFlags s [0x0F]))

def execAlwaysOnPowerLost (s : State) : Answer := endWith s (alwaysOnLost s)

/-- VBAT falls below 2.7 V while VAUX is present. -/
def batteryLow (mv : Nat) (s : State) : State :=
  if !s.supply.vaux || s.supply.batteryLow || decide (2700 ≤ mv) then s
  else raise { s with supply := { s.supply with batteryLow := true, vbatMv := mv } } (pgLev 3) 1

def execBatteryLow (vbatMv : Nat) (s : State) : Answer := endWith s (batteryLow vbatMv s)

/-! ### The governor (R541 to R544) -/

/-- The warden runs. -/
def wardenUp (s : State) : Bool := s.supply.vin && s.supply.alwaysOn && s.supply.downEnd.isNone

/-- The cap's own steps: one more while VIN power exceeds 85 W, one less where its estimated saving still fits. Powers are
in units of 0.1 W; a BNL step saves 2.85 W and a clock step 1.725 W. -/
def capStep (x : Supply) : Supply :=
  if 850 < x.power then
    (if x.bnlStep < 6 then { x with bnlStep := x.bnlStep + 1 }
     else if x.clockStep < 8 then { x with clockStep := x.clockStep + 1 } else x)
  else if 0 < x.clockStep then (if 40 * x.power + 690 ≤ 34000 then { x with clockStep := x.clockStep - 1 } else x)
  else if 0 < x.bnlStep then (if 40 * x.power + 1140 ≤ 34000 then { x with bnlStep := x.bnlStep - 1 } else x)
  else x

/-- One more millisecond under the cap; every thousandth counts a second. -/
def countCapped (s : State) : State :=
  let n := s.supply.cappedMs + 1
  let s := { s with supply := { s.supply with cappedMs := n } }
  if n % 1000 = 0 then bump s (pgWdn 0 + 0x188) 0 32 1 else s

/-- The emergency throttle of R543. -/
def governEmergency (s : State) (temp : Int) : State :=
  let x := s.supply
  if !x.emergency && decide (1760 ≤ temp) then
    bump { s with supply := { x with emergency := true, bnlStep := 6, clockStep := 8 } } (pgWdn 0 + 0x188) 48 16 1
  else if x.emergency && decide (temp ≤ 1680) then { s with supply := { x with emergency := false, lastRemoval := s.nt.ns } }
  else s

/-- The power cap engages where the higher lid reading is at least 95.0 °C and lifts at 85.0 °C (R539, R542); between, it acts unless
an emergency is in force. -/
def governCap (s : State) : State :=
  let x := s.supply
  if !x.capped then
    (if 1520 ≤ x.lid then bump { s with supply := { x with capped := true } } (pgWdn 0 + 0x188) 32 16 1 else s)
  else if x.lid ≤ 1360 then { s with supply := { x with capped := false, lastRemoval := s.nt.ns } }
  else if x.emergency then s
  else { s with supply := capStep x }

/-- A sample of both lid readings, of which the governor takes the higher, and the highest junction, in 1/16 °C, and of VIN power, in
0.1 W (R541). -/
def governorSample (lid0 lid1 temp : Int) (power : Nat) (s : State) : State :=
  if !wardenUp s then s
  else
    let s := reach s ((s.nt.ns / 1000000 + 1) * 1000000)
    let s := { s with supply := { s.supply with lid := max lid0 lid1, power := power, temp := temp } }
    let s := if s.supply.capped then countCapped s else s
    governCap (governEmergency s temp)

def execGovernorSample (lid0 lid1 temp : Int) (power : Nat) (s : State) : Answer := endWith s (governorSample lid0 lid1 temp power s)

/-- Without cap and emergency, the steps that remain go one every 10 ms, clock steps first. -/
def governorRemoval (s : State) : State :=
  let x := s.supply
  if !wardenUp s || x.capped || x.emergency || (x.clockStep == 0 && x.bnlStep == 0) then s
  else
    let s := reach s (x.lastRemoval + 10000000)
    { s with supply := { x with lastRemoval := s.nt.ns
                                clockStep := x.clockStep - 1
                                bnlStep := if x.clockStep = 0 then x.bnlStep - 1 else x.bnlStep } }

def execGovernorStepRemoval (s : State) : Answer := endWith s (governorRemoval s)

/-! ### Outputs (R532) -/

/-- THROT: none while VIN is absent. -/
def throtPin (s : State) : Option Bool := if s.supply.vin then some (s.supply.capped || s.supply.emergency) else none

/-- SERVICE_OK (R487): none while VAUX is absent. -/
def serviceOkPin (s : State) : Option Bool := if s.supply.vaux then some (activeDie s).isSome else none

/-- ALARM (R467): none while VAUX is absent. -/
def alarmOut (s : State) : Option Bool := if s.supply.vaux then some (alarmPin s) else none

end Sys2Proof.Machine
end

