-- ==== Sys2Proof/Machine/Fuse.lean ====
section
/-!
DEFINITION. The fuses (R477 to R484): sensing, the decision of words, burns, spare words and the policy.
-/
namespace Sys2Proof.Machine

/-! ### Copies and words (R477 to R480) -/

/-- A copy that holds data: programmed, with its check bits. -/
def fuseCode (data : Nat) : BitVec 32 :=
  let v := data % 2 ^ 24 + 2 ^ 24
  BitVec.ofNat 32 (v + (Config.fuseCheck v).toNat * 2 ^ 25)

/-- The syndrome of a reading is zero. A blank copy reads all zero. -/
def syndromeZero (r : BitVec 32) : Bool := r == 0 || r.toNat / 2 ^ 25 == (Config.fuseCheck (r.toNat % 2 ^ 25)).toNat

def copyConsistent (c : FuseCopy) : Bool := c.low == c.nom && c.nom == c.high && syndromeZero c.nom

/-- The nominal reading after correction of at most one bit; none where it is uncorrectable. -/
def copyCorrected (c : FuseCopy) : Option Nat :=
  if syndromeZero c.nom then some (c.nom.toNat % 2 ^ 25)
  else (List.range 32).findSome? (fun i =>
    let r := c.nom ^^^ BitVec.ofNat 32 (2 ^ i)
    if syndromeZero r then some (r.toNat % 2 ^ 25) else none)

/-- Table 7 over the candidate copies: value and status (0 sound, 1 marginal, 2 ambiguous). -/
def decideCopies (l : List FuseCopy) : Nat × Nat :=
  match l.filter copyConsistent with
  | x :: r =>
    if r.all (fun y => y.nom.toNat % 2 ^ 25 == x.nom.toNat % 2 ^ 25) then
      (x.nom.toNat % 2 ^ 25, if r.length + 1 = l.length then 0 else 1)
    else (0, 2)
  | [] =>
    match l.map copyCorrected with
    | some v :: r => if r.all (fun y => y == some v) then (v, 1) else (0, 2)
    | _ => (0, 2)

def fuseWord (s : State) (w : Nat) : FuseWord := sget (fun _ => {}) s.life.fuses w

/-- A primary word with its spare, where that is programmed. -/
def decidePair (p : FuseWord) (q : Option FuseWord) : Nat × Nat :=
  match q with
  | none => decideCopies [p.a, p.b]
  | some x => if (decideCopies [x.a, x.b]).2 ≠ 2 then decideCopies [x.a, x.b] else decideCopies [x.a, x.b, p.a, p.b]

/-- The life-cycle state whose entry burns word k. -/
def stateOfWord (k : Nat) : LifeState :=
  match k with
  | 0 => .test | 1 => .factory | 2 => .shipped | 3 => .owned | 4 => .analysis | _ => .scrap

/-- The stamp of a word's region (Table 6). -/
def stampOf (w : Nat) : Option Nat :=
  if w < 6 then some (0x4C4300 + lifeCode (stateOfWord w))
  else if 32 ≤ w ∧ w < 80 ∧ w % 4 = 3 then some (0x544B00 + (w - 35) / 4)
  else if 80 ≤ w ∧ w < 144 then some (0x415200 + (w - 79))
  else none

/-- The word is of a restrictive class. -/
def restrictiveWord (w : Nat) : Bool := (stampOf w).isSome || (decide (144 ≤ w) && decide (w < 152))

/-- The meaning of an ambiguous word (R480). -/
def ambiguousValue (w : Nat) : Nat :=
  match stampOf w with
  | some x => 2 ^ 24 + x
  | none => if 144 ≤ w ∧ w < 152 then 0xFFFFFF else 0

/-- The decided value and status of a primary word: status 3 where it is blank. -/
def decideWord (s : State) (w : Nat) : Nat × Nat :=
  let (v, st) := decidePair (fuseWord s w) (mget s.life.fuses (256 + w))
  let odd := match stampOf w with
    | some x => v != 0 && v != 2 ^ 24 + x
    | none => false
  if st = 2 ∨ odd = true then (ambiguousValue w, 2) else if v = 0 ∧ st = 0 then (0, 3) else (v, st)

/-- One word decided again, after a burn. -/
def redecide (s : State) (w : Nat) : State :=
  let put := fun l => sset (fun _ => (0, 3)) l w (decideWord s w)
  { s with life := { s.life with decided := put s.life.decided, inForce := s.life.inForce.map put } }

/-! ### Sensing (R479 to R481) -/

/-- Readings that the sensing circuit has from now on. -/
def putReads (s : State) (rs : List FuseRead) : State :=
  rs.foldl (fun s r =>
    if r.word < 512 then
      { s with life := { s.life with fuses := sset (fun _ => {}) s.life.fuses r.word ⟨⟨r.aLow, r.aNom, r.aHigh⟩, ⟨r.bLow, r.bNom, r.bHigh⟩⟩ } }
    else s) s

/-- A fuse event: kind 1 marginal, 2 ambiguous, 3 burn verification failed (FUS_LAST). -/
def lastFuse (s : State) (w kind : Nat) (restricted : Bool) : State :=
  { s with life := { s.life with lastWord := w, lastKind := kind, lastRestrictive := restricted, lastNt := s.nt.ns } }

/-- A marginal or ambiguous word is shown, raised and journalled. -/
def noteWord (s : State) (w kind : Nat) : State :=
  let r := kind == 2 && restrictiveWord w
  let s := raise (lastFuse s w kind r) (pgFus 0) kind
  journal s (jev (0x0801 + kind) (if kind = 2 then 2 else 1) 2 (detail 0 w 0 0 (if 8 ≤ w ∧ w ≤ 18 then 0 else (fuseVal s w).1)))

/-- The word is to be rewritten into its spare (R482). -/
def needsSpare (s : State) (w : Nat) : Bool :=
  let (v, st) := fuseVal s w
  !spareUsed s w && v != 0 && (st == 1 || (st == 2 && restrictiveWord w))

/-- A sense: every word is decided, and the marginal and ambiguous ones are noted and queued for a rewrite. -/
def senseFuses (s : State) (trigger : Nat) (temp : Int) : State :=
  let d := (List.range 256).filterMap (fun w => if decideWord s w = (0, 3) then none else some (w, decideWord s w))
  let s := { s with life := { s.life with
    decided := d, trigger := trigger, senseTemp := temp, sensing := false
    marginal := (d.filter (fun e => e.2.2 == 1)).length, ambiguous := (d.filter (fun e => e.2.2 == 2)).length } }
  let s := d.foldl (fun s e => if e.2.2 = 1 ∨ e.2.2 = 2 then noteWord s e.1 e.2.2 else s) s
  { s with life := { s.life with rewrites := (List.range 256).filter (needsSpare s) } }

/-- The state that the life-cycle words give: the later of two is the more restrictive (R480). -/
def stateIn (l : List (Nat × (Nat × Nat))) : LifeState :=
  match (List.range 6).reverse.find? (burnedIn l) with
  | some k => stateOfWord k
  | none => .raw
def fusedState (s : State) : LifeState := stateIn s.life.decided

/-- The state was read under R480. -/
def readUnder480 (s : State) : Bool := (List.range 6).any (fun k => (fuseVal s k).2 == 2)

/-- What the restrictive words mean together. -/
def fuseMeaning (l : List (Nat × (Nat × Nat))) : LifeState × Nat × Nat × List Bool :=
  (stateIn l, rollbackIn l, forbidIn l, (List.range 12).map (fun i => burnedIn l (35 + 4 * i)))

/-- Every 100 ms the warden compares the temperature with that of the last sense. A sense in service that changes a meaning
makes a warm start, at which the new meaning applies. -/
def tempSense (temp : Int) (done : Bool) (reads : List FuseRead) (s : State) : State :=
  if !wardenUp s || s.starts.step == 0 then s
  else
    let s := putReads (reach s ((s.nt.ns / 100000000 + 1) * 100000000)) reads
    let d := temp - s.life.senseTemp
    let moved := decide (320 < d) || decide (d < -320)
    if s.life.burning || !(moved || s.life.sensing) then s
    else if !done then { s with life := { s.life with sensing := true } }
    else
      let old := fuseTable s
      let s := senseFuses s 2 temp
      if fuseMeaning s.life.decided = fuseMeaning old then s else requestWarm { s with life := { s.life with inForce := some old } }

def execFuseTempSense (temp : Int) (done : Bool) (reads : List FuseRead) (s : State) : Answer :=
  endWith s (tempSense temp done reads s)

/-! ### Burns (R476, R482, R483) -/

/-- A word after its burn: both copies verify at the three thresholds, or neither does, and the word reads as ambiguous (R476). -/
def putWord (s : State) (w data : Nat) (ok : Bool) : State :=
  let c := fuseCode data
  let x : FuseWord := if ok then ⟨⟨c, c, c⟩, ⟨c, c, c⟩⟩ else ⟨⟨0, c, c⟩, ⟨0, 0, c⟩⟩
  { s with life := { s.life with fuses := sset (fun _ => {}) s.life.fuses w x } }

/-- A primary word is programmed. -/
def burnPrimary (s : State) (w data : Nat) (ok : Bool) : State :=
  let s := redecide (putWord s w data ok) w
  if ok then s else lastFuse s w 3 false

/-- The spare of a primary word is programmed, and the health reports count it (R448). -/
def burnSpare (s : State) (w data : Nat) (ok : Bool) : State :=
  let before := s
  let s := redecide (putWord s (256 + w) data ok) w
  let s := if ok then s else lastFuse s w 3 false
  refreshHealth before (raise s (pgFus 0) 3)

/-- A burn of a transition: where a copy fails twice, the word's spare is burned (R476). -/
def burnStamp (s : State) (w data : Nat) (ok spareOk : Bool) : State :=
  let s := burnPrimary s w data ok
  if ok then s else burnSpare s w data spareOk

/-- A rewrite ends: the spare is programmed and the fuse mark cleared. -/
def endRewrite (s : State) (ok : Bool) : State :=
  match s.vault.fuseMark with
  | none => s
  | some (w, v) =>
    let s := burnSpare s w v ok
    { s with vault := { s.vault with fuseMark := none }, life := { s.life with burning := false } }

/-- A transition burn takes precedence over a rewrite (R483). -/
def transitionBurns (s : State) : Bool := match s.vault.lifeMark with | some m => m.phase == 2 | none => false

/-- A marginal or ambiguous restrictive word is rewritten into its spare under the fuse mark. Without `done` the burn is
still under way. -/
def spareRewrite (done ok : Bool) (s : State) : State :=
  if !wardenUp s then s
  else match s.vault.fuseMark, s.life.rewrites with
    | some _, _ => if done then endRewrite s ok else s
    | none, w :: r =>
      if transitionBurns s then s
      else
        let s := { s with vault := { s.vault with fuseMark := some (w, (fuseVal s w).1 % 2 ^ 24) }
                          life := { s.life with rewrites := r, burning := true } }
        if done then endRewrite s ok else s
    | none, [] => s

def execFuseSpareRewrite (done ok : Bool) (s : State) : Answer := endWith s (spareRewrite done ok s)

/-! ### Policy (R484) -/

/-- The lowest blank policy word. -/
def freePolicyWord (s : State) : Option Nat := ((List.range 8).map (· + 144)).find? (fun w => !fuseBurned s w)

/-- A write of FUS_POLICY_BURN. -/
def policyBurn (who : Party) (w : Word) (s : State) : State :=
  let v := getF w 0 24
  match freePolicyWord s with
  | some k =>
    if (s.life.state = .factory ∨ s.life.state = .shipped) ∧ v < 32 then burnPrimary s k v true
    else captureAt s (pgFus 1) who 0x0101 (pgFus 1 + 0x110)
  | none => captureAt s (pgFus 1) who 0x0101 (pgFus 1 + 0x110)

def execFusPolicyBurn (who : Party) (forbid : Word) (s : State) : Answer :=
  endWith s (gateWrite s who .fus (pgFus 1) 0x110 true (policyBurn who forbid))

end Sys2Proof.Machine
end

