-- ==== Sys2Proof/Machine/LifeCycle.lean ====
section
/-!
DEFINITION. The life cycle (R468 to R476): the forms of slice 0, wipes, the phases of a transition, test tokens, and the LCC
page's requests.
-/
namespace Sys2Proof.Machine

/-! ### Slice 0 (R303, R468) -/

/-- An opcode that slice 0's policy grants in a state. -/
def zeroGrants (st : LifeState) (op : Nat) : Bool :=
  let service := op / 256 != 8 && op != 0x0901 && op != 0x0902 && op != 0x0621 && op != 0x0622
  match st with
  | .test | .testOpen => service
  | .factory => service || op == 0x0622
  | .analysis => service || op == 0x0621 || op == 0x0622
  | _ => op == 0

/-- Grant words of slice 0. -/
def zeroGrantWords (st : LifeState) : List Word :=
  (List.range 10).map (fun c =>
    catalogue.foldl (fun w r => if r.code / 256 = c ∧ zeroGrants st r.code = true then w ||| flag (r.code % 256) true else w) 0)

/-- The policy of slice 0: the largest values of Table 1 of the Confluence chapter, with the grants of its form. -/
def zeroPolicy (st : LifeState) : Policy :=
  { prioHigh := 0, prioLow := 7, weight := 1024, ctxQuota := 4096, cellQuota := 32768, depth := 1048576, rate := 819200000
    grants := zeroGrantWords st }

/-- The key range of slice 0 (log entry 31). -/
def zeroBase : Nat := Config.sliceZeroBase % 8388608
def zeroCount : Nat := min Config.sliceZeroCount (8388608 - zeroBase)

/-- Slice 0 in the form of a state: bound to both ports with PASID 0. -/
def zeroSlice (st : LifeState) : Slice :=
  fullBuckets { mode := .quiesced, portA := true, portB := true, keyBase := zeroBase, keyCount := zeroCount, policy := zeroPolicy st }

/-! ### Wipes (R474) -/

/-- Every set always-on flag is journalled and then cleared. -/
def journalFlags (s : State) : State :=
  let s := s.lev.flags.foldl (fun s h => journalNow s (jev (0x0100 + h) 3 5 (detail 0 ((hazPair h).getD 0xFFFF) 0 0 0))) s
  { s with lev := { s.lev with flags := [], zeroised := false } }

def wipeVault (s : State) : State :=
  let s := journalFlags (zeroiseSecret s)
  { s with vault := { s.vault with outcomes := [], lev := {} }, kst := {} }

/-- Zero, the never-written format, over the key store, the directory and shadow region and the capture area. -/
def wipeStore (m : Mram) : Mram :=
  { m with home := [], shadow := [], dirs := [], logs := [], expiry := [], capture := [], captured := 0, rosters := [] }

/-- Each die of the list wipes its MRAM die; a die that is not in the list does so at its next start. -/
def wipeMram (s : State) (dies : List Die) : State :=
  [Die.d0, Die.d1].foldl (fun s d =>
    if dies.contains d then setMram s d (wipeStore (mramOf s d)) else setDie s d { dieOf s d with wipeDue := true }) s

/-- Every slice is deleted with what it holds, and slice 0 is created in the form of the target. -/
def wipeSlices (s : State) (target : LifeState) : State :=
  let keep := fun (d : DieState) => { d with meas := d.meas.filter (fun e => decide (e.1 < 8)) }
  { s with
    regs := s.regs.filter (fun e => decide (e.1 < slcBase)), slices := sset (fun _ => {}) [] 0 (zeroSlice target)
    rings := [], rosters := [], zeroConf := none, cer := [], streams := [], streamSeq := [], measOwner := []
    die0 := keep s.die0, die1 := keep s.die1
    gauge := { s.gauge with replay := {} } }

/-- The wipes of Table 4 for a target. -/
def wipeFor (s : State) (m : LifeMark) (dies : List Die) : State :=
  if m.target = .owned then s
  else
    let s := wipeSlices (wipeMram (wipeVault s) dies) m.target
    if m.from_ = .raw ∧ m.target = .test then
      let s := onMram s [.d0, .d1] (fun x => { x with journal := [] })
      { s with gauge := { s.gauge with nextRec := 0, writing := none } }
    else s

/-! ### Phases (R475, R476) -/

/-- The fuse word that entering a state burns. -/
def wordOfState : LifeState → Nat
  | .test => 0
  | .factory => 1
  | .shipped => 2
  | .owned => 3
  | .analysis => 4
  | _ => 5

/-- The target word is programmed. -/
def burnTarget (s : State) (m : LifeMark) (ok spareOk : Bool) : State :=
  burnStamp s (wordOfState m.target) (0x4C4300 + lifeCode m.target) ok spareOk

/-- `n` bytes of no known value: a root drawn from a DRBG that the manual does not fix. -/
def freeBytes (n : Nat) (s : State) : Bytes × State :=
  match n with
  | 0 => ([], s)
  | k + 1 =>
    let (v, s) := drawFree s
    let (r, s) := freeBytes k s
    (BitVec.ofNat 8 v :: r, s)

/-- The analysis root is generated into the vault. -/
def makeAnalysisRoot (s : State) : State :=
  let (r, s) := freeBytes 32 s
  { s with vault := { s.vault with analysisRoot := some r } }

/-- The mark is cleared, the state takes effect, and the warden's work ends (R86). -/
def clearMark (s : State) (m : LifeMark) : State :=
  let s := wardenFree s
  let s := journal { s with vault := { s.vault with lifeMark := none }, life := { s.life with state := m.target } }
    (jev 0x0801 1 2 (detail 0 0 0 0 (lifeCode m.from_ + 256 * lifeCode m.target)))
  if s.life.busy then raise { s with life := { s.life with busy := false, result := 2 } } pgLcc 1 else raise s pgLcc 1

/-- From SHIPPED to OWNED service continues under the owner root, with slice 0 out of its bootstrap form. Every other
transition ends with a warm start. -/
def endTransition (s : State) (m : LifeMark) : State :=
  let s := clearMark s m
  if m.target = .owned then
    settle { s with kst := { s.kst with rootId := 3, rootKey := s.vault.ownerRoot.getD [], isOpen := true } }
  else { s with starts := { s.starts with due := some 1, quiesceEnd := none, quiesced := false } }

/-- Nothing is left to commit, and every completion that a port can still carry has been written. -/
def drained (s : State) : Bool :=
  s.conf.steps.all (fun e => isCommitted e.2) && s.conf.refused.isEmpty &&
    s.rings.all (fun e => e.2.owed.isEmpty || (match codePort e.2.portNow with | some x => !portMoves s x | none => true))

/-- The dies that can wipe their MRAM now. -/
def diesUp (s : State) : List Die := [Die.d0, Die.d1].filter (fun d => (dieOf s d).inService)

/-- One phase of a transition runs, and the mark records the next. The warden holds semaphore 0 for it, or waits for it (R86). -/
def transitionPhase (ok spareOk : Bool) (s : State) : State :=
  if !wardenUp s || s.lev.halted then s
  else match s.vault.lifeMark with
    | none => s
    | some m =>
      if !wardenHas s then wardenTake s
      else match m.phase with
      | 1 =>
        if (activeDie s).isSome && !drained s then s
        else
          let ds := diesUp s
          lifePhase (wipeFor (endService s) m ds) { m with phase := 2 }
      | 2 =>
        let s := burnTarget s m ok spareOk
        if m.target = .analysis then lifePhase s { m with phase := 3 } else endTransition s m
      | _ => endTransition (makeAnalysisRoot s) m

def execTransitionPhase (ok spareOk : Bool) (s : State) : Answer := endWith s (transitionPhase ok spareOk s)

/-- A start resumes a transition from its recorded phase, before any request is admitted. -/
def resumeTransition (s : State) (dies : List Die) : State :=
  match s.vault.lifeMark with
  | none => s
  | some m =>
    let s := if m.phase = 1 then wipeFor s m dies else s
    let s := if m.phase ≤ 2 then burnTarget s m true true else s
    let s := if m.target = .analysis then makeAnalysisRoot s else s
    raise (clearMark s m) pgLcc 3

/-! ### Test tokens (R473) -/

/-- The token is unconsumed and its hash matches. -/
def tokenOk (s : State) (i : Nat) : Bool :=
  let tok := (s.life.token.map (fun w => leBytes 8 w.toNat)).flatten
  let h := (hash .sha384 (tok ++ moduleSerial s)).take 9
  let ws := (List.range 3).map (fun j => fuseVal s (32 + 4 * i + j))
  decide (i < 12) && !burnedIn (fuseTable s) (35 + 4 * i) && ws.all (fun e => e.2 != 2) && (ws.map (fun e => beBytes 3 e.1)).flatten == h

/-- Both dies' shared SRAM is zeroised in service: activated steps start again from their descriptors, heads in fetch slots are read
again, raw sampling ends, and streams, keys and sessions are gone. -/
def sramWiped (s : State) : State :=
  let s := endRaw (endRaw { s with sram0 := [], sram1 := [] } .d0) .d1
  if (activeDie s).isNone then s
  else
    let ks := stepsWhere s (fun _ t => isActive t && t.seq.isNone && !isCommitted t)
    let s := ks.foldl resetStep s
    let s := (mkeys s.rings (fun _ r => r.fetch.isSome)).foldl (fun s i => dropHead s (i / 8) (i % 8)) s
    settle { s with streams := [], btc := [], kst := { s.kst with cache := [] } }

/-- TEST_OPEN: the consumed word is burned and verified, and only then SRAM and the secret region are zeroised. -/
def openTest (s : State) (ok spareOk : Bool) : State :=
  let i := s.life.tokenIx
  let s := burnStamp s (35 + 4 * i) (0x544B00 + i) ok spareOk
  let s := zeroiseSecret (sramWiped s)
  { s with life := { s.life with state := .testOpen } }

/-! ### The LCC page (R469, R471) -/

/-- The pair may be requested by the LCC route (Table 2). -/
def lccPair (s : State) (target : Nat) : Bool :=
  match s.life.state with
  | .raw => target == 1 || target == 7
  | .test => target == 2 || target == 3 || target == 7
  | .testOpen => target == 1
  | .factory => target == 4 || target == 7
  | .shipped => target == 7
  | .owned => s.vault.ownerRoot.isNone && (target == 6 || target == 7)
  | .analysis => target == 7
  | .scrap => false

/-- Words 8 to 79 that carry content are programmed and sound. -/
def wordsSound (s : State) : Bool :=
  (List.range 72).all (fun j =>
    let w := j + 8
    let content := decide (w ≤ 24) || (decide (32 ≤ w) && decide (w % 4 ≠ 3))
    !content || (fuseVal s w).2 == 0)

/-- The authorisation as it was staged: 3,469 bytes in 434 writes. -/
def stagedAuth (s : State) (target : Nat) : Nat :=
  let b := s.life.staging
  if b.length ≠ 3472 ∨ allZero (b.drop 3469) = false then 0x11 else authStatus s (b.take 3469) target (zeros 16)

/-- The result of the warden's check: 1 accepted, or why not. -/
def lccCheck (s : State) : Nat :=
  let t := s.life.target
  if !lccPair s t then 0x10
  else match s.life.state, t with
    | .raw, 1 => if wordsSound s then 1 else 0x15
    | .raw, _ => 1
    | .testOpen, _ => 1
    | .test, 2 => if tokenOk s s.life.tokenIx then 1 else 0x14
    | _, _ =>
      if stagedAuth s t ≠ 0 then stagedAuth s t
      else if t = 6 ∧ (policyForbid s).testBit 2 = true then 0x16 else 1

/-- The state of a code. -/
def stateOfCode (c : Nat) : LifeState :=
  match c with
  | 0 => .raw | 1 => .test | 2 => .testOpen | 3 => .factory | 4 => .shipped | 5 => .owned | 6 => .analysis | _ => .scrap

/-- A request that takes effect without a start is done, and the warden's work with it. -/
def lccDone (s : State) : State := raise (wardenFree { s with life := { s.life with busy := false, result := 2 } }) pgLcc 1

/-- The check ends: the result is set, and an accepted transition runs. The warden holds semaphore 0 for it, or waits for it
(R86). -/
def checkDone (ok spareOk : Bool) (s : State) : State :=
  if !s.life.busy || s.vault.lifeMark.isSome || !wardenUp s || s.lev.halted then s
  else if !wardenHas s then wardenTake s
  else
    let r := lccCheck s
    if r ≠ 1 then raise (wardenFree { s with life := { s.life with busy := false, result := r } }) pgLcc 2
    else if s.life.target = 2 then lccDone (openTest s ok spareOk)
    else if s.life.state = .testOpen then lccDone { s with life := { s.life with state := .test } }
    else
      let s := lifePhase { s with life := { s.life with result := 1 } } ⟨1, s.life.state, stateOfCode s.life.target⟩
      settle (endAll s (fun _ _ => true) stSliceReset)

def execLccCheckDone (ok spareOk : Bool) (s : State) : Answer := endWith s (checkDone ok spareOk s)

/-- A write to the LCC page while a request is checked or run (cause 0x0101). -/
def lccBusy (who : Party) (off : Nat) (f : State → State) (s : State) : State :=
  if s.life.busy then captureAt s pgLcc who 0x0101 (pgLcc + off) else f s

/-- LCC_AUTH_CTL.reset. -/
def lccAuthReset (who : Party) (w : Word) (s : State) : State :=
  lccBusy who 0x108 (fun s => if bitOf w 0 then { s with life := { s.life with staging := [] } } else s) s

/-- LCC_AUTH_DATA: eight bytes appended, up to 4,096. -/
def lccAuthData (who : Party) (w : Word) (s : State) : State :=
  lccBusy who 0x110 (fun s =>
    if s.life.staging.length < 4096 then { s with life := { s.life with staging := s.life.staging ++ leBytes 8 w.toNat } } else s) s

/-- LCC_TOKEN_n. -/
def lccToken (who : Party) (n : Nat) (w : Word) (s : State) : State :=
  lccBusy who (0x118 + 8 * n) (fun s => { s with life := { s.life with token := s.life.token.set n w } }) s

/-- LCC_TRANSITION. In recovery mode only the target SCRAP is taken (R493). -/
def lccTransition (who : Party) (w : Word) (s : State) : State :=
  let t := getF w 0 8
  if s.vault.recovery && t != 7 then s
  else lccBusy who 0x138 (fun s =>
    let s := if lccPair s t then s else captureAt s pgLcc who 0x0101 (pgLcc + 0x138)
    wardenTake { s with life := { s.life with busy := true, result := 0, target := t, tokenIx := getF w 8 4 } }) s

/-- A guarded write of the LCC page. -/
def lccWrite (who : Party) (off : Nat) (f : State → State) (s : State) : State := gateWrite s who .lcc pgLcc off true f

def execLccAuthReset (who : Party) (s : State) : Answer := endWith s (lccWrite who 0x108 (lccAuthReset who 1) s)
def execLccAuthData (who : Party) (data : Word) (s : State) : Answer := endWith s (lccWrite who 0x110 (lccAuthData who data) s)

def execLccTokenWrite (who : Party) (n : Nat) (data : Word) (s : State) : Answer :=
  endWith s (if n < 4 then lccWrite who (0x118 + 8 * n) (lccToken who n data) s else s)

def execLccTransition (who : Party) (data : Word) (s : State) : Answer := endWith s (lccWrite who 0x138 (lccTransition who data) s)

end Sys2Proof.Machine
end

