-- ==== Sys2Proof/Machine/Firmware.lean ====
section
/-!
DEFINITION. Firmware (R494 to R503): images, downloads, verification, confirmation, rollback, the anti-rollback burn, and the
writes of WDN_CTL.
-/
namespace Sys2Proof.Machine

/-! ### Images (R494, R495) -/

/-- Bytes `lo` to `lo + n - 1` of the image in a slot. -/
def imageBytes (f : FwSlot) (lo n : Nat) : Bytes :=
  cut (((f.words.drop (lo / 8)).take (n / 8 + 2)).map (fun w => leBytes 8 w.toNat)).flatten (lo % 8) n

def imageByte (f : FwSlot) (i : Nat) : Nat := byteAt (imageBytes f i 1) 0

/-- The length rule of Table 4. -/
def imageLengthOk (f : FwSlot) : Bool := 8192 + beAt (imageBytes f 12 4) 0 4 + beAt (imageBytes f 16 4) 0 4 == f.length

/-- The header layout of Table 4. -/
def imageLayoutOk (f : FwSlot) : Bool :=
  imageBytes f 0 4 == ascii "SFWI" && imageByte f 4 == 1 && decide (1 ≤ imageByte f 5) && decide (imageByte f 6 ≤ 64) &&
    decide (imageByte f 7 < 2) && allZero (imageBytes f 68 60) && allZero (imageBytes f 4851 3341)

/-- Both signatures verify under the firmware authority keys. -/
def imageSigned (f : FwSlot) : Bool :=
  let h := imageBytes f 0 128
  let sig := imageBytes f 128 96
  (match ptOfBytes p384 Config.firmwareSignerEc with
   | some q => ecdsaOk p384 q (hash .sha384 h) (beAt sig 0 48) (beAt sig 48 48)
   | none => false) && mlDsaVerify 0x6A Config.firmwareSignerDsa (ascii "SUNDIEN FIRMWARE") h (imageBytes f 224 4627)

/-- body_digest matches the body. -/
def imageBodyOk (f : FwSlot) : Bool := hash .sha384 (imageBytes f 8192 (f.length - 8192)) == imageBytes f 20 48

/-- Before OWNED an image needs its factory flag. -/
def factoryOk (s : State) (f : FwSlot) : Bool := s.life.state == .owned || imageByte f 7 % 2 == 1

/-- A slot is bootable (R495). -/
def bootable (s : State) (d : Die) (i : Nat) : Bool :=
  let f := fwSlotOf s d i
  decide (8192 ≤ f.length) && 8 * f.words.length == f.length && imageSigned f && imageBodyOk f &&
    decide (rollbackCounter s ≤ imageByte f 6) && factoryOk s f &&
    (s.life.state != .owned || s.vault.accepted.contains (imageDigest f))

/-! ### Downloads (R496, R497) -/

/-- What a slot's registers show of its image. -/
def showImage (s : State) (f : FwSlot) : FwSlot :=
  { f with rollback := imageByte f 6, mirror := imageByte f 5, version := beAt (imageBytes f 8 4) 0 4
           accepted := s.vault.accepted.contains (imageDigest f) }

/-- A slot of a die is being verified. -/
def verifying (s : State) (d : Die) : Bool := (fwSlotOf s d 0).stage == 3 || (fwSlotOf s d 1).stage == 3

def putInactive (s : State) (d : Die) (f : FwSlot) : State := setFwSlot s d (inactiveSlot s d) f

/-- The slot that takes a die's download. -/
def target (s : State) (d : Die) : FwSlot := fwSlotOf s d (inactiveSlot s d)

def fwuRefused (s : State) (who : Party) (d : Die) (off : Nat) : State := captureAt s (pgFwu d) who 0x0101 (pgFwu d + off)

/-- FWU_DL_CTL.open. A length outside the rule of R497 opens nothing. -/
def fwuOpen (who : Party) (d : Die) (len : Nat) (s : State) : State :=
  if verifying s d then fwuRefused s who d 0x110
  else if len % 8 = 0 ∧ 8192 ≤ len ∧ len ≤ 134217728 then putInactive s d { length := len }
  else s

/-- FWU_DL_CTL.close: every byte has been received. -/
def fwuClose (d : Die) (s : State) : State :=
  let f := target s d
  if f.stage = 1 ∧ 8 * f.words.length = f.length then raise (putInactive s d (showImage s { f with stage := 2 })) (pgFwu d) 1 else s

/-- FWU_DL_CTL.verify. -/
def fwuVerify (d : Die) (s : State) : State :=
  let f := target s d
  if f.stage = 2 then putInactive s d { f with stage := 3, result := 0 } else s

/-- A write of FWU_DL_CTL. -/
def fwuCtl (who : Party) (d : Die) (w : Word) (s : State) : State :=
  let s := if bitOf w 0 then fwuOpen who d (getF w 32 32) s else s
  let s := if bitOf w 1 then fwuClose d s else s
  if bitOf w 2 then fwuVerify d s else s

/-- A write of FWU_DL_DATA: the next eight bytes. -/
def fwuData (who : Party) (d : Die) (w : Word) (s : State) : State :=
  let f := target s d
  if f.length ≤ 8 * f.words.length ∨ 2 ≤ f.stage then fwuRefused s who d 0x118
  else putInactive s d { f with words := f.words ++ [w], stage := 1 }

def fwuWrite (who : Party) (d : Die) (off : Nat) (f : State → State) (s : State) : State :=
  gateWrite s who .fwu (pgFwu d) off true f

def execFwuDlOpen (who : Party) (die : Die) (length : Nat) (s : State) : Answer :=
  endWith s (fwuWrite who die 0x110 (fwuOpen who die length) s)

def execFwuDlData (who : Party) (die : Die) (data : Word) (s : State) : Answer :=
  endWith s (fwuWrite who die 0x118 (fwuData who die data) s)

def execFwuDlClose (who : Party) (die : Die) (s : State) : Answer := endWith s (fwuWrite who die 0x110 (fwuClose die) s)
def execFwuDlVerify (who : Party) (die : Die) (s : State) : Answer := endWith s (fwuWrite who die 0x110 (fwuVerify die) s)

/-- The first check of R498 that fails, or 1. -/
def imageResult (s : State) (f : FwSlot) : Nat :=
  if !imageLengthOk f then 0x10
  else if !imageLayoutOk f then 0x11
  else if !imageSigned f then 0x12
  else if !imageBodyOk f then 0x13
  else if imageByte f 6 < rollbackCounter s then 0x14
  else if !factoryOk s f then 0x15
  else 1

/-- Verification ends. -/
def verifyDone (d : Die) (s : State) : State :=
  let f := target s d
  if !(dieOf s d).inService || f.stage != 3 then s
  else
    let r := imageResult s f
    raise (putInactive s d (showImage s { f with stage := if r = 1 then 4 else 6, result := r })) (pgFwu d) (if r = 1 then 2 else 3)

def execFwuVerifyDone (die : Die) (s : State) : Answer := endWith s (verifyDone die s)

/-! ### Rollback and confirmation (R500 to R502) -/

/-- A boot record names its previous slot again. -/
def restoreBoot (s : State) (d : Die) : State :=
  let b := bootOf s d
  setBoot s d { b with slot := b.prevSlot, prevSlot := b.slot, trial := false }

/-- The warden rolls the firmware back: one vault write, and the dies come back by a rollout or a warm start. -/
def rollBackFw (s : State) : State :=
  let d := curDie s
  let same := (bootOf s d).mirror == (fwSlotOf s d (bootOf s d).prevSlot).mirror && duplex s
  let s := restoreBoot (restoreBoot s .d0) .d1
  let s := { s with vault := { s.vault with fwPhase := 3 }, starts := { s.starts with trialLost := 0 } }
  let s := journal (raise s (pgWdn 1) 3) (jev 0x0906 0 2 (detail 0 0 0 0 s.vault.trialFails))
  if same then { s with starts := { s.starts with rollout := true } } else requestWarm s

/-- NT reaches the end of the confirmation window. -/
def windowExpiry (s : State) : State :=
  if s.vault.fwPhase ≠ 1 ∨ wardenUp s = false ∨ s.starts.step = 0 then s else rollBackFw (reach s (s.vault.activatedNt + 600000000000))

def execConfirmWindowExpiry (s : State) : Answer := endWith s (windowExpiry s)

/-- A failed trial boot is counted; the second one since activation rolls back. -/
def trialFailed (s : State) : State :=
  if s.starts.trialLost = 0 ∨ s.vault.fwPhase ≠ 1 then s
  else
    let n := min 2 (s.vault.trialFails + 1)
    let s := { s with starts := { s.starts with trialLost := s.starts.trialLost - 1 }, vault := { s.vault with trialFails := n } }
    let s := raise s (pgWdn 1) 4
    if n = 2 then rollBackFw s else s

def execTrialBootFailed (s : State) : Answer := endWith s (trialFailed s)

/-- A die runs the image of its trial slot. -/
def runsTrial (s : State) (d : Die) : Bool := (bootOf s d).trial && (dieOf s d).bootSlot == some (bootOf s d).slot

/-- WDN_CTL.confirm is accepted. -/
def mayConfirm (s : State) : Bool :=
  s.vault.fwPhase == 1 && (activeDie s).isSome && (duplex s || s.vault.fwSimplex) && (diesUp s).all (runsTrial s) &&
    decide (s.nt.ns < s.vault.activatedNt + 600000000000)

def wdnRefused (s : State) (who : Party) : State := captureAt s (pgWdn 0) who 0x0101 (pgWdn 0 + 0x118)

/-- WDN_CTL.confirm. -/
def confirmFw (who : Party) (s : State) : State :=
  if !mayConfirm s then wdnRefused s who
  else
    let r := match activeDie s with | some d => imageByte (fwSlotOf s d (bootOf s d).slot) 6 | none => 0
    let s := setBoot (setBoot s .d0 { bootOf s .d0 with trial := false }) .d1 { bootOf s .d1 with trial := false }
    let s := { s with vault := { s.vault with fwPhase := if rollbackCounter s < r then 2 else 0, burnTarget := r } }
    journal (raise s (pgWdn 1) 2) (jev 0x0905 0 2 (detail 0 0 0 0 r))

/-- WDN_CTL.warm. -/
def warmRequest (who : Party) (s : State) : State := if s.vault.recovery then wdnRefused s who else requestWarm s

/-- WDN_CTL.recover. -/
def recoverRequest (who : Party) (slot0 slot1 : Nat) (s : State) : State :=
  if s.vault.recovery && !s.vault.recoveryKept && s.starts.due.isNone && bootable s .d0 slot0 && bootable s .d1 slot1 then
    { s with starts := { s.starts with due := some 2, quiesceEnd := none, quiesced := false, recover0 := slot0, recover1 := slot1 } }
  else wdnRefused s who

/-- A write of WDN_CTL. -/
def wdnCtl (who : Party) (w : Word) (s : State) : State :=
  let s := if bitOf w 0 then warmRequest who s else s
  let s := if bitOf w 1 then recoverRequest who (getF w 2 1) (getF w 3 1) s else s
  if bitOf w 4 then confirmFw who s else s

def wdnWrite (who : Party) (w : Word) (s : State) : State := gateWrite s who .wdn (pgWdn 0) 0x118 true (wdnCtl who w)

def execWdnWarm (who : Party) (s : State) : Answer := endWith s (wdnWrite who (flag 0 true) s)

def execWdnRecover (who : Party) (slot0 slot1 : Bool) (s : State) : Answer :=
  endWith s (wdnWrite who (flag 1 true ||| flag 2 slot0 ||| flag 3 slot1) s)

def execWdnConfirm (who : Party) (s : State) : Answer := endWith s (wdnWrite who (flag 4 true) s)

/-- In phase BURN the next anti-rollback word is burned and verified; the mark is cleared at the target. -/
def antiRollback (ok : Bool) (s : State) : State :=
  if s.vault.fwPhase ≠ 2 ∨ wardenUp s = false ∨ s.starts.step < 4 then s
  else
    let n := rollbackCounter s + 1
    let due := decide (n ≤ min 64 s.vault.burnTarget)
    let s := if due then burnPrimary s (79 + n) (0x415200 + n) ok else s
    let s := if due && !ok then { s with life := { s.life with rewrites := s.life.rewrites ++ [79 + n] } } else s
    if min 64 s.vault.burnTarget ≤ rollbackCounter s then { s with vault := { s.vault with fwPhase := 0 } } else s

def execAntiRollbackBurn (ok : Bool) (s : State) : Answer := endWith s (antiRollback ok s)

end Sys2Proof.Machine
end

