-- ==== Sys2Proof/Machine/Starts.lean ====
section
/-!
DEFINITION. Starts (R30, R245, R260, R264, R265, R402, R437, R465, R485 to R493, R500, R503): the steps of a cold or warm start,
its failure, and quiesce.
-/
namespace Sys2Proof.Machine

/-! ### Quiesce (R485) -/

/-- 10 ms after quiesce began, what has not committed ends as in a squash. -/
def quiesceEnd (s : State) : State :=
  match s.starts.quiesceEnd with
  | none => s
  | some t =>
    let idle := s.conf.steps.all (fun e => isCommitted e.2)
    let s := if idle then s else reach s t
    let s := { s with starts := { s.starts with quiesceEnd := none, quiesced := true } }
    if idle then s else settle (endAll s (fun _ _ => true) stSliceReset)

def execQuiesceEnd (s : State) : Answer := endWith s (quiesceEnd s)

/-! ### Step 1: what a start resets (R24, R85, R311, R485) -/

/-- The services of the digest engines that still work (R373). -/
def freshServices (d : DieState) : List Nat :=
  ((d.failed.filter (fun e => e.1 == 4)).foldl (fun x e => moveServices x e.2) { d with services := [0, 1, 2] }).services

/-- A compute die released from reset: its units that failed, its spares and its MRAM die's counts stay. -/
def freshDie (d : DieState) : DieState :=
  { applied := d.applied, failed := d.failed.filter (fun e => e.1 != 7), spares := d.spares, sramRowsUsed := d.sramRowsUsed
    services := freshServices d, wipeDue := d.wipeDue }

/-- A bank across a start: it keeps its row map. -/
def freshBank (b : Bank) : Bank := { used := b.used, rowMap := b.rowMap }

/-- A port across a start: it keeps its link and its configuration, and a function level reset in progress is over. -/
def portStart (s : State) (p : Port) : State :=
  let x := portOf s p
  let s := if x.flr then send s (.flrDone p 1) else s
  setPort s p { x with flr := false, flrWait := [] }

/-- Every ceremony ends. A root whose shares were being written is discarded while no mark records it (R311, R318). -/
def endCeremonies (s : State) : State :=
  let root := s.cer.any (fun e => e.2.action == 1) && s.life.state == .shipped && s.vault.lifeMark.isNone
  let s := (mkeys s.cer (fun _ _ => true)).foldl (fun s id => endCeremony s id 7 0) s
  if root then { s with vault := { s.vault with ownerRoot := none } } else s

/-- The arbiter after a reset. What it counts since the cold start stays across a warm start. -/
def switchReset (cold : Bool) (w : Switch) : Switch :=
  if cold then {}
  else { held := w.held, switchovers := w.switchovers, plannedCount := w.plannedCount, rejoins := w.rejoins }

/-- What the warden has staged without a die in service is written before its reset. -/
def flushJournal (n : Nat) (s : State) : State :=
  match n with
  | 0 => s
  | k + 1 => if s.gauge.writing.isSome then flushJournal k (journalKick (finishRecord s)) else s

/-- Step 1 of a start of a kind: 0 cold, 1 warm, 2 warm by recover. -/
def startReset (kind : Nat) (s : State) : State :=
  let s := if (activeDie s).isNone then flushJournal 40 s else s
  let s := endCeremonies (resetPages (endService s))
  let s := portStart (portStart s .a) .b
  { s with
    die0 := freshDie s.die0, die1 := freshDie s.die1, sw := switchReset (kind == 0) s.sw
    banks := if kind = 0 then [] else mmap (fun _ b => freshBank b) s.banks, sram0 := [], sram1 := []
    tieB := false
    life := { s.life with sensing := false, burning := false, busy := s.life.busy && s.vault.lifeMark.isSome
                          state := if s.life.state = .testOpen then .test else s.life.state }
    starts := { s.starts with due := none, quiesceEnd := none, quiesced := false, kind := kind, step := 1, failCause := 0, rollout := false
                              dieDue0 := false, dieDue1 := false, failing := none, pass0 := false, pass1 := false } }

/-! ### Steps 2 to 4 -/

/-- Levee's self-test of every detector (R453). -/
def startSelftest (failed : List (Nat × Bool)) (s : State) : State :=
  let s := (List.range 11).foldl (startPair failed) { s with lev := { s.lev with lastTest := s.nt.ns } }
  { s with starts := { s.starts with step := 2 } }

/-- The module may leave tamper-halt: no immediate hazard is present, and every pair has a sound detector (R465). -/
def mayLeaveHalt (s : State) : Bool :=
  s.lev.present.isEmpty && s.lev.due.isEmpty && (List.range 11).all (fun p => !((pairOf s p).aFailed && (pairOf s p).bFailed))

/-- Every rewrite that waits is made (R482). -/
def allRewrites (n : Nat) (s : State) : State :=
  match n with
  | 0 => s
  | k + 1 => allRewrites k (spareRewrite true true s)

/-- The life-cycle state is resolved. A new meaning without a mark is entered from its wipes (R481). -/
def resolveState (s : State) : State :=
  let s := { s with life := { s.life with resolved := readUnder480 s } }
  if s.vault.lifeMark.isSome || fusedState s == s.life.state then s else lifePhase s ⟨1, s.life.state, fusedState s⟩

/-- The fuses are sensed, fuse marks resumed, and the state resolved. -/
def startFuses (r : StartReport) (s : State) : State :=
  let s := senseFuses (putReads { s with life := { s.life with inForce := none } } r.fuses) (if s.starts.kind = 0 then 0 else 1) r.temp
  let s := endRewrite s true
  let s := resolveState (allRewrites s.life.rewrites.length s)
  { s with starts := { s.starts with step := 3 } }

/-- A secret or serial word is ambiguous (R480, R491). -/
def identityLost (s : State) : Bool := (List.range 17).any (fun j => (fuseVal s (8 + j)).2 == 2)

/-- The vault's blocks are checked (R489, R492). -/
def startVault (r : StartReport) (s : State) : State :=
  let s := if r.secretBad then journal (zeroiseSecret s) (jev 0x0404 2 2 (detail 0 0 0 0 0)) else s
  let s := if r.keptBad || s.vault.keptBad then
      { s with
        vault := { s.vault with keptBad := true, recovery := true, recoveryKept := true, failsRecent := 3 }
        starts := { s.starts with failCause := 2 } }
    else s
  { s with starts := { s.starts with step := 4 } }

/-! ### Steps 5 to 8 -/

/-- The journal and the totals resume, histograms are empty, and the held events are handed on (R506, R512, R513). -/
def startGauge (s : State) : State :=
  let s := resumeTotals s
  let s := { s with gauge := { s.gauge with
    cur := [], closed := [], curStart := s.nt.ns, closedStart := s.nt.ns, epochStart := s.nt.ns, epochFrom := s.nt.ns, epochCommits := 0, epochRecords := 0
    epochHi := s.supply.temp, epochLo := s.supply.temp, epochVinLo := 0, epochVinHi := 0, replay := {} } }
  releaseBuffer s

/-- Step 5. A record of every set always-on flag is written before the tamper-halt latch is cleared: one that the controller holds,
or one of the warden's own. -/
def startRelease (s : State) : State :=
  let s := { s with starts := { s.starts with step := 5 } }
  let s := if s.lev.halted then
      let s := { s with lev := { s.lev with halted := false, tierNow := 0 } }
      (s.lev.flags.filter (fun h => !(unwritten s).any (fun e => e.code == 0x0100 + h))).foldl (fun s h => journalNow s (jev (0x0100 + h) 3 5 (detail 0 ((hazPair h).getD 0xFFFF) 0 0 0))) s
    else s
  let s := startGauge s
  if s.starts.failCause = 2 then journal s (jev 0x0902 2 2 (detail 2 0 0 0 0)) else s

/-- A row that fails the cold self-test takes a spare of its group while one is left (R401). -/
def coldRow (s : State) (e : Nat × Nat) : State :=
  let d := dieOfNo (e.1 / 64)
  let b := bankOf s d (e.1 % 64)
  let n := b.used.getD (groupAt e.2) 0
  if n < 2 ∧ e.1 < 128 ∧ e.2 < 8192 ∧ (mget b.rowMap e.2).isNone = true then
    let s := setBank s d (e.1 % 64) { b with used := b.used.set (groupAt e.2) (n + 1), rowMap := mput b.rowMap e.2 (2 * groupAt e.2 + n) }
    setDie s d { dieOf s d with sramRowsUsed := (dieOf s d).sramRowsUsed + 1 }
  else s

/-- Steps 6 and 6a: at a cold start the row map is computed again. The SRAM then holds nothing. -/
def startMemory (r : StartReport) (s : State) : State :=
  if s.starts.kind = 0 then
    r.rows.foldl coldRow { s with die0 := { s.die0 with sramRowsUsed := 0 }, die1 := { s.die1 with sramRowsUsed := 0 } }
  else s

/-- Step 8 of a cold start: the scan of every sector computes the spare-sector map of each MRAM die again (R486). -/
def startScan (r : StartReport) (s : State) : State :=
  if s.starts.kind = 0 then
    let clear := fun (s : State) (d : Die) =>
      setDie (setMram s d { mramOf s d with sectors := [] }) d { dieOf s d with failed := (dieOf s d).failed.filter (fun e => e.1 != 6) }
    r.sectors.foldl (fun s e => if e.1 < 2 ∧ mayReplace e.2 = true then mapSector s (dieOfNo e.1) e.2 else s) (clear (clear s .d0) .d1)
  else s

/-- The slot that a die boots: the one its boot record, or WDN_CTL.recover, names, else its other slot (R493, R495). -/
def bootChoice (s : State) (d : Die) : Option (Nat × Bool) :=
  let n := if s.starts.kind = 2 then (match d with | .d0 => s.starts.recover0 | .d1 => s.starts.recover1) else (bootOf s d).slot
  if bootable s d n then some (n, false) else if bootable s d (1 - n) then some (1 - n, true) else none

/-- A die has read its image. -/
def bootDie (s : State) (d : Die) : State :=
  match bootChoice s d with
  | none => s
  | some (n, fell) =>
    let f := fwSlotOf s d n
    let s := setDie s d { dieOf s d with bootSlot := some n }
    let s := setBoot s d { bootOf s d with slot := if s.starts.kind = 2 then n else (bootOf s d).slot
                                           fallback := fell, mirror := imageByte f 5, version := beAt (imageBytes f 8 4) 0 4 }
    if fell then journal s (jev 0x0903 0 2 (detail 0 (dieNo d) 0 0 n)) else s

/-- The Levee configuration as its registers show it, 8 bytes each. -/
def levConfigBytes (s : State) : Bytes :=
  leBytes 8 (readLev s 0 (pgLev 0) 0x128).toNat ++ ((List.range 16).map (fun i =>
    let c := hazCfg s (i + 1)
    leBytes 8 (fld 0 2 c.1 ||| fld 2 7 c.2.1 ||| fld 16 20 c.2.2).toNat)).flatten

/-- The eight values of a start (Table 3). -/
def startValues (s : State) (d : Die) : List Bytes :=
  let f := fwSlotOf s d ((dieOf s d).bootSlot.getD 0)
  [Config.romDigest,
   [BitVec.ofNat 8 (lifeCode s.life.state), BitVec.ofNat 8 (rollbackCounter s)] ++ beBytes 3 (policyForbid s) ++ moduleSerial s,
   s.starts.baseImage, imageDigest f,
   [BitVec.ofNat 8 ((dieOf s d).bootSlot.getD 0), if (bootOf s d).trial then 1 else 0, BitVec.ofNat 8 (bootOf s d).mirror],
   hash .sha384 (levConfigBytes s), [BitVec.ofNat 8 (dieNo d)], ascii "START END"]

/-- MEAS_00 to MEAS_07 of a die are extended once each from zero, and its other registers read zero (R490). -/
def measureStart (s : State) (d : Die) : State :=
  let l := (startValues s d).foldl (fun (acc : List (Nat × Bytes)) v => acc ++ [(acc.length, measExtended (zeros 64) v)]) []
  setDie s d { dieOf s d with meas := l }

/-! ### Step 9 -/

/-- A progress mark is resolved at a start, on the MRAM dies that are up: a flipped one forward, any other back (R260). A die that
joins later takes what the other holds (R443). -/
def resolveMark (dies : List Die) (s : State) (e : Nat × Mark) : State :=
  let x := e.2
  let s := if x.flipped then onMram (putDirs (putFrames s dies x) dies x.writes) dies (closeMark x) else onMram s dies (undoMark x)
  { s with kst := { s.kst with marks := mdel s.kst.marks e.1 } }

/-- Both MRAM dies hold alike what was committed: a die that lacks commits takes them from the other (R31). -/
def joinStores (s : State) (dies : List Die) : State :=
  if !(dies.contains .d0 && dies.contains .d1) then s
  else
    let src : Die := if s.die0.applied < s.die1.applied then .d1 else if s.die1.applied < s.die0.applied then .d0 else s.sw.held
    setMram s (otherDie src) (copyStore (mramOf s src) (mramOf s (otherDie src)))

/-- A die whose MRAM missed a life-cycle wipe makes it now. -/
def lateWipe (s : State) (d : Die) : State :=
  if (dieOf s d).wipeDue then setDie (setMram s d (wipeStore (mramOf s d))) d { dieOf s d with wipeDue := false } else s

/-- VERIFYING returns to STAGED. -/
def restage (s : State) (d : Die) : State :=
  [0, 1].foldl (fun s i =>
    let f := fwSlotOf s d i
    if f.stage = 3 then setFwSlot s d i { f with stage := 2 } else s) s

/-- The window has ended or two trial boots have failed (Table 6). -/
def trialOver (s : State) : Bool :=
  s.vault.fwPhase == 1 && (decide (s.vault.activatedNt + 600000000000 ≤ s.nt.ns) || decide (2 ≤ s.vault.trialFails))

def startMarks (dies : List Die) (s : State) : State :=
  let s := dies.foldl lateWipe s
  let s := if dies.isEmpty then s else s.kst.marks.foldl (resolveMark dies) s
  let s := resumeTransition (joinStores s dies) dies
  let s := restage (restage s .d0) .d1
  { s with starts := { s.starts with step := 9 } }

/-! ### Steps 10 to 13 -/

/-- The root of the present state, and its number (R264, R265). -/
def rootNow (s : State) : Nat × Option Bytes :=
  let derived := fun (c : Nat) => some (kdf108 (fusedSecret s) "HEADWATER" [BitVec.ofNat 8 c] 32)
  match s.life.state with
  | .test | .testOpen => (1, derived 1)
  | .factory | .shipped => (2, derived 3)
  | .owned => (3, s.vault.ownerRoot)
  | .analysis => (4, s.vault.analysisRoot)
  | .raw | .scrap => (0, none)

/-- Slots that hold a pending record. -/
def pendingSlots (m : Mram) : List (Nat × Nat) :=
  (mkeys m.dirs (fun _ d => d.pend != 0 && d.occupied && !d.ext && !d.damaged)).map (fun a => (a, 0))

/-- The key store is opened where a root stands. -/
def openStore (s : State) (d : Die) : State :=
  let (n, root) := rootNow s
  let s := { s with kst := { isOpen := root.isSome, rootId := n, rootKey := root.getD [], pendings := pendingSlots (mramOf s d) } }
  { s with kst := { s.kst with shadowMin := shadowFree s } }

/-- Both sources of a die have passed their start-up test. -/
def runningRng : Rng := { lns := { mode := .running }, jns := { mode := .running } }

/-- The die that takes the token (R30). -/
def tokenDie (s : State) (dies : List Die) : Option Die :=
  let first := if s.starts.kind = 0 then .d0 else s.sw.held
  if dies.contains first then some first else if dies.contains (otherDie first) then some (otherDie first) else none

/-- The test channel is checked 16 times, and a failure leaves the arbiter in HOLD. -/
def startChannel (ok : Bool) (s : State) : State :=
  let s := if ok then bump s (pgSwo + 0x130) 32 16 16 else bump s (pgSwo + 0x130) 48 16 1
  if ok then s else enterHold s 6

/-- Every existing slice is ACTIVE with its rings disabled and its buckets full (R330, R488). -/
def sliceStart (sl : Slice) : Slice :=
  if sl.mode = .absent then sl else fullBuckets { sliceDown sl with mode := .active, hold := false, squashed := 0, unwritten := 0 }

/-- Service begins on a die, with the other as its standby where that one boots the same mirror version. -/
def beginService (s : State) (d : Die) (dies : List Die) : State :=
  let o := otherDie d
  let both := dies.contains o && (bootOf s o).mirror == (bootOf s d).mirror
  let seq := max s.die0.applied s.die1.applied
  let s := openStore (finishRecord s) d
  let s := setRng (setDie s d { dieOf s d with inService := true, applied := seq, cycleNt := s.nt.ns }) d runningRng
  let s := if both then setRng (setDie s o { dieOf s o with inService := true, applied := seq, cycleNt := s.nt.ns }) o runningRng else s
  let s := { s with
    sw := { s.sw with token := some d, held := d, half0Up := both, half1Up := both }
    slices := mmap (fun _ sl => sliceStart sl) s.slices
    conf := { s.conf with creditUs := s.nt.ns / 1000, commitSeq := seq }
    vault := { s.vault with resetEpoch := s.vault.resetEpoch + 1, failsRecent := 0, failNts := []
                            recovery := s.vault.recovery && s.starts.kind != 2 }
    starts := { s.starts with step := 13 } }
  let s := enterBootstrap s
  let s := raise (raise s pgSwo 4) (pgWdn 0) 1
  let s := journal s (jev 0x0901 0 2 (detail 0 (dieNo d) 0 0 s.starts.kind))
  settle (refreshHealth s s)

/-- A start fails with a cause; it is recorded by the row START_FAILED. The trial boots of the start fail with it. -/
def failStart (s : State) (cause : Nat) (r : StartReport) : State :=
  let n := ([Die.d0, Die.d1].filter (fun d => (bootOf s d).trial)).length
  { s with starts := { s.starts with failing := some cause, failCause := cause, pass0 := r.die0, pass1 := r.die1
                                     trialLost := s.starts.trialLost + n } }

/-- Trial boots of dies that do not reach service, or not within the bound of R487. -/
def missTrials (late : Bool) (s : State) : State :=
  let n := ([Die.d0, Die.d1].filter (fun d => (bootOf s d).trial && (late || !(dieOf s d).inService))).length
  { s with starts := { s.starts with trialLost := s.starts.trialLost + n } }

/-- Recovery mode: steps 1 to 9 have run, and the pages of each compute die that passed step 8 read (R493). -/
def enterRecovery (s : State) (p0 p1 : Bool) : State :=
  let s := setDie s .d0 { s.die0 with inService := p0 }
  let s := setDie s .d1 { s.die1 with inService := p1 }
  raise { s with starts := { s.starts with step := 9 } } (pgWdn 0) 3

/-- Steps 10 to 13. -/
def startFinish (r : StartReport) (dies : List Die) (s : State) : State :=
  if (if s.starts.kind = 0 then 18000 else 2400) < r.ms then failStart s 5 r
  else
    let s := startChannel r.channel s
    match tokenDie s dies with
    | none => failStart s 4 r
    | some d => missTrials (decide ((if s.starts.kind = 0 then 9000 else 1200) < r.ms)) (beginService s d dies)

/-- Steps 7 to 9, with the dies that pass their checks. -/
def startBoot (r : StartReport) (s : State) : State :=
  let passed := (if r.die0 then [Die.d0] else []) ++ (if r.die1 then [Die.d1] else [])
  let stopsAt9 := s.vault.recovery && (s.starts.kind != 2 || s.vault.recoveryKept)
  let dies := passed.filter (fun d => (bootChoice s d).isSome)
  if passed.isEmpty && !stopsAt9 then failStart s 4 r
  else if dies.isEmpty && !stopsAt9 then failStart s 1 r
  else
    let s := dies.foldl bootDie s
    let base := match tokenDie s dies with
      | some d => imageDigest (fwSlotOf s d ((dieOf s d).bootSlot.getD 0))
      | none => []
    let s := { s with starts := { s.starts with baseImage := base } }
    let s := dies.foldl measureStart s
    let s := startMarks passed s
    if stopsAt9 then enterRecovery s r.die0 r.die1
    else if trialOver s then
      let s := rollBackFw s
      { s with starts := { s.starts with due := some 1, quiesceEnd := none, rollout := false } }
    else startFinish r dies s

/-- A cold or warm start, from step 1 to service, to recovery mode, to tamper-halt, or to its failure. -/
def runStart (kind : Nat) (r : StartReport) (s : State) : State :=
  let s := startReset kind s
  let s := reach s (s.nt.ns + r.ms * 1000000)
  let s := { s with starts := { s.starts with elapsedMs := r.ms } }
  if !r.lockstep then failStart s 6 r
  else
    let s := startSelftest r.detectors s
    if s.lev.halted && !mayLeaveHalt s then s
    else
      let s := startFuses r s
      if identityLost s then failStart s 3 r
      else startBoot r (startScan r (startMemory r (startRelease (startVault r s))))

/-! ### The rows -/

/-- A cold start is due and runs. -/
def coldStart (r : StartReport) (s : State) : State :=
  if wardenUp s && s.starts.due == some 0 then runStart 0 r s else s

def execColdStart (report : StartReport) (s : State) : Answer := endWith s (coldStart report s)

/-- A warm start is due; after quiesce, owed completions have been written. -/
def warmReady (s : State) : Bool :=
  wardenUp s && s.starts.quiesceEnd.isNone && ((activeDie s).isNone || !s.starts.quiesced || drained s)

def warmStart (r : StartReport) (s : State) : State :=
  match s.starts.due with
  | some k => if 1 ≤ k ∧ warmReady s = true then runStart k r s else s
  | none => s

def execWarmStart (report : StartReport) (s : State) : Answer := endWith s (warmStart report s)

/-- Failures of the current record that lie within 600 s. -/
def recentFailures (s : State) : List Nat := (s.vault.failNts.filter (fun t => decide (s.nt.ns - t < 600000000000))) ++ [s.nt.ns]

/-- A failed start is recorded: a warm start follows, or recovery mode with the third failure within 600 s. In service, a
disagreement of the warden's lockstep pair makes a warm start at once. -/
def startFailed (lockstep : Bool) (s : State) : State :=
  match s.starts.failing with
  | some c =>
    let l := recentFailures s
    let s := { s with
      vault := { s.vault with failNts := l, failsRecent := min 3 l.length, failsTotal := min 0xFFFF (s.vault.failsTotal + 1), lastFailNt := s.nt.ns }
      starts := { s.starts with failing := none } }
    let s := journal (raise s (pgWdn 0) 2) (jev 0x0902 2 2 (detail c 0 0 0 0))
    if s.vault.recovery || decide (3 ≤ l.length) then
      enterRecovery { s with vault := { s.vault with recovery := true } } s.starts.pass0 s.starts.pass1
    else { s with starts := { s.starts with due := some 1 } }
  | none =>
    if lockstep && wardenUp s && (activeDie s).isSome then
      let s := endService s
      { s with starts := { s.starts with due := some 1, quiesceEnd := none, quiesced := false } }
    else s

def execStartFailed (lockstep : Bool) (s : State) : Answer := endWith s (startFailed lockstep s)

/-! ### Die start (R31, R443, R446, R500) -/

/-- A rollout restarts the standby die into the slot of its boot record. -/
def rolloutNeeds (s : State) (d : Die) : Bool :=
  s.starts.rollout && (dieOf s d).inService && !(dieOf s d).joining && (dieOf s d).bootSlot != some (bootOf s d).slot

/-- A further attempt was asked for by SWO_CTL.rejoin. -/
def dieDue (s : State) : Die → Bool
  | .d0 => s.starts.dieDue0
  | .d1 => s.starts.dieDue1

def clearDue (s : State) : Die → State
  | .d0 => { s with starts := { s.starts with dieDue0 := false } }
  | .d1 => { s with starts := { s.starts with dieDue1 := false } }

/-- Attempts of a die within 10 min of NT. -/
def recentTries (s : State) (d : Die) : List Nat := (dieOf s d).rejoinTries.filter (fun t => decide (s.nt.ns - t < 600000000000))

/-- The die may be started beside the active one. -/
def mayStartDie (s : State) (d : Die) : Bool :=
  wardenUp s && s.sw.gap.isNone && !s.lev.halted && (activeDie s).isSome && activeDie s != some d && s.starts.due.isNone &&
    (rolloutNeeds s d || (!(dieOf s d).inService &&
      (dieDue s d || s.starts.rollout || (!(dieOf s d).givenUp && decide ((recentTries s d).length < 2)))))

/-- The rollout is complete: both dies run the slots of their boot records. -/
def endRollout (s : State) : State :=
  let at_ := fun d => (dieOf s d).bootSlot == some (bootOf s d).slot
  if at_ .d0 && at_ .d1 then { s with starts := { s.starts with rollout := false } } else s

/-- The checks of a die start: its image boots, in the trial slot and within the bound of R487 where it is in trial, with the active
die's mirror version. -/
def joins (s : State) (a d : Die) (ms : Nat) : Bool :=
  (dieOf s d).bootSlot.isSome && (bootOf s d).mirror == (bootOf s a).mirror &&
    (!(bootOf s d).trial || ((dieOf s d).bootSlot == some (bootOf s d).slot && decide (ms ≤ 1200)))

/-- The die is reset and runs its steps. -/
def resetDie (s : State) (d : Die) : State :=
  let s := if (dieOf s d).inService then standbyLost s else s
  let x := dieOf s d
  let s := { s with regs := s.regs.filter (fun e => decide (e.1 < dieWin d) || decide (dieWin d + 0x400000 ≤ e.1))
                    banks := mmap (fun i b => if i / 64 = dieNo d then freshBank b else b) s.banks }
  clearDue (setSram (setDie s d { freshDie x with rejoinTries := recentTries s d ++ [s.nt.ns], givenUp := x.givenUp }) d []) d

/-- A die start: the die joins as standby, or the attempt has failed. -/
def dieStart (d : Die) (ok : Bool) (ms : Nat) (s : State) : State :=
  match activeDie s with
  | none => s
  | some a =>
    if !mayStartDie s d then s
    else
      let before := s
      let s := bootDie (lateWipe (restage (resetDie (reach s (s.nt.ns + ms * 1000000)) d) d) d) d
      if ok && joins s a d ms then
        let s := setRng (setDie s d { dieOf s d with inService := true, joining := true, givenUp := false }) d runningRng
        let s := endRollout (measureStart s d)
        let s := { s with sw := { s.sw with half0Up := true, half1Up := true } }
        refreshHealth before (if modeCode before = modeCode s then s else raise s pgSwo 4)
      else
        let s := if (bootOf s d).trial then { s with starts := { s.starts with trialLost := s.starts.trialLost + 1 } } else s
        let x := dieOf s d
        raise (setDie s d { x with givenUp := x.givenUp || decide (2 ≤ x.rejoinTries.length) }) pgSwo 6

def execDieStart (die : Die) (ok : Bool) (ms : Nat) (s : State) : Answer := endWith s (dieStart die ok ms s)

end Sys2Proof.Machine
end

