-- ==== Sys2Proof/Machine/Access.lean ====
section
/-!
DEFINITION. Register accesses (R40 to R58): sizes, windows and aliases, the common access errors, reads and the fields that a
read clears, writes by access type, the interrupt registers, first-error capture, the order of two ports in one cycle, and the
MSI-X tables behind BAR4.
-/
namespace Sys2Proof.Machine

/-! ### What a read returns -/

/-- A register's value, as a party reads it. `a` is the page's address. -/
def readReg (s : State) (who : Party) (p : Page) (a off : Nat) : Word :=
  let d := dieOfNo (p.die - 1)
  if off < 0x60 then readHeader s who p a off
  else match p.block with
    | .slc => readSlc s who p.inst off
    | .pta => readPortPage s .a p.inst a off
    | .ptb => readPortPage s .b p.inst a off
    | .sem => readSem s who a off
    | .ntu => readNtu s a off
    | .swo => readSwo s a off
    | .cus => readCus s p.inst a off
    | .lev => readLev s p.inst a off
    | .lcc => readLcc s a off
    | .fus => readFus s p.inst a off
    | .gau => readGau s recordOk p.inst a off
    | .wdn => readWdn s p.inst a off
    | .cfl => readCfl s d p.inst a off
    | .pol => readPol s d a off
    | .rpl => readRpl s a off
    | .fwu => readFwu s d a off
    | .hlt => readHlt s d a off
    | .kst => readKst s d p.inst a off
    | .rng => readRng s d p.inst a off
    | .stp => readStp s d p.inst a off
    | .dge => readDge s d p.inst a off
    | .bnl => readBnl s d p.inst a off
    | .edy => readEdy s d p.inst a off
    | .lan => readLan s d p.inst a off
    | .mem => readMem s d p.inst a off
    | .wei => readWei s d p.inst a off
    | .mpu => readMpu s d p.inst a off
    | .bas | .vlt | .trc => rd s (a + off)

/-- POL_QLOST of the selected queue is read and cleared. -/
def clearLost (s : State) (d : Die) : State :=
  let q := qsel s d
  if q = 24 ∨ q = 25 then setPoolQueue s d q { poolQueue s d q with lost := 0 }
  else if q = 26 ∧ curDie s = d then { s with gauge := { s.gauge with lostStaged := 0 } }
  else s

/-- The RC fields of a register are zero after a read (R42). -/
def clearRc (s : State) (p : Page) (a off : Nat) (rc : Word) : State :=
  match p.block, off with
  | .ntu, 0x128 => { s with nt := { s.nt with outliers := 0, ignored := 0 } }
  | .ntu, 0x148 => { s with nt := { s.nt with steps := 0, changes := 0 } }
  | .pol, 0x128 => clearLost s (dieOfNo (p.die - 1))
  | .rng, 0x1A8 => rawAdvance s (dieOfNo (p.die - 1))
  | _, _ => if rc = 0 then s else wr s (a + off) (rd s (a + off) &&& ~~~rc)

/-- A read of 8 bytes: the value, and the state after it. -/
def readFull (s : State) (who : Party) (p : Page) (a off : Nat) (r : RegSpec) : Word × State :=
  if p.block = .pol ∧ off = 0x140 then queueRead s (dieOfNo (p.die - 1))
  else if p.block = .pol ∧ 0x148 ≤ off ∧ off < 0x170 then (readReg s who p a off, latchRead s (dieOfNo (p.die - 1)) off)
  else (readReg s who p a off, clearRc s p a off r.rc)

/-! ### What a write does -/

/-- The implemented bits of a page's interrupt registers. -/
def irqMask (p : Page) : Word := mask 0 (irqBits p + 1)

/-! A masked vector's pending bit is cleared once nothing holds its interrupt pending any longer, as PCIe has the function do
(R45). -/

/-- A page sends vector `vec` of a function through a port. -/
def pageSends (s : State) (pg : Nat) (x : Port) (fn vec : Nat) : Bool :=
  let ctl := rd s (pg + oCtl)
  getF ctl 0 11 == vec && bitOf ctl (11 + portNo x) && (if slcBase ≤ pg then fn == 1 && boundTo (sliceOf s ((pg - slcBase) / 0x1000)) x else fn == 0)

/-- Another source holds the vector pending: a page with a pending interrupt, or a ring pair whose completion interrupts use it. -/
def vectorHeld (s : State) (x : Port) (fn vec : Nat) : Bool :=
  s.regs.any (fun e => e.1 % 0x1000 == oIrqEn && pagePending s (e.1 - oIrqEn) && pageSends s (e.1 - oIrqEn) x fn vec) ||
    (fn == 1 && s.rings.any (fun e => e.2.enable && e.2.irqEn && e.2.vector == vec && e.2.portNow == portCode x))

/-- The pending bit of a page's masked vector at a port is cleared where nothing holds it. -/
def clearPending (pg : Nat) (x : Port) (s : State) : State :=
  let vec := getF (rd s (pg + oCtl)) 0 11
  let fn := if slcBase ≤ pg then 1 else 0
  let ps := portOf s x
  let e := sget (fun _ => {}) ps.msix (msixIx fn vec)
  if e.masked && e.pending && pageSends s pg x fn vec && !vectorHeld s x fn vec then
    setPort s x { ps with msix := sset (fun _ => {}) ps.msix (msixIx fn vec) { e with pending := false } }
  else s

/-- After a write that may end a page's pending interrupt. -/
def pendingEnds (pg : Nat) (s : State) : State :=
  if pagePending s pg then s else clearPending pg .b (clearPending pg .a s)

/-- A write of PG_IRQ_STAT: bits written 1 are cleared but where an event sets them in the same cycle (R43); the message is
sent again where pending stays true (R45). -/
def irqClear (p : Page) (a : Nat) (w now : Word) (s : State) : State :=
  let s := wr s (a + oIrqStat) ((rd s (a + oIrqStat) &&& ~~~(w &&& irqMask p)) ||| (now &&& irqMask p))
  if pagePending s a then pageIrq s a else pendingEnds a s

/-- A write of PG_IRQ_EN (R45). -/
def irqEnable (p : Page) (a : Nat) (w : Word) (s : State) : State :=
  let was := pagePending s a
  let s := wr s (a + oIrqEn) (w &&& irqMask p)
  if !was && pagePending s a then pageIrq s a else pendingEnds a s

/-- A write of PG_IRQ_FORCE (R45). -/
def irqForce (p : Page) (a : Nat) (w : Word) (s : State) : State := raiseBits s a (w &&& irqMask p)

/-- A write of PG_CTL; err_rearm clears the capture (R47). -/
def pgCtl (a : Nat) (w : Word) (s : State) : State :=
  let s := wr s (a + oCtl) (w &&& mask 0 13)
  if bitOf w 16 then rearm s a else s

/-- A write of the common header. -/
def writeHeader (p : Page) (a off : Nat) (w : Word) (s : State) : State :=
  if off = oCtl then pgCtl a w s
  else if off = oIrqStat then irqClear p a w 0 s
  else if off = oIrqEn then irqEnable p a w s
  else if off = oIrqForce then irqForce p a w s
  else s

/-- A write of a slice page register. -/
def writeSlc (who : Party) (n off : Nat) (w : Word) (s : State) : State :=
  let p := (off - 0x200) / 0x40
  if off = 0x108 then slcCtl n w s
  else match (off - 0x200) % 0x40 with
    | 0x18 => ringCtl who n p w s
    | 0x20 => sqDb who n p w s
    | 0x28 => cqDb who n p w s
    | reg => ringBase who n p reg w s

/-- A write of POL_QCAP: the capacity of queue 24 or 25; items above it are dropped as the oldest (R348). -/
def queueCap (d : Die) (w : Word) (s : State) : State :=
  let c := clamp 64 65536 (getF w 0 19)
  let q := qsel s d
  if q = 24 ∨ q = 25 then
    let s := setDie s d (if q = 24 then { dieOf s d with capTrace := c } else { dieOf s d with capNotes := c })
    let x := poolQueue s d q
    let drop := x.items.length - min x.items.length c
    let s := if drop = 0 then s else raise s (pgPol d) 3
    setPoolQueue s d q { x with cap := c, items := x.items.drop drop, lost := min (x.lost + drop) 0xFFFFFFFF }
  else s

/-- A write of CUS_SESSION: ops 1 to 4 start a session. -/
def cusWrite (who : Party) (inst : Nat) (w : Word) (s : State) : State :=
  let op := getF w 32 4
  if 1 ≤ op ∧ op ≤ 4 then startSession who inst op (getF w 0 32) s else s

/-- A write of a base-die register from offset 0x100. -/
def writeBase (who : Party) (p : Page) (a off : Nat) (w rw : Word) (s : State) : State :=
  match p.block, p.inst, off with
  | .pta, 0, 0x110 => portCtl .a w s
  | .ptb, 0, 0x110 => portCtl .b w s
  | .pta, 1, 0x110 => portReset w s
  | .ptb, 1, 0x110 => portReset w s
  | .sem, _, 0x200 => wr s (a + off) (fld 0 24 (clamp 1000 10000000 (getF w 0 24)))
  | .sem, _, _ => semWrite who ((off - 0x100) / 8) w s
  | .ntu, _, 0x110 => armLabel w s
  | .ntu, _, 0x118 => ntuCtl w s
  | .swo, _, 0x128 => swoCtl who w s
  | .cus, i, 0x108 => cusWrite who i w s
  | .lev, i, _ => levConfigure who i off w s
  | .lcc, _, 0x108 => lccAuthReset who w s
  | .lcc, _, 0x110 => lccAuthData who w s
  | .lcc, _, 0x138 => lccTransition who w s
  | .lcc, _, _ => lccToken who ((off - 0x118) / 8) w s
  | .fus, 1, 0x100 => { s with life := { s.life with fusSel := getF w 0 8 } }
  | .fus, 1, 0x110 => policyBurn who w s
  | .gau, 0, 0x108 => { s with gauge := { s.gauge with epochS := clamp 1 86400 (getF w 0 17), epochFrom := s.nt.ns } }
  | .gau, 1, 0x108 => { s with gauge := { s.gauge with jrnSel := w } }
  | .gau, 2, 0x100 => { s with gauge := { s.gauge with histSel := w &&& mask 0 15 } }
  | .wdn, 0, 0x118 => wdnCtl who w s
  | _, _, _ => wr s (a + off) (w &&& rw)

/-- A write of a compute-die register from offset 0x100. -/
def writeDie (who : Party) (p : Page) (a off : Nat) (w rw : Word) (s : State) : State :=
  let d := dieOfNo (p.die - 1)
  match p.block, off with
  | .pol, 0x108 => wr s (a + off) (fld 0 19 (clamp 65536 196608 (getF w 0 19)))
  | .pol, 0x130 => queueCap d w s
  | .pol, 0x170 => polFlush who d w s
  | .fwu, 0x110 => fwuCtl who d w s
  | .fwu, 0x118 => fwuData who d w s
  | .rng, 0x180 => rngCtl d w s
  | _, _ => wr s (a + off) (w &&& rw)

/-- A write of 8 bytes to a register with a writable field. -/
def writeReg (who : Party) (p : Page) (a off : Nat) (w : Word) (r : RegSpec) (s : State) : State :=
  if off < 0x60 then writeHeader p a off w s
  else if p.die = 3 then writeSlc who p.inst off w s
  else if p.die = 0 then writeBase who p a off w r.rw s
  else writeDie who p a off w r.rw s

/-! ### Where an access goes (R49 to R51) -/

/-- The offset lies in an alias. -/
def isAlias (addr : Nat) : Bool := decide (winActive ≤ addr) && decide (addr < winEnd)

/-- The physical offset that an alias names now; none while no die has the role. -/
def physical (s : State) (addr : Nat) : Option Nat :=
  if winActive ≤ addr ∧ addr < winStandby then (activeDie s).map (fun d => dieWin d + (addr - winActive))
  else if winStandby ≤ addr ∧ addr < winEnd then (standbyDie s).map (fun d => dieWin d + (addr - winStandby))
  else some addr

/-- Where an access of BAR0 goes: held for the end of a gap, ended with a cause on the BAS page, or a page and its address. -/
inductive Route where
  | held
  | ended (cause : Nat)
  | at_ (p : Page) (a : Nat)
deriving DecidableEq, Repr

/-- The page that a BAR0 offset meets. BAR2 pages are not behind BAR0. -/
def route (s : State) (addr : Nat) : Route :=
  if isAlias addr && s.sw.gap.isSome then .held
  else if winEnd ≤ addr then .ended 0x0003
  else match physical s addr with
    | none => .ended 0x0006
    | some a =>
      if !windowUp s a then .ended 0x0006
      else match pageAt a with
        | none => .ended 0x0003
        | some p => .at_ p (a / 0x1000 * 0x1000)

/-- An access of 4 or 8 bytes, naturally aligned (R41). -/
def sizeOk (addr size : Nat) : Bool := (size == 4 || size == 8) && addr % size == 0

/-- An access of 4 bytes, as a place in the 8 bytes of its register. -/
def half (addr : Nat) : Nat := if addr % 8 = 4 then 32 else 0

/-- The part of a value that an access of 4 or 8 bytes reads. -/
def partOf (addr size : Nat) (v : Word) : Word := if size = 8 then v else fld 0 32 (getF v (half addr) 32)

/-- The register's value with the written part replaced. -/
def merge (addr size : Nat) (old data : Word) : Word := if size = 8 then data else setF old (half addr) 32 (getF data 0 32)


/-- A read of a register on a page: reserved offsets, and registers that bar 4-byte accesses, read zero (R41, Table 10). -/
def readPage (s : State) (who : Party) (p : Page) (a addr size : Nat) : State :=
  let off := addr / 8 * 8 % 0x1000
  match regSpec p off with
  | none => answer (captureAt s a who 0x0003 addr (if p.die = 3 then some p.inst else none)) who 0
  | some r =>
    if size = 4 ∧ r.side = true then answer (captureAt s pgBas who 0x0002 addr) who 0
    else
      let (v, s) := readFull s who p a off r
      answer s who (partOf addr size v)

/-- A write that reaches a page: `f` is the effect of the register's 8 bytes. `own` says whether the party held semaphore 0 when the
write arrived, where that was earlier (R51, R56). -/
def writePage (s : State) (who : Party) (p : Page) (a addr size : Nat) (data : Word) (f : Word → RegSpec → State → State)
    (own : Option Bool := none) : State :=
  let off := addr / 8 * 8 % 0x1000
  match regSpec p off with
  | none => captureAt s a who 0x0003 addr (if p.die = 3 then some p.inst else none)
  | some r =>
    if size = 4 ∧ r.side = true then captureAt s pgBas who 0x0002 addr
    else if !r.writable then captureAt s a who 0x0004 addr (if p.die = 3 then some p.inst else none)
    else if r.guarded && !own.getD (holds s 0 who) then rejectWrite s who a addr
    else f (merge addr size (readReg s who p a off) data) r s

/-- An access to an alias is held until the end of the gap; 64 of a port withhold its credit (R51). -/
def holdAccess (s : State) (who : Party) (acc : HostAccess) : State :=
  { s with sw := { s.sw with aliasHeld := s.sw.aliasHeld ++ [⟨who, acc, holds s 0 who⟩] } }

/-- A read of BAR0. -/
def readBar0 (s : State) (who : Party) (addr size : Nat) : State :=
  match route s addr with
  | .held => holdAccess s who ⟨false, addr, size, 0⟩
  | .ended c => answer (captureAt s pgBas who c addr) who 0
  | .at_ p a =>
    if s.lev.halted && !haltReadable p.block then answer (captureAt s pgBas who 0x0006 addr) who 0
    else readPage s who p a addr size

/-- A write of BAR0 whose effect on its register is `f`. -/
def writeBar0 (s : State) (who : Party) (addr size : Nat) (data : Word) (f : Page → Nat → Word → RegSpec → State → State)
    (own : Option Bool := none) : State :=
  match route s addr with
  | .held => holdAccess s who ⟨true, addr, size, data⟩
  | .ended c => captureAt s pgBas who c addr
  | .at_ p a =>
    if s.lev.halted && p.block != .sem then (if haltReadable p.block then s else captureAt s pgBas who 0x0006 addr)
    else if s.vault.recovery && !recoveryWritable p.block (addr / 8 * 8 % 0x1000) then s
    else writePage s who p a addr size data (f p a) own

/-- An access of BAR2 meets a slice page (R54, R55, R464, R493). -/
def slcOpen (s : State) (x : Port) (addr : Nat) : Bool :=
  decide (addr < 0x400000) && !s.lev.halted && !s.vault.recovery && slcMapped s x (addr / 0x1000)

/-- The slice page of a BAR2 offset. -/
def slcPage (addr : Nat) : Page := ⟨.slc, addr / 0x1000, 3⟩

/-- A read of BAR2. A function in reset completes no read (PRESUMED, of PCIe). -/
def readBar2 (s : State) (x : Port) (addr size : Nat) : State :=
  let who := partyOf x
  if (portOf s x).flr then send s (.readUr who)
  else if !slcOpen s x addr then answer (captureAt s pgBas who 0x0003 addr (some (addr / 0x1000 % 1024))) who 0
  else readPage s who (slcPage addr) (pgSlc (addr / 0x1000)) addr size

/-- A write of BAR2. -/
def writeBar2 (s : State) (x : Port) (addr size : Nat) (data : Word) (f : Page → Nat → Word → RegSpec → State → State) : State :=
  let who := partyOf x
  if (portOf s x).flr then s
  else if !slcOpen s x addr then captureAt s pgBas who 0x0003 addr (some (addr / 0x1000 % 1024))
  else writePage s who (slcPage addr) (pgSlc (addr / 0x1000)) addr size data (f (slcPage addr) (pgSlc (addr / 0x1000)))

/-! ### BAR4: the MSI-X table and its pending bits (R45, R59) -/

/-- One MSI-X entry of a port's function. -/
def msixOf (s : State) (x : Port) (fn v : Nat) : MsixEntry := sget (fun _ => {}) (portOf s x).msix (msixIx fn v)

def setMsix (s : State) (x : Port) (fn v : Nat) (e : MsixEntry) : State :=
  setPort s x { portOf s x with msix := sset (fun _ => {}) (portOf s x).msix (msixIx fn v) e }

/-- A vector's mask bit is written; unmasking a vector whose pending bit is set sends its message and clears the bit. -/
def maskVector (s : State) (x : Port) (fn v : Nat) (masked : Bool) : State :=
  let e := msixOf s x fn v
  let s := setMsix s x fn v { e with masked := masked, pending := masked && e.pending }
  if !masked && e.pending then msixSend s x fn v else s

/-- The 8 bytes of the table at an offset: address, or data with the vector control. -/
def tableWord (s : State) (x : Port) (fn addr : Nat) : Word :=
  let e := msixOf s x fn (addr / 16)
  if addr % 16 < 8 then e.addr else fld 0 32 e.data.toNat ||| flag 32 e.masked

/-- 64 pending bits. -/
def pbaWord (s : State) (x : Port) (fn i : Nat) : Word :=
  (List.range 64).foldl (fun w j => w ||| flag j (decide (64 * i + j < msixCount fn) && (msixOf s x fn (64 * i + j)).pending)) 0

/-- 8 bytes of BAR4. -/
def bar4Word (s : State) (x : Port) (fn addr : Nat) : Word :=
  let a := addr / 8 * 8
  if a / 16 < msixCount fn then tableWord s x fn a
  else if 0x8000 ≤ a ∧ a - 0x8000 < msixCount fn / 8 then pbaWord s x fn ((a - 0x8000) / 8)
  else 0

/-- A read of BAR4. What an access of another size reads is open; its value is free. -/
def readBar4 (s : State) (x : Port) (fn addr size : Nat) : State :=
  if sizeOk addr size && decide (addr < 0x10000) then answer s (partyOf x) (partOf addr size (bar4Word s x fn addr))
  else
    let (v, s) := drawFree s
    answer s (partyOf x) (BitVec.ofNat 64 v)

/-- A write of BAR4: the table's entries. -/
def writeBar4 (s : State) (x : Port) (fn addr size : Nat) (data : Word) : State :=
  if !sizeOk addr size || !decide (addr / 16 < msixCount fn) then s
  else
    let v := addr / 16
    let w := merge addr size (tableWord s x fn addr) data
    if addr % 16 < 8 then setMsix s x fn v { msixOf s x fn v with addr := w &&& ~~~(mask 0 2) }
    else maskVector (setMsix s x fn v { msixOf s x fn v with data := w.setWidth 32 }) x fn v (bitOf w 32)

/-- A vector is unmasked. -/
def unmaskVector (x : Port) (fn v : Nat) (s : State) : State :=
  if !fnUp (portOf s x) fn || decide (1 < fn) || decide (msixCount fn ≤ v) then s else maskVector s x fn v false

def execMsiXVectorUnmask (port : Port) (fn vector : Nat) (s : State) : Answer := endWith s (unmaskVector port fn vector s)

/-! ### One access, and two ports in one cycle (R44) -/

/-- The function whose address space an access names. -/
def barFn : Bar → Nat
  | .bar0 | .pf0Bar4 | .pf0Config => 0
  | .bar2 | .pf1Bar4 | .pf1Config => 1

/-- An access whose size or alignment R41 forbids ends on the BAS page. The page that it addresses is not looked up, so no slice is
recorded for one of BAR2 (log entry 20). -/
def badSize (s : State) (who : Party) (acc : HostAccess) : State :=
  let s := captureAt s pgBas who 0x0002 acc.addr
  if acc.write then s else send s (.readUr who)

/-- An access of BAR0 that has reached the base die. -/
def accessBar0 (who : Party) (acc : HostAccess) (own : Option Bool) (s : State) : State :=
  if !sizeOk acc.addr acc.size then badSize s who acc
  else if acc.write then
    writeBar0 s who acc.addr acc.size acc.data (fun p a w r => writeReg who p a (acc.addr / 8 * 8 % 0x1000) w r) own
  else readBar0 s who acc.addr acc.size

/-- One access of a party. The warden reaches BAR0 alone. -/
def access (who : Party) (bar : Bar) (acc : HostAccess) (s : State) : State :=
  match bar, partyPort who with
  | .pf0Config, some x => cfgAccess x 0 acc s
  | .pf1Config, some x => cfgAccess x 1 acc s
  | .bar0, _ => if arrives s who then accessBar0 who acc none s else s
  | _, none => s
  | bar, some x =>
    if !arrives s who (barFn bar) then s
    else match bar with
      | .bar2 =>
        if !sizeOk acc.addr acc.size then badSize s who acc
        else if acc.write then writeBar2 s x acc.addr acc.size acc.data (fun p a w r => writeReg who p a (acc.addr / 8 * 8 % 0x1000) w r)
        else readBar2 s x acc.addr acc.size
      | _ => if acc.write then writeBar4 s x (barFn bar) acc.addr acc.size acc.data else readBar4 s x (barFn bar) acc.addr acc.size

/-- The page that an access of BAR0 or BAR2 meets: the page and its address. -/
def pageMet (s : State) (who : Party) (bar : Bar) (acc : HostAccess) : Option (Page × Nat) :=
  if !arrives s who (barFn bar) || !sizeOk acc.addr acc.size then none
  else match bar, partyPort who with
    | .bar0, _ => (match route s acc.addr with | .at_ p a => some (p, a) | _ => none)
    | .bar2, some x => if slcOpen s x acc.addr && !(portOf s x).flr then some (slcPage acc.addr, pgSlc (acc.addr / 0x1000)) else none
    | _, _ => none

/-- The register that an access meets, directly or through an alias. -/
def regMet (s : State) (who : Party) (bar : Bar) (acc : HostAccess) : Option Nat :=
  let off := acc.addr / 8 * 8 % 0x1000
  (pageMet s who bar acc).bind (fun e => (regSpec e.1 off).map (fun _ => e.2 + off))

/-- A write that sets err_rearm in the PG_CTL of its page. -/
def rearms (a : HostAccess) : Bool := a.write && a.addr % 0x1000 == oCtl && a.size == 8 && bitOf a.data 16

/-- What a page's capture registers hold, as an error. -/
def errOf (s : State) (pg : Nat) : ErrIn :=
  let c := rd s (pg + oErr0)
  let e := rd s (pg + oErr2)
  { cause := getF c 0 16, source := getF c 24 4, addr := (rd s (pg + oErr1)).toNat, tag := getF e 0 32
    slice := if bitOf e 42 then some (getF e 32 10) else none }

/-- The second access of a cycle. Where it rearms a page, an error that the first one left there is the first of the new
capture (R47). -/
def accessSecond (first : Party) (a : HostAccess) (second : Party) (bar : Bar) (b : HostAccess) (s : State) : State :=
  let t := access second bar b (access first bar a s)
  match pageMet s second bar b with
  | none => t
  | some (_, pg) =>
    let u := access first bar a (rearm s pg)
    if rearms b && bitOf (rd u (pg + oErr0)) 16 && !bitOf (rd t (pg + oErr0)) 16 then capture t pg (errOf u pg) else t

/-- An access of a party, and an access of the other port to the same address space in the same base-die cycle: the port that the
tie bit names comes first, and a cycle in which both meet one register flips the bit (R44). -/
def accessPair (who : Party) (bar : Bar) (acc : HostAccess) (also : Option HostAccess) (s : State) : State :=
  match partyPort who, also with
  | some x, some b =>
    let other := partyOf (otherPort x)
    let tie := (regMet s who bar acc).isSome && regMet s who bar acc == regMet s other bar b
    let t := if s.tieB == (x == .b) then accessSecond who acc other bar b s else accessSecond other b who bar acc s
    if tie then { t with tieB := !t.tieB } else t
  | _, _ => access who bar acc s

/-- A write, with what the other port does in the same cycle. -/
def execRegisterWrite (who : Party) (bar : Bar) (addr size : Nat) (data : Word) (also : Option HostAccess) (s : State) : Answer :=
  endWith s (accessPair who bar ⟨true, addr, size, data⟩ also s)

/-- A read, with what the other port does in the same cycle. -/
def execRcFieldRead (who : Party) (bar : Bar) (addr size : Nat) (also : Option HostAccess) (s : State) : Answer :=
  endWith s (accessPair who bar ⟨false, addr, size, 0⟩ also s)

/-! ### The rows of single registers -/

/-- An 8-byte write to a header register of the page at an offset of BAR0 or BAR2, whose effect is `f`. -/
def headerRow (who : Party) (bar : Bar) (page off : Nat) (data : Word) (f : Page → Nat → Word → State → State) (s : State) : State :=
  let addr := page / 0x1000 * 0x1000 + off
  if !arrives s who (barFn bar) then s
  else match bar, partyPort who with
    | .bar0, _ => writeBar0 s who addr 8 data (fun p a w _ => f p a w)
    | .bar2, some x => writeBar2 s x addr 8 data (fun p a w _ => f p a w)
    | _, _ => s

/-- `setNow` are the events that fire in the cycle of the write (R43). -/
def execPgIrqStatClear (who : Party) (bar : Bar) (page : Nat) (data setNow : Word) (s : State) : Answer :=
  endWith s (headerRow who bar page oIrqStat data (fun p a w => irqClear p a w setNow) s)

def execPgIrqEnWrite (who : Party) (bar : Bar) (page : Nat) (data : Word) (s : State) : Answer :=
  endWith s (headerRow who bar page oIrqEn data (fun p a w => irqEnable p a w) s)

def execPgIrqForceWrite (who : Party) (bar : Bar) (page : Nat) (data : Word) (s : State) : Answer :=
  endWith s (headerRow who bar page oIrqForce data (fun p a w => irqForce p a w) s)

/-- A write of PG_CTL, and an error that arrives at its page in the same cycle: after a rearm it is the first of the new capture,
and it is captured too where the write is rejected (R47). -/
def errRearm (who : Party) (bar : Bar) (page : Nat) (data : Word) (sameCycle : Option ErrIn) (s : State) : State :=
  let t := headerRow who bar page oCtl data (fun _ a w => pgCtl a w) s
  match pageMet s who bar ⟨true, page / 0x1000 * 0x1000 + oCtl, 8, data⟩, sameCycle with
  | some (_, pg), some e => capture t pg e
  | _, _ => t

def execErrRearm (who : Party) (bar : Bar) (page : Nat) (data : Word) (sameCycle : Option ErrIn) (s : State) : Answer :=
  endWith s (errRearm who bar page data sameCycle s)

/-! ### Aliases at a switchover (R51) -/

/-- An access to an alias arrives in a gap. -/
def heldRow (x : Port) (acc : HostAccess) (s : State) : State :=
  if s.sw.gap.isSome && isAlias acc.addr then access (partyOf x) .bar0 acc s else s

def execAliasAccessHeld (port : Port) (acc : HostAccess) (s : State) : Answer := endWith s (heldRow port acc s)

/-- The old active die of the last switchover, while it is fenced and forwarded accesses to it may still be out. -/
def fencedDie (s : State) : Option Die :=
  let d := dieOfNo s.sw.lastOld
  if s.sw.switchovers ≠ 0 ∧ (dieOf s d).inService = false ∧ (s.sw.gap.isSome ∨ s.nt.ns ≤ s.sw.lastNt + 1000) then some d else none

/-- An access that was forwarded to the old active die before the declaration. -/
def wasForwarded (d : Die) (addr : Nat) : Bool :=
  (decide (winActive ≤ addr) && decide (addr < winStandby)) || windowDie addr == some d

/-- A forwarded access gets no answer within 1 µs. -/
def forwardTimeout (x : Port) (acc : HostAccess) (s : State) : State :=
  match fencedDie s with
  | none => s
  | some d =>
    if !(portOf s x).linkUp || !wasForwarded d acc.addr || !sizeOk acc.addr acc.size then s
    else
      let s := captureAt s pgBas (partyOf x) 0x0005 acc.addr
      if acc.write then s else answer s (partyOf x) 0

def execForwardedAccessTimeout (port : Port) (acc : HostAccess) (s : State) : Answer := endWith s (forwardTimeout port acc s)

/-- The accesses held in a gap are delivered in arrival order under the new roles. They have arrived: their port's link no longer
matters, and a guarded write is decided by who held semaphore 0 then. -/
def deliverHeld (s : State) : State :=
  let held := s.sw.aliasHeld
  held.foldl (fun s e => accessBar0 e.who e.acc (some e.sem) s) { s with sw := { s.sw with aliasHeld := [] } }

/-! ### The two reads with an effect of their own -/

/-- An 8-byte read of RNG_RAW_DATA (R393). -/
def execRngRawDataRead (who : Party) (die : Die) (s : State) : Answer :=
  endWith s (access who .bar0 ⟨false, pgRng die 0 + 0x1A8, 8, 0⟩ s)

/-- An 8-byte read of POL_QREAD0 (R349). -/
def execPolQread0Read (who : Party) (die : Die) (s : State) : Answer :=
  endWith s (access who .bar0 ⟨false, pgPol die + 0x140, 8, 0⟩ s)

end Sys2Proof.Machine
end

