-- ==== Sys2Proof/Machine/Gap.lean ====
section
/-!
DEFINITION. The end of a switchover gap (R51, R76, R260, R311, R341, R439 to R442, R445): what the new active die has applied
stands, what it has not applied never was, and everything uncommitted starts again.
-/
namespace Sys2Proof.Machine

/-! ### Records (R429, R440, R441) -/

/-- Applied records whose acknowledgement never reached the old die: what they say is known to the new one. -/
def knowApplied (s : State) (r : MirrorRec) : State :=
  if r.applied then (if isAdmit r.body then admitAcked s r.body else commitAcked s r.body) else s

/-- `k` descriptors of a pair were never consumed: it is read again from there. -/
def unconsume (s : State) (n p k : Nat) : State :=
  let r := ringOf s n p
  setRing s n p { r with sqHead := r.sqHead - BitVec.ofNat 32 k, debt := r.debt - k, fetch := none }

/-- `k` positions of a pair's completion ring are free again. -/
def untake (s : State) (n p k : Nat) : State :=
  let r := ringOf s n p
  setRing s n p { r with cqNext := r.cqNext - BitVec.ofNat 32 k }

/-- A chain whose admission was not applied. -/
def unadmit (s : State) (ks : List Nat) : State :=
  match ks.head?.bind (stepOf s) with
  | none => s
  | some t => ks.foldl releaseStep (unconsume s t.sliceNo t.pair ks.length)

/-- A refused chain whose admission record was not applied. -/
def unrefuse (s : State) (a : Nat) : State :=
  match refusedOf s a with
  | none => s
  | some r =>
    let s := unconsume s r.sliceNo r.pair r.descs.length
    { s with conf := { s.conf with refused := s.conf.refused.filter (fun x => x.admitSeq != a) } }

/-- Records that were not applied. A step's commit is undone with the step. -/
def forgetRec (s : State) (r : MirrorRec) : State :=
  if r.applied then s
  else match r.body with
    | .admission ks => unadmit s ks
    | .admitRefused a => unrefuse s a
    | .commit k => (match stepOf s k with | some t => untake s t.sliceNo t.pair 1 | none => s)
    | .commitRefused a _ => (match refusedOf s a with | some x => untake s x.sliceNo x.pair 1 | none => s)
    | _ => s

/-- A refused chain sends the commits that were not applied again. -/
def refusedAgain (r : Refused) : Refused := if r.applied < r.descs.length then { r with sent := none, admAcked := true } else r

/-! ### Progress marks (R260) -/

/-- The COMMIT record of a mark is among those that were not applied. -/
def commitLost (recs : List MirrorRec) (m : Nat) (x : Mark) : Bool :=
  recs.any (fun r => !r.applied && (match r.body, x.kind with
    | .commit k, .step j => k == j
    | .commitInternal n, _ => n == m
    | _, _ => false))

/-- A committed transaction is carried through on the new active die; any other is rolled back. -/
def gapMark (recs : List MirrorRec) (s : State) (m : Nat) : State :=
  match mget s.kst.marks m with
  | none => s
  | some x =>
    if x.flipped then finishMark s m
    else if x.seq ≠ 0 ∧ commitLost recs m x = false then finishMark (flipMark s m) m
    else dropMark s m

/-! ### Confluence and the units of the new active die (R330, R341) -/

/-- The units of the new active die: nothing runs on them, and its lists are empty. Each die keeps queues 24 and 25 of its own Pool
(R346). -/
def freshUnits (s : State) : State :=
  let o := otherDie (curDie s)
  let s := if (dieOf s o).inService then setDie s o { dieOf s o with idleTrace := s.conf.trace, idleNotes := s.conf.notes } else s
  let d := dieOf s (curDie s)
  { s with
    cores := [], engines := [], pipes := [], lanes := [], rules := [], btc := [], btcClock := 0, drbg := []
    kst := { s.kst with cache := [], clock := 0, draws := [], withdrawal := [], repairing := [], sealNext := 0, sealEnd := 0 }
    conf := { s.conf with
      ready := [], bnlReady := [], pipeReady := [], sealReady := [], owedList := [], openList := [], visiting := [], pointer := 0
      yieldFree := 8192, creditUs := s.nt.ns / 1000, trace := { d.idleTrace with cap := d.capTrace }, notes := { d.idleNotes with cap := d.capNotes } } }

/-- A slice with full buckets and no waits. -/
def sliceAgain (sl : Slice) : Slice :=
  if sl.mode = .absent then sl
  else fullBuckets { noWait sl with deficit := 0, nextPair := 0 }

/-- A pair whose written completions may not have been covered delivers them again, at their entries (R440). -/
def ringAgain (r : Ring) : Ring :=
  { r with fetch := none, uncovered := [], owed := (r.uncovered.map (fun o => { o with again := true, step := none })) ++ r.owed }

/-- Uncommitted steps of the chains that the new active die holds. -/
def uncommitted (s : State) : List Nat := stepsWhere s (fun _ t => !isCommitted t)


/-- Confluence is rebuilt: commit numbers go on from the last that was applied, and every uncommitted step is re-executed. -/
def rebuild (s : State) : State :=
  let ks := uncommitted s
  let s := freshUnits s
  let s := ks.foldl resetStep s
  let s := ks.foldl (fun s k => match stepOf s k with | some t => setStep s k { t with admAcked := true } | none => s) s
  let s := { s with
    conf := { s.conf with
      refused := s.conf.refused.map refusedAgain, commitSeq := (dieOf s (curDie s)).applied, yieldFree := 8192 }
    slices := mmap (fun _ sl => sliceAgain sl) s.slices, rings := mmap (fun _ r => ringAgain r) s.rings
    pipes := [], passes := s.passes.filter (·.started), sw := { s.sw with reexecuted := ks.length } }
  placePasses s (s.passes.map (·.step))

/-! ### The journal (R444, R506) -/

/-- A record in progress is finished by the new active die, and the old die's staged events follow; with a silent die they are
lost. -/
def journalAgain (cause : Nat) (recs : List MirrorRec) (s : State) : State :=
  let lost := recs.any (fun r => !r.applied && (match r.body with | .journal _ => true | _ => false))
  let s := if cause = 1 ∧ lost = true then { s with gauge := { s.gauge with writing := none } } else finishRecord s
  let s := if cause = 1 then { s with gauge := { s.gauge with q := {} } } else s
  releaseBuffer s

/-! ### Ports and doorbells (R76, R79, R442) -/

/-- Pairs of a port that carries none any longer move; a port that is well takes up those that are held. -/
def portSettle (s : State) (x : Port) : State := if portOk s x then portBack s x else portGone s x

/-- The doorbell recorded for a pair is read. -/
def gapDoorbell (s : State) (i : Nat) : State :=
  let n := i / 8
  let p := i % 8
  match (ringOf s n p).gapDb with
  | none => s
  | some (who, w) => sqRing who n p (w.setWidth 32) (setRing s n p { ringOf s n p with gapDb := none })

/-- The completion doorbell recorded for a pair is read. -/
def gapRelease (s : State) (i : Nat) : State :=
  let n := i / 8
  let p := i % 8
  match (ringOf s n p).gapCq with
  | none => s
  | some (who, w) => cqRing who n p (w.setWidth 32) (setRing s n p { ringOf s n p with gapCq := none })

/-- Every recorded doorbell is read, a completion doorbell before a submission doorbell. -/
def gapDoorbells (s : State) : State :=
  (mkeys s.rings (fun _ r => r.gapDb.isSome || r.gapCq.isSome)).foldl (fun s i => gapDoorbell (gapRelease s i) i) s

/-- A squash goes on. -/
def squashAgain (s : State) : State := (mkeys s.slices (fun _ sl => sl.mode == .squashing)).foldl squashSteps s

/-! ### The end of the gap (R439) -/

/-- The work of the gap is done, after a number of core cycles from the declaration. -/
def endGap (g : Gap) (cycles : Nat) (s : State) : State :=
  let before := s
  let recs := s.sw.recs
  let s := reach s (g.declNt + cyclesNs cycles)
  let s := recs.foldl knowApplied s
  let s := recs.foldl forgetRec s
  let s := { s with sw := { s.sw with recs := [], gapCycles := cycles } }
  let s := (mkeys s.kst.marks (fun _ _ => true)).foldl (gapMark recs) s
  let s := rebuild s
  let s := { s with sw := { s.sw with gap := none } }
  let s := journalAgain g.cause recs s
  let s := portSettle (portSettle s .a) .b
  let s := squashAgain (gapDoorbells s)
  let s := notify s 5 (dieNo (curDie s)) 0 0 (dieNo g.old) (dieNo (curDie s))
  settle (deliverHeld (refreshHealth before s))

/-- The gap of a switchover ends within 8,000 core cycles. -/
def gapEnd (cycles : Nat) (s : State) : State :=
  match s.sw.gap with
  | some g => if (activeDie s).isSome ∧ cycles ≤ 8000 then endGap g cycles s else s
  | none => s

def execGapEnd (cycles : Nat) (s : State) : Answer := endWith s (gapEnd cycles s)

end Sys2Proof.Machine
end

