-- ==== Sys2Proof/Machine/Dispatch.lean ====
section
/-!
DEFINITION. The command's effect, by its constructor: one arm for each row of the table of operations and events.
-/
namespace Sys2Proof.Machine

def exec (i : Instr) (s : State) : Host.Outcome State Fault Refusal :=
  match i with
  | .registerWrite who bar addr size data also => Sys2Proof.Machine.execRegisterWrite who bar addr size data also s
  | .rcFieldRead who bar addr size also => Sys2Proof.Machine.execRcFieldRead who bar addr size also s
  | .pgIrqStatClear who bar page data setNow => Sys2Proof.Machine.execPgIrqStatClear who bar page data setNow s
  | .pgIrqEnWrite who bar page data => Sys2Proof.Machine.execPgIrqEnWrite who bar page data s
  | .pgIrqForceWrite who bar page data => Sys2Proof.Machine.execPgIrqForceWrite who bar page data s
  | .errRearm who bar page data sameCycle => Sys2Proof.Machine.execErrRearm who bar page data sameCycle s
  | .aliasAccessHeld port acc => Sys2Proof.Machine.execAliasAccessHeld port acc s
  | .forwardedAccessTimeout port acc => Sys2Proof.Machine.execForwardedAccessTimeout port acc s
  | .sliceDrain port slice ctl => Sys2Proof.Machine.execSliceDrain port slice ctl s
  | .sliceSquash port slice ctl => Sys2Proof.Machine.execSliceSquash port slice ctl s
  | .sliceHoldWrite port slice ctl => Sys2Proof.Machine.execSliceHoldWrite port slice ctl s
  | .sliceResetEnd slice => Sys2Proof.Machine.execSliceResetEnd slice s
  | .ringEnable port slice pair ctl => Sys2Proof.Machine.execRingEnable port slice pair ctl s
  | .ringDisable port slice pair ctl => Sys2Proof.Machine.execRingDisable port slice pair ctl s
  | .ringHomeWrite port slice pair ctl => Sys2Proof.Machine.execRingHomeWrite port slice pair ctl s
  | .ringConfigWrite port slice pair reg value => Sys2Proof.Machine.execRingConfigWrite port slice pair reg value s
  | .sqDoorbell port slice pair value => Sys2Proof.Machine.execSqDoorbell port slice pair value s
  | .cqDoorbell port slice pair value => Sys2Proof.Machine.execCqDoorbell port slice pair value s
  | .portEvacuateWrite who port ctl => Sys2Proof.Machine.execPortEvacuateWrite who port ctl s
  | .ptxSliceResetDrain who port value => Sys2Proof.Machine.execPtxSliceResetDrain who port value s
  | .ptxSliceResetSquash who port value => Sys2Proof.Machine.execPtxSliceResetSquash who port value s
  | .portLinkDown port => Sys2Proof.Machine.execPortLinkDown port s
  | .portLinkUp port speed width => Sys2Proof.Machine.execPortLinkUp port speed width s
  | .flrPf1 port => Sys2Proof.Machine.execFlrPf1 port s
  | .flrPf0 port => Sys2Proof.Machine.execFlrPf0 port s
  | .semTake port n => Sys2Proof.Machine.execSemTake port n s
  | .semRelease who n => Sys2Proof.Machine.execSemRelease who n s
  | .semRenew port n => Sys2Proof.Machine.execSemRenew port n s
  | .semLeaseExpiry n => Sys2Proof.Machine.execSemLeaseExpiry n s
  | .wardenSemTake => Sys2Proof.Machine.execWardenSemTake s
  | .descriptorFetch slice pair descs => Sys2Proof.Machine.execDescriptorFetch slice pair descs s
  | .descriptorParse slice pair reads => Sys2Proof.Machine.execDescriptorParse slice pair reads s
  | .descriptorReadError slice pair => Sys2Proof.Machine.execDescriptorReadError slice pair s
  | .admissionDecision => Sys2Proof.Machine.execAdmissionDecision s
  | .bucketCredit => Sys2Proof.Machine.execBucketCredit s
  | .coreHandover => Sys2Proof.Machine.execCoreHandover s
  | .inputSegmentReadDone k data => Sys2Proof.Machine.execInputSegmentReadDone k data s
  | .keyCacheEntryFreed k => Sys2Proof.Machine.execKeyCacheEntryFreed k s
  | .boundaryEnd k => Sys2Proof.Machine.execBoundaryEnd k s
  | .execLimitExpiry k => Sys2Proof.Machine.execExecLimitExpiry k s
  | .stepReady k => Sys2Proof.Machine.execStepReady k s
  | .eddyConfirm k => Sys2Proof.Machine.execEddyConfirm k s
  | .eddyScrubDone core entry => Sys2Proof.Machine.execEddyScrubDone core entry s
  | .admitAckReceived seq => Sys2Proof.Machine.execAdmitAckReceived seq s
  | .commitAckReceived seq => Sys2Proof.Machine.execCommitAckReceived seq s
  | .completionBatchWrite slice pair => Sys2Proof.Machine.execCompletionBatchWrite slice pair s
  | .coalesceTimerExpiry slice pair => Sys2Proof.Machine.execCoalesceTimerExpiry slice pair s
  | .bnlJobStart engine => Sys2Proof.Machine.execBnlJobStart engine s
  | .bnlJobDone engine checkOk => Sys2Proof.Machine.execBnlJobDone engine checkOk s
  | .stepYield k => Sys2Proof.Machine.execStepYield k s
  | .stepResume k => Sys2Proof.Machine.execStepResume k s
  | .dataPassAccept pipe => Sys2Proof.Machine.execDataPassAccept pipe s
  | .dataPassDone pipe data => Sys2Proof.Machine.execDataPassDone pipe data s
  | .dataPassAbandon k => Sys2Proof.Machine.execDataPassAbandon k s
  | .dataPassPortLoss pipe => Sys2Proof.Machine.execDataPassPortLoss pipe s
  | .sealJob pipe => Sys2Proof.Machine.execSealJob pipe s
  | .btcSweep => Sys2Proof.Machine.execBtcSweep s
  | .streamIdleClose stream => Sys2Proof.Machine.execStreamIdleClose stream s
  | .keyTxnFramesWritten mark => Sys2Proof.Machine.execKeyTxnFramesWritten mark s
  | .keyTxnFlip mark => Sys2Proof.Machine.execKeyTxnFlip mark s
  | .keyTxnLogWritten mark => Sys2Proof.Machine.execKeyTxnLogWritten mark s
  | .keyCutover slot => Sys2Proof.Machine.execKeyCutover slot s
  | .resetExpiryErase slot => Sys2Proof.Machine.execResetExpiryErase slot s
  | .shadowHoming slot => Sys2Proof.Machine.execShadowHoming slot s
  | .withdrawalEnd slot => Sys2Proof.Machine.execWithdrawalEnd slot s
  | .oldMaterialZeroise slot gen => Sys2Proof.Machine.execOldMaterialZeroise slot gen s
  | .frameTagFail slot pend => Sys2Proof.Machine.execFrameTagFail slot pend s
  | .frameRepairReply slot verifies => Sys2Proof.Machine.execFrameRepairReply slot verifies s
  | .nop k => Sys2Proof.Machine.execNop k s
  | .pinTranslate k => Sys2Proof.Machine.execPinTranslate k s
  | .pinVerifyOffset k => Sys2Proof.Machine.execPinVerifyOffset k s
  | .pinVerifyValue k => Sys2Proof.Machine.execPinVerifyValue k s
  | .pinGenerate k => Sys2Proof.Machine.execPinGenerate k s
  | .pinOffsetDerive k => Sys2Proof.Machine.execPinOffsetDerive k s
  | .pinScreen k => Sys2Proof.Machine.execPinScreen k s
  | .pinChangeScript k => Sys2Proof.Machine.execPinChangeScript k s
  | .pinValueDerive k => Sys2Proof.Machine.execPinValueDerive k s
  | .arqcVerify k => Sys2Proof.Machine.execArqcVerify k s
  | .arpcGenerate k => Sys2Proof.Machine.execArpcGenerate k s
  | .arqcVerifyArpc k => Sys2Proof.Machine.execArqcVerifyArpc k s
  | .scriptMac k => Sys2Proof.Machine.execScriptMac k s
  | .scriptEncrypt k => Sys2Proof.Machine.execScriptEncrypt k s
  | .cvcGenerate k => Sys2Proof.Machine.execCvcGenerate k s
  | .cvcVerify k => Sys2Proof.Machine.execCvcVerify k s
  | .dcvcGenerate k => Sys2Proof.Machine.execDcvcGenerate k s
  | .dcvcVerify k => Sys2Proof.Machine.execDcvcVerify k s
  | .dukptPinTranslate k => Sys2Proof.Machine.execDukptPinTranslate k s
  | .dukptMacVerify k => Sys2Proof.Machine.execDukptMacVerify k s
  | .dukptDecryptData k => Sys2Proof.Machine.execDukptDecryptData k s
  | .dukptInitialKey k => Sys2Proof.Machine.execDukptInitialKey k s
  | .macGenerate k => Sys2Proof.Machine.execMacGenerate k s
  | .macVerify k => Sys2Proof.Machine.execMacVerify k s
  | .hmacGenerate k => Sys2Proof.Machine.execHmacGenerate k s
  | .hmacVerify k => Sys2Proof.Machine.execHmacVerify k s
  | .tokenEncode k => Sys2Proof.Machine.execTokenEncode k s
  | .tokenDecode k => Sys2Proof.Machine.execTokenDecode k s
  | .bulkOpen k => Sys2Proof.Machine.execBulkOpen k s
  | .bulkSegment k => Sys2Proof.Machine.execBulkSegment k s
  | .bulkClose k => Sys2Proof.Machine.execBulkClose k s
  | .bulkTk7 k => Sys2Proof.Machine.execBulkTk7 k s
  | .keyGenerate k => Sys2Proof.Machine.execKeyGenerate k s
  | .keyImportBlock k => Sys2Proof.Machine.execKeyImportBlock k s
  | .keyExportBlock k => Sys2Proof.Machine.execKeyExportBlock k s
  | .keyRewrite k => Sys2Proof.Machine.execKeyRewrite k s
  | .keyErase k => Sys2Proof.Machine.execKeyErase k s
  | .keyReadAttr k => Sys2Proof.Machine.execKeyReadAttr k s
  | .keyActivateAt k => Sys2Proof.Machine.execKeyActivateAt k s
  | .keyCheckValue k => Sys2Proof.Machine.execKeyCheckValue k s
  | .keyTxnQuery k => Sys2Proof.Machine.execKeyTxnQuery k s
  | .keyBlockVerify k => Sys2Proof.Machine.execKeyBlockVerify k s
  | .pkSign k => Sys2Proof.Machine.execPkSign k s
  | .pkVerify k => Sys2Proof.Machine.execPkVerify k s
  | .pkDecrypt k => Sys2Proof.Machine.execPkDecrypt k s
  | .pkEncrypt k => Sys2Proof.Machine.execPkEncrypt k s
  | .keyPairGenerate k => Sys2Proof.Machine.execKeyPairGenerate k s
  | .ecdhDerive k => Sys2Proof.Machine.execEcdhDerive k s
  | .kemEncaps k => Sys2Proof.Machine.execKemEncaps k s
  | .kemDecaps k => Sys2Proof.Machine.execKemDecaps k s
  | .tr34Import k => Sys2Proof.Machine.execTr34Import k s
  | .tr34Export k => Sys2Proof.Machine.execTr34Export k s
  | .transportHybridSeal k => Sys2Proof.Machine.execTransportHybridSeal k s
  | .transportHybridOpen k => Sys2Proof.Machine.execTransportHybridOpen k s
  | .attestKey k => Sys2Proof.Machine.execAttestKey k s
  | .attestModule k => Sys2Proof.Machine.execAttestModule k s
  | .digestBlocks k => Sys2Proof.Machine.execDigestBlocks k s
  | .randomGet k => Sys2Proof.Machine.execRandomGet k s
  | .measureExtend k => Sys2Proof.Machine.execMeasureExtend k s
  | .measureRead k => Sys2Proof.Machine.execMeasureRead k s
  | .btcInval k => Sys2Proof.Machine.execBtcInval k s
  | .ceremonyOpen k => Sys2Proof.Machine.execCeremonyOpen k s
  | .ceremonyApprove k => Sys2Proof.Machine.execCeremonyApprove k s
  | .componentEnter k => Sys2Proof.Machine.execComponentEnter k s
  | .ceremonyClose k => Sys2Proof.Machine.execCeremonyClose k s
  | .ceremonyCancel k => Sys2Proof.Machine.execCeremonyCancel k s
  | .ceremonyStatus k => Sys2Proof.Machine.execCeremonyStatus k s
  | .replayRun k => Sys2Proof.Machine.execReplayRun k s
  | .replayStatus k => Sys2Proof.Machine.execReplayStatus k s
  | .takeOwnership k => Sys2Proof.Machine.execTakeOwnership k s
  | .restore k => Sys2Proof.Machine.execRestore k s
  | .backup k => Sys2Proof.Machine.execBackup k s
  | .rosterChange k => Sys2Proof.Machine.execRosterChange k s
  | .sliceCreate k => Sys2Proof.Machine.execSliceCreate k s
  | .sliceDelete k => Sys2Proof.Machine.execSliceDelete k s
  | .sliceRebind k => Sys2Proof.Machine.execSliceRebind k s
  | .policyGrant k => Sys2Proof.Machine.execPolicyGrant k s
  | .componentEntry k => Sys2Proof.Machine.execComponentEntry k s
  | .objectEntry k => Sys2Proof.Machine.execObjectEntry k s
  | .firmwareActivate k => Sys2Proof.Machine.execFirmwareActivate k s
  | .lifecycleChange k => Sys2Proof.Machine.execLifecycleChange k s
  | .rawSampling k => Sys2Proof.Machine.execRawSampling k s
  | .replay k => Sys2Proof.Machine.execReplay k s
  | .ceremonyExpiry ceremony => Sys2Proof.Machine.execCeremonyExpiry ceremony s
  | .cardSessionApprove who port ceremony => Sys2Proof.Machine.execCardSessionApprove who port ceremony s
  | .cardSessionComponent who port ceremony => Sys2Proof.Machine.execCardSessionComponent who port ceremony s
  | .cardSessionPutShare who port ceremony => Sys2Proof.Machine.execCardSessionPutShare who port ceremony s
  | .cardSessionGetShare who port ceremony => Sys2Proof.Machine.execCardSessionGetShare who port ceremony s
  | .cardSessionDone port cause point sig wrapped => Sys2Proof.Machine.execCardSessionDone port cause point sig wrapped s
  | .cardSessionTimeout port => Sys2Proof.Machine.execCardSessionTimeout port s
  | .cardResultExpiry port => Sys2Proof.Machine.execCardResultExpiry port s
  | .cardInserted port => Sys2Proof.Machine.execCardInserted port s
  | .cardRemoved port => Sys2Proof.Machine.execCardRemoved port s
  | .admitRecordApply => Sys2Proof.Machine.execAdmitRecordApply s
  | .frameRecordApply => Sys2Proof.Machine.execFrameRecordApply s
  | .commitRecordApply => Sys2Proof.Machine.execCommitRecordApply s
  | .deliveredRecordApply => Sys2Proof.Machine.execDeliveredRecordApply s
  | .journalRecordApply => Sys2Proof.Machine.execJournalRecordApply s
  | .catchupRecordApply => Sys2Proof.Machine.execCatchupRecordApply s
  | .mirrorResend seq => Sys2Proof.Machine.execMirrorResend seq s
  | .mirrorHalfDown half lost => Sys2Proof.Machine.execMirrorHalfDown half lost s
  | .mirrorCreditRequest holder other => Sys2Proof.Machine.execMirrorCreditRequest holder other s
  | .heartbeat die half pathQ count state => Sys2Proof.Machine.execHeartbeat die half pathQ count state s
  | .heartbeatSlotMiss die half pathQ => Sys2Proof.Machine.execHeartbeatSlotMiss die half pathQ s
  | .dieFatalDeclared die => Sys2Proof.Machine.execDieFatalDeclared die s
  | .switchoverDeclare => Sys2Proof.Machine.execSwitchoverDeclare s
  | .gapEnd cycles => Sys2Proof.Machine.execGapEnd cycles s
  | .swoPlanned who => Sys2Proof.Machine.execSwoPlanned who s
  | .plannedMarker timeout => Sys2Proof.Machine.execPlannedMarker timeout s
  | .swoForce who => Sys2Proof.Machine.execSwoForce who s
  | .swoRejoin who => Sys2Proof.Machine.execSwoRejoin who s
  | .testChannelCheck shadowOk missedA missedB early => Sys2Proof.Machine.execTestChannelCheck shadowOk missedA missedB early s
  | .dieStart die ok ms => Sys2Proof.Machine.execDieStart die ok ms s
  | .ntRefCheck accepted => Sys2Proof.Machine.execNtRefCheck accepted s
  | .ppsEdge nt => Sys2Proof.Machine.execPpsEdge nt s
  | .ntuNextPulse who value => Sys2Proof.Machine.execNtuNextPulse who value s
  | .ntuDistrust who ctl => Sys2Proof.Machine.execNtuDistrust who ctl s
  | .trustTimerExpiry cause => Sys2Proof.Machine.execTrustTimerExpiry cause s
  | .ntFloorWrite => Sys2Proof.Machine.execNtFloorWrite s
  | .hazardReport hazard site a b nets => Sys2Proof.Machine.execHazardReport hazard site a b nets s
  | .detectorFault pair => Sys2Proof.Machine.execDetectorFault pair s
  | .pairDegraded hazard site => Sys2Proof.Machine.execPairDegraded hazard site s
  | .detectorSelftest failed => Sys2Proof.Machine.execDetectorSelftest failed s
  | .hazardResponse => Sys2Proof.Machine.execHazardResponse s
  | .throttleEnd => Sys2Proof.Machine.execThrottleEnd s
  | .brownOut => Sys2Proof.Machine.execBrownOut s
  | .leveeConfigWrite who inst off data => Sys2Proof.Machine.execLeveeConfigWrite who inst off data s
  | .aoFlagClear hazard => Sys2Proof.Machine.execAoFlagClear hazard s
  | .noiseBlockFail die source rct apt => Sys2Proof.Machine.execNoiseBlockFail die source rct apt s
  | .sourceRestartExpiry die source => Sys2Proof.Machine.execSourceRestartExpiry die source s
  | .sourceStartupDone die source => Sys2Proof.Machine.execSourceStartupDone die source s
  | .seedConditioned die blocks => Sys2Proof.Machine.execSeedConditioned die blocks s
  | .seedWaitTimeout k => Sys2Proof.Machine.execSeedWaitTimeout k s
  | .rngDieCtlWrite who die value => Sys2Proof.Machine.execRngDieCtlWrite who die value s
  | .rngRawDataRead who die => Sys2Proof.Machine.execRngRawDataRead who die s
  | .rawSamplingEnd die => Sys2Proof.Machine.execRawSamplingEnd die s
  | .sramUncorrectable die addr owner bothCopies => Sys2Proof.Machine.execSramUncorrectable die addr owner bothCopies s
  | .sramPatrolForced die bank accesses => Sys2Proof.Machine.execSramPatrolForced die bank accesses s
  | .rowReplace die bank row => Sys2Proof.Machine.execRowReplace die bank row s
  | .poolUncorrectable die addr => Sys2Proof.Machine.execPoolUncorrectable die addr s
  | .mpuPreciseTrap k kind addr pc => Sys2Proof.Machine.execMpuPreciseTrap k kind addr pc s
  | .mpuBufferedStoreRefused k stores => Sys2Proof.Machine.execMpuBufferedStoreRefused k stores s
  | .integrityMismatch die flit retry => Sys2Proof.Machine.execIntegrityMismatch die flit retry s
  | .integritySecondMismatch die flit kind index who => Sys2Proof.Machine.execIntegritySecondMismatch die flit kind index who s
  | .polQread0Read who die => Sys2Proof.Machine.execPolQread0Read who die s
  | .polFlush who die => Sys2Proof.Machine.execPolFlush who die s
  | .unitSelftest die kind inst pass last => Sys2Proof.Machine.execUnitSelftest die kind inst pass last s
  | .unitFailed die kind inst => Sys2Proof.Machine.execUnitFailed die kind inst s
  | .spareSubstituted die kind => Sys2Proof.Machine.execSpareSubstituted die kind s
  | .governorSample lid0 lid1 temp power => Sys2Proof.Machine.execGovernorSample lid0 lid1 temp power s
  | .governorStepRemoval => Sys2Proof.Machine.execGovernorStepRemoval s
  | .vinArrival => Sys2Proof.Machine.execVinArrival s
  | .vinLoss => Sys2Proof.Machine.execVinLoss s
  | .powerDownDone => Sys2Proof.Machine.execPowerDownDone s
  | .vauxLoss => Sys2Proof.Machine.execVauxLoss s
  | .vauxReturn => Sys2Proof.Machine.execVauxReturn s
  | .alwaysOnPowerLost => Sys2Proof.Machine.execAlwaysOnPowerLost s
  | .coldStart report => Sys2Proof.Machine.execColdStart report s
  | .warmStart report => Sys2Proof.Machine.execWarmStart report s
  | .quiesceEnd => Sys2Proof.Machine.execQuiesceEnd s
  | .startFailed lockstep => Sys2Proof.Machine.execStartFailed lockstep s
  | .wdnWarm who => Sys2Proof.Machine.execWdnWarm who s
  | .wdnRecover who slot0 slot1 => Sys2Proof.Machine.execWdnRecover who slot0 slot1 s
  | .wdnConfirm who => Sys2Proof.Machine.execWdnConfirm who s
  | .confirmWindowExpiry => Sys2Proof.Machine.execConfirmWindowExpiry s
  | .trialBootFailed => Sys2Proof.Machine.execTrialBootFailed s
  | .antiRollbackBurn ok => Sys2Proof.Machine.execAntiRollbackBurn ok s
  | .fwuDlOpen who die length => Sys2Proof.Machine.execFwuDlOpen who die length s
  | .fwuDlData who die data => Sys2Proof.Machine.execFwuDlData who die data s
  | .fwuDlClose who die => Sys2Proof.Machine.execFwuDlClose who die s
  | .fwuDlVerify who die => Sys2Proof.Machine.execFwuDlVerify who die s
  | .fwuVerifyDone die => Sys2Proof.Machine.execFwuVerifyDone die s
  | .lccAuthReset who => Sys2Proof.Machine.execLccAuthReset who s
  | .lccAuthData who data => Sys2Proof.Machine.execLccAuthData who data s
  | .lccTokenWrite who n data => Sys2Proof.Machine.execLccTokenWrite who n data s
  | .lccTransition who data => Sys2Proof.Machine.execLccTransition who data s
  | .lccCheckDone ok spareOk => Sys2Proof.Machine.execLccCheckDone ok spareOk s
  | .transitionPhase ok spareOk => Sys2Proof.Machine.execTransitionPhase ok spareOk s
  | .fusPolicyBurn who forbid => Sys2Proof.Machine.execFusPolicyBurn who forbid s
  | .fuseTempSense temp done reads => Sys2Proof.Machine.execFuseTempSense temp done reads s
  | .fuseSpareRewrite done ok => Sys2Proof.Machine.execFuseSpareRewrite done ok s
  | .journalEvent code severity source slice detail => Sys2Proof.Machine.execJournalEvent code severity source slice detail s
  | .journalWriteDone => Sys2Proof.Machine.execJournalWriteDone s
  | .epochClose => Sys2Proof.Machine.execEpochClose s
  | .temperatureSecond temp vinMv vauxMv vbatMv => Sys2Proof.Machine.execTemperatureSecond temp vinMv vauxMv vbatMv s
  | .replaySessionEnd => Sys2Proof.Machine.execReplaySessionEnd s
  | .batteryLow vbatMv => Sys2Proof.Machine.execBatteryLow vbatMv s
  | .rawSamplesCaptured die blocks => Sys2Proof.Machine.execRawSamplesCaptured die blocks s
  | .patrolPass die fixes => Sys2Proof.Machine.execPatrolPass die fixes s
  | .msiXVectorUnmask port fn vector => Sys2Proof.Machine.execMsiXVectorUnmask port fn vector s

end Sys2Proof.Machine
end

