-- ==== Sys2Proof/Machine/Idle.lean ====
section
/-!
DEFINITION. What one step does when no command waits.
-/
namespace Sys2Proof.Machine

/-- A cycle of 40 ns under a slew (R418): the whole nanoseconds that it removes, NT behind being moved forward, and the rest. -/
def slewed (n : NtUnit) : NtUnit :=
  let part := n.slewPart + 40 * n.slewPpm
  let k := min (part / 1000000) n.slewLeft.natAbs
  if n.slewLeft = 0 then { n with ns := n.ns + 40, slewPart := 0 }
  else if n.slewLeft < 0 then { n with ns := n.ns + 40 + k, slewLeft := n.slewLeft + k, slewPart := part % 1000000 }
  else { n with ns := n.ns + 40 - k, slewLeft := n.slewLeft - k, slewPart := part % 1000000 }

/-- One cycle of NT_REF, 40 ns, passes (R414; log entry 3). -/
def idle (s : State) : State := { s with nt := slewed s.nt }

end Sys2Proof.Machine
end

