-- ==== Sys2Proof/WellFormed.lean ====
section
/-!
DEFINITION. Well-formed commands: every operand lies in the range that the specification gives it. Every command has a
meaning, well-formed or not; an operand outside its range names nothing of the module.
-/
namespace Sys2Proof

/-- A slice number (R63). -/
def sliceNoOk (n : Nat) : Bool := decide (n < 1024)
/-- A ring pair of a slice (R66). -/
def pairNoOk (p : Nat) : Bool := decide (p < 8)
/-- A step's key: one of 32,768 contexts, and the step's index in its chain (R107, R323). -/
def stepKeyOk (k : Nat) : Bool := decide (k < 8 * 32768)
/-- A transaction core of a die (R19). -/
def coreNoOk (c : Nat) : Bool := decide (c < 288)
/-- An Eddy entry of a core (R353). -/
def entryNoOk (i : Nat) : Bool := decide (i < 4)
/-- A BNL engine (R19). -/
def engineNoOk (i : Nat) : Bool := decide (i < 28)
/-- A streaming pipeline (R19). -/
def pipeNoOk (i : Nat) : Bool := decide (i < 5)
/-- A stream identifier (R220). -/
def streamNoOk (i : Nat) : Bool := decide (i < 2 ^ 32)
/-- A progress mark (R261). -/
def markNoOk (m : Nat) : Bool := decide (m < 128)
/-- A key slot (R230). -/
def slotNoOk (a : Nat) : Bool := decide (a < 8388608)
/-- A half of the mirror link or of the arbiter. -/
def halfNoOk (h : Nat) : Bool := decide (h < 2)
/-- A custodian card port (R314). -/
def cardNoOk (p : Nat) : Bool := decide (p < 2)
/-- A hazard code (Table 2 of the Levee chapter). -/
def hazardNoOk (h : Nat) : Bool := decide (1 ≤ h) && decide (h ≤ 16)
/-- A noise source: 0 LNS, 1 JNS. -/
def sourceNoOk (i : Nat) : Bool := decide (i < 2)
/-- A bank of the shared SRAM and a row of it. -/
def bankNoOk (b : Nat) : Bool := decide (b < 64)
def rowNoOk (r : Nat) : Bool := decide (r < 8192)
/-- A word of the shared SRAM, by its byte address (R395). -/
def sramOk (a : Nat) : Bool := decide (a < 2 ^ 27)
/-- A naturally aligned address and length of an access (R405). -/
def alignedOk (a n : Nat) : Bool := [1, 2, 4, 8, 16, 32, 64].contains n && decide (a % n = 0) && sramOk a
/-- An access to the shared SRAM (R396, R405). -/
def sramAccessOk (x : SramAccess) : Bool :=
  decide (x.port < 4) && alignedOk x.addr x.len && (match x.core with | some c => decide (c < 288) | none => true) &&
    (match x.store with | some b => b.length == x.len | none => true)
/-- A store of a core. -/
def storeOk (e : Nat × List Byte) : Bool := alignedOk e.1 e.2.length
/-- A flit carries 1 to 64 data bytes (R410). -/
def flitOk (f : Flit) : Bool := decide (1 ≤ f.data.length) && decide (f.data.length ≤ 64)
/-- A retry of a flit is a flit for the same destination under the same tag (R412). -/
def retryOk (f r : Flit) : Bool := flitOk r && r.addr == f.addr && r.tag == f.tag
/-- A unit of a die: kind 1 core, 2 BNL engine, 3 pipeline, 4 digest engine, and its instance (R19). -/
def unitOk (kind inst : Nat) : Bool :=
  match kind with
  | 1 => coreNoOk inst
  | 2 => engineNoOk inst
  | 3 => pipeNoOk inst
  | 4 => decide (inst < 16)
  | _ => false
/-- A unit that self-test tests (Table 6 of the switchover chapter): kind 5 a bank of the SRAM with the row that the march ends on
(bank + 64 × row), kind 7 with instance 2 the conditioner and the DRBG block. -/
def testOk (kind inst : Nat) : Bool :=
  match kind with
  | 5 => decide (inst < 64 * 8192)
  | 7 => inst == 2
  | _ => unitOk kind inst
/-- A register of the Levee configuration: LEV_CTL, or one LEV_HAZ word (R466). -/
def levOk (inst off : Nat) : Bool := (inst == 0 && off == 0x128) || (inst == 1 && off % 8 == 0 && decide (0x108 ≤ off) && decide (off < 0x188))
/-- A generation (R246). -/
def genOk (g : Nat) : Bool := decide (g < 2 ^ 32)
/-- A hardware semaphore (R84). -/
def semNoOk (n : Nat) : Bool := decide (n < 32)
/-- A function of a port, and an MSI-X vector of it (R59). -/
def fnNoOk (f : Nat) : Bool := decide (f < 2)
def vectorNoOk (f v : Nat) : Bool := decide (v < (if f = 0 then 128 else 1920))
/-- A number of so many bits. -/
def wordOk (bits n : Nat) : Bool := decide (n < 2 ^ bits)
/-- A link speed and width (R59). -/
def speedOk (v : Nat) : Bool := decide (1 ≤ v) && decide (v ≤ 5)
def widthOk (w : Nat) : Bool := [1, 2, 4, 8].contains w

/-- Bytes of an address space (R49, R54, R59). -/
def barBytes : Bar → Nat
  | .bar0 => 0x4000000
  | .bar2 => 0x400000
  | .pf0Bar4 | .pf1Bar4 => 0x10000
  | .pf0Config | .pf1Config => 0x1000

/-- An access lies in its address space. Its size and its alignment may be any that a host can make (R41). -/
def accessOk (bar : Bar) (a : HostAccess) : Bool := decide (a.addr < barBytes bar) && [1, 2, 4, 8].contains a.size

/-- The other port's access of the same cycle. -/
def alsoOk (bar : Bar) (a : Option HostAccess) : Bool :=
  match a with
  | some b => accessOk bar b
  | none => true

/-- A page of BAR0 or of BAR2. -/
def pageOk (bar : Bar) (page : Nat) : Bool :=
  (bar == .bar0 || bar == .bar2) && decide (page < barBytes bar) && page % 0x1000 == 0

/-- An error of the same cycle: its fields fit the capture registers (R47). -/
def errOk (e : Option ErrIn) : Bool :=
  match e with
  | some x => wordOk 16 x.cause && wordOk 4 x.source && wordOk 64 x.addr && wordOk 32 x.tag &&
      (match x.slice with | some n => sliceNoOk n | none => true)
  | none => true

/-- What the host answers at parsing for one step. -/
def readOk (r : HostRead) : Bool :=
  match r.list with
  | some l => l.length % 16 == 0
  | none => true

/-- A fuse reading names a word of the array (R477). -/
def fuseReadOk (r : FuseRead) : Bool := decide (r.word < 512)

/-- A start report names detectors, fuse words, SRAM rows and MRAM sectors that exist. -/
def reportOk (r : StartReport) : Bool :=
  r.detectors.all (fun e => decide (e.1 < 11)) && r.fuses.all (fun x => fuseReadOk x) &&
    r.rows.all (fun e => decide (e.1 < 128) && rowNoOk e.2) && r.sectors.all (fun e => decide (e.1 < 2) && decide (e.2 < 2 ^ 20))

/-- A command is well-formed. -/
def Instr.wf (i : Instr) : Bool :=
  match i with
  | .registerWrite _ bar addr size data also => accessOk bar ⟨true, addr, size, data⟩ && alsoOk bar also
  | .rcFieldRead _ bar addr size also => accessOk bar ⟨false, addr, size, 0⟩ && alsoOk bar also
  | .pgIrqStatClear _ bar page _ _ => pageOk bar page
  | .pgIrqEnWrite _ bar page _ => pageOk bar page
  | .pgIrqForceWrite _ bar page _ => pageOk bar page
  | .errRearm _ bar page _ sameCycle => pageOk bar page && errOk sameCycle
  | .aliasAccessHeld _ acc => accessOk .bar0 acc
  | .forwardedAccessTimeout _ acc => accessOk .bar0 acc
  | .sliceDrain _ slice _ => sliceNoOk slice
  | .sliceSquash _ slice _ => sliceNoOk slice
  | .sliceHoldWrite _ slice _ => sliceNoOk slice
  | .sliceResetEnd slice => sliceNoOk slice
  | .ringEnable _ slice pair _ => sliceNoOk slice && pairNoOk pair
  | .ringDisable _ slice pair _ => sliceNoOk slice && pairNoOk pair
  | .ringHomeWrite _ slice pair _ => sliceNoOk slice && pairNoOk pair
  | .ringConfigWrite _ slice pair reg _ => sliceNoOk slice && pairNoOk pair && [0x00, 0x08, 0x10, 0x18].contains reg
  | .sqDoorbell _ slice pair _ => sliceNoOk slice && pairNoOk pair
  | .cqDoorbell _ slice pair _ => sliceNoOk slice && pairNoOk pair
  | .portEvacuateWrite _ _ _ => true
  | .ptxSliceResetDrain _ _ _ => true
  | .ptxSliceResetSquash _ _ _ => true
  | .portLinkDown _ => true
  | .portLinkUp _ speed width => speedOk speed && widthOk width
  | .flrPf1 _ => true
  | .flrPf0 _ => true
  | .semTake _ n => semNoOk n
  | .semRelease _ n => semNoOk n
  | .semRenew _ n => semNoOk n
  | .semLeaseExpiry n => semNoOk n
  | .wardenSemTake => true
  | .descriptorFetch slice pair descs => sliceNoOk slice && pairNoOk pair && decide (descs.length ≤ 8)
  | .descriptorParse slice pair reads => sliceNoOk slice && pairNoOk pair && decide (reads.length ≤ 8) && reads.all (fun r => readOk r)
  | .descriptorReadError slice pair => sliceNoOk slice && pairNoOk pair
  | .admissionDecision => true
  | .bucketCredit => true
  | .coreHandover => true
  | .inputSegmentReadDone k _ => stepKeyOk k
  | .keyCacheEntryFreed k => stepKeyOk k
  | .boundaryEnd k => stepKeyOk k
  | .execLimitExpiry k => stepKeyOk k
  | .stepReady k => stepKeyOk k
  | .eddyConfirm k => stepKeyOk k
  | .eddyScrubDone core entry => coreNoOk core && entryNoOk entry
  | .admitAckReceived _ => true
  | .commitAckReceived _ => true
  | .completionBatchWrite slice pair => sliceNoOk slice && pairNoOk pair
  | .coalesceTimerExpiry slice pair => sliceNoOk slice && pairNoOk pair
  | .bnlJobStart engine => engineNoOk engine
  | .bnlJobDone engine _ => engineNoOk engine
  | .stepYield k => stepKeyOk k
  | .stepResume k => stepKeyOk k
  | .dataPassAccept pipe => pipeNoOk pipe
  | .dataPassDone pipe _ => pipeNoOk pipe
  | .dataPassAbandon k => stepKeyOk k
  | .dataPassPortLoss pipe => pipeNoOk pipe
  | .sealJob pipe => pipeNoOk pipe
  | .btcSweep => true
  | .streamIdleClose stream => streamNoOk stream
  | .keyTxnFramesWritten mark => markNoOk mark
  | .keyTxnFlip mark => markNoOk mark
  | .keyTxnLogWritten mark => markNoOk mark
  | .keyCutover slot => slotNoOk slot
  | .resetExpiryErase slot => slotNoOk slot
  | .shadowHoming slot => slotNoOk slot
  | .withdrawalEnd slot => slotNoOk slot
  | .oldMaterialZeroise slot gen => slotNoOk slot && genOk gen
  | .frameTagFail slot _ => slotNoOk slot
  | .frameRepairReply slot _ => slotNoOk slot
  | .nop k => stepKeyOk k
  | .pinTranslate k => stepKeyOk k
  | .pinVerifyOffset k => stepKeyOk k
  | .pinVerifyValue k => stepKeyOk k
  | .pinGenerate k => stepKeyOk k
  | .pinOffsetDerive k => stepKeyOk k
  | .pinScreen k => stepKeyOk k
  | .pinChangeScript k => stepKeyOk k
  | .pinValueDerive k => stepKeyOk k
  | .arqcVerify k => stepKeyOk k
  | .arpcGenerate k => stepKeyOk k
  | .arqcVerifyArpc k => stepKeyOk k
  | .scriptMac k => stepKeyOk k
  | .scriptEncrypt k => stepKeyOk k
  | .cvcGenerate k => stepKeyOk k
  | .cvcVerify k => stepKeyOk k
  | .dcvcGenerate k => stepKeyOk k
  | .dcvcVerify k => stepKeyOk k
  | .dukptPinTranslate k => stepKeyOk k
  | .dukptMacVerify k => stepKeyOk k
  | .dukptDecryptData k => stepKeyOk k
  | .dukptInitialKey k => stepKeyOk k
  | .macGenerate k => stepKeyOk k
  | .macVerify k => stepKeyOk k
  | .hmacGenerate k => stepKeyOk k
  | .hmacVerify k => stepKeyOk k
  | .tokenEncode k => stepKeyOk k
  | .tokenDecode k => stepKeyOk k
  | .bulkOpen k => stepKeyOk k
  | .bulkSegment k => stepKeyOk k
  | .bulkClose k => stepKeyOk k
  | .bulkTk7 k => stepKeyOk k
  | .keyGenerate k => stepKeyOk k
  | .keyImportBlock k => stepKeyOk k
  | .keyExportBlock k => stepKeyOk k
  | .keyRewrite k => stepKeyOk k
  | .keyErase k => stepKeyOk k
  | .keyReadAttr k => stepKeyOk k
  | .keyActivateAt k => stepKeyOk k
  | .keyCheckValue k => stepKeyOk k
  | .keyTxnQuery k => stepKeyOk k
  | .keyBlockVerify k => stepKeyOk k
  | .pkSign k => stepKeyOk k
  | .pkVerify k => stepKeyOk k
  | .pkDecrypt k => stepKeyOk k
  | .pkEncrypt k => stepKeyOk k
  | .keyPairGenerate k => stepKeyOk k
  | .ecdhDerive k => stepKeyOk k
  | .kemEncaps k => stepKeyOk k
  | .kemDecaps k => stepKeyOk k
  | .tr34Import k => stepKeyOk k
  | .tr34Export k => stepKeyOk k
  | .transportHybridSeal k => stepKeyOk k
  | .transportHybridOpen k => stepKeyOk k
  | .attestKey k => stepKeyOk k
  | .attestModule k => stepKeyOk k
  | .digestBlocks k => stepKeyOk k
  | .randomGet k => stepKeyOk k
  | .measureExtend k => stepKeyOk k
  | .measureRead k => stepKeyOk k
  | .btcInval k => stepKeyOk k
  | .ceremonyOpen k => stepKeyOk k
  | .ceremonyApprove k => stepKeyOk k
  | .componentEnter k => stepKeyOk k
  | .ceremonyClose k => stepKeyOk k
  | .ceremonyCancel k => stepKeyOk k
  | .ceremonyStatus k => stepKeyOk k
  | .replayRun k => stepKeyOk k
  | .replayStatus k => stepKeyOk k
  | .takeOwnership k => stepKeyOk k
  | .restore k => stepKeyOk k
  | .backup k => stepKeyOk k
  | .rosterChange k => stepKeyOk k
  | .sliceCreate k => stepKeyOk k
  | .sliceDelete k => stepKeyOk k
  | .sliceRebind k => stepKeyOk k
  | .policyGrant k => stepKeyOk k
  | .componentEntry k => stepKeyOk k
  | .objectEntry k => stepKeyOk k
  | .firmwareActivate k => stepKeyOk k
  | .lifecycleChange k => stepKeyOk k
  | .rawSampling k => stepKeyOk k
  | .replay k => stepKeyOk k
  | .ceremonyExpiry ceremony => wordOk 32 ceremony
  | .cardSessionApprove _ port ceremony => cardNoOk port && wordOk 32 ceremony
  | .cardSessionComponent _ port ceremony => cardNoOk port && wordOk 32 ceremony
  | .cardSessionPutShare _ port ceremony => cardNoOk port && wordOk 32 ceremony
  | .cardSessionGetShare _ port ceremony => cardNoOk port && wordOk 32 ceremony
  | .cardSessionDone port cause _ _ _ => cardNoOk port && decide (cause < 16)
  | .cardSessionTimeout port => cardNoOk port
  | .cardResultExpiry port => cardNoOk port
  | .cardInserted port => cardNoOk port
  | .cardRemoved port => cardNoOk port
  | .admitRecordApply => true
  | .frameRecordApply => true
  | .commitRecordApply => true
  | .deliveredRecordApply => true
  | .journalRecordApply => true
  | .catchupRecordApply => true
  | .mirrorResend _ => true
  | .mirrorHalfDown half _ => halfNoOk half
  | .mirrorCreditRequest _ _ => true
  | .heartbeat _ half _ count state => halfNoOk half && decide (count < 256) && decide (state < 4)
  | .heartbeatSlotMiss _ half _ => halfNoOk half
  | .dieFatalDeclared _ => true
  | .switchoverDeclare => true
  | .gapEnd _ => true
  | .swoPlanned _ => true
  | .plannedMarker _ => true
  | .swoForce _ => true
  | .swoRejoin _ => true
  | .testChannelCheck _ _ _ _ => true
  | .dieStart _ _ _ => true
  | .ntRefCheck _ => true
  | .ppsEdge _ => true
  | .ntuNextPulse _ _ => true
  | .ntuDistrust _ _ => true
  | .trustTimerExpiry cause => decide (1 ≤ cause) && decide (cause ≤ 8)
  | .ntFloorWrite => true
  | .hazardReport hazard _ _ _ _ => hazardNoOk hazard
  | .detectorFault pair => decide (pair < 11)
  | .pairDegraded hazard _ => hazardNoOk hazard
  | .detectorSelftest failed => failed.all (fun e => decide (e.1 < 11))
  | .hazardResponse => true
  | .throttleEnd => true
  | .brownOut => true
  | .leveeConfigWrite _ inst off _ => levOk inst off
  | .aoFlagClear hazard => hazardNoOk hazard
  | .noiseBlockFail _ source _ _ => sourceNoOk source
  | .sourceRestartExpiry _ source => sourceNoOk source
  | .sourceStartupDone _ source => sourceNoOk source
  | .seedConditioned _ blocks => blocks.all (fun b => b.length == 128)
  | .seedWaitTimeout k => stepKeyOk k
  | .rngDieCtlWrite _ _ _ => true
  | .rngRawDataRead _ _ => true
  | .rawSamplingEnd _ => true
  | .sramUncorrectable _ addr _ _ => decide (addr < 0x8000480)
  | .sramPatrolForced _ bank accesses => decide (bank < 64) && accesses.all (fun a => sramAccessOk a)
  | .rowReplace _ bank row => bankNoOk bank && rowNoOk row
  | .poolUncorrectable _ addr => sramOk addr
  | .mpuPreciseTrap k _ addr _ => stepKeyOk k && wordOk 32 addr
  | .mpuBufferedStoreRefused k stores => stepKeyOk k && stores.all (fun e => storeOk e)
  | .integrityMismatch _ flit retry => flitOk flit && retryOk flit retry
  | .integritySecondMismatch _ flit kind _ _ => flitOk flit && decide (kind ≤ 6)
  | .polQread0Read _ _ => true
  | .polFlush _ _ => true
  | .unitSelftest _ kind inst _ _ => testOk kind inst
  | .unitFailed _ kind inst => unitOk kind inst
  | .spareSubstituted _ kind => decide (1 ≤ kind) && decide (kind ≤ 4)
  | .governorSample _ _ _ _ => true
  | .governorStepRemoval => true
  | .vinArrival => true
  | .vinLoss => true
  | .powerDownDone => true
  | .vauxLoss => true
  | .vauxReturn => true
  | .alwaysOnPowerLost => true
  | .coldStart report => reportOk report
  | .warmStart report => reportOk report
  | .quiesceEnd => true
  | .startFailed _ => true
  | .wdnWarm _ => true
  | .wdnRecover _ _ _ => true
  | .wdnConfirm _ => true
  | .confirmWindowExpiry => true
  | .trialBootFailed => true
  | .antiRollbackBurn _ => true
  | .fwuDlOpen _ _ _ => true
  | .fwuDlData _ _ _ => true
  | .fwuDlClose _ _ => true
  | .fwuDlVerify _ _ => true
  | .fwuVerifyDone _ => true
  | .lccAuthReset _ => true
  | .lccAuthData _ _ => true
  | .lccTokenWrite _ n _ => decide (n < 4)
  | .lccTransition _ _ => true
  | .lccCheckDone _ _ => true
  | .transitionPhase _ _ => true
  | .fusPolicyBurn _ _ => true
  | .fuseTempSense _ _ reads => reads.all (fun r => fuseReadOk r)
  | .fuseSpareRewrite _ _ => true
  | .journalEvent code severity source slice detail => wordOk 16 code && decide (severity < 4) && decide (source < 8) && (match slice with | some n => sliceNoOk n | none => true) && decide (detail.length ≤ 28)
  | .journalWriteDone => true
  | .epochClose => true
  | .temperatureSecond _ _ _ _ => true
  | .replaySessionEnd => true
  | .batteryLow _ => true
  | .rawSamplesCaptured _ blocks => blocks.all (fun b => b.length == 128)
  | .patrolPass _ fixes => fixes.all (fun e => sramOk e.1)
  | .msiXVectorUnmask _ fn vector => fnNoOk fn && vectorNoOk fn vector

end Sys2Proof
end

