-- ==== Sys2Proof/Safety.lean ====
section
/-!
DEFINITION. The terms that claims use: what it means that a step completes, the parts of the state, and that a command
leaves parts of the state as they were. A part that is a sparse table is compared through its reads, so that two tables
that read alike are the same part.
-/
namespace Sys2Proof.Safety

open Sys2Proof.Machine

/-- A step that answers a next state. -/
def Completes (o : Host.Outcome State Fault Refusal) : Prop := ∃ t, o = .next t

/-- Two stores of an MRAM die read alike: frames, directory words, transaction logs, journal, capture area, slots, rosters,
spare-sector map. -/
def sameStore (m n : Mram) : Prop :=
  (∀ a, sget (fun _ => {}) n.home a = sget (fun _ => {}) m.home a) ∧
  (∀ a, sget (fun _ => {}) n.shadow a = sget (fun _ => {}) m.shadow a) ∧
  (∀ a, sget (fun _ => {}) n.dirs a = sget (fun _ => {}) m.dirs a) ∧
  (∀ a, sget (fun _ => {}) n.logs a = sget (fun _ => {}) m.logs a) ∧
  (∀ a, mget n.journal a = mget m.journal a) ∧
  (∀ a, mget n.capture a = mget m.capture a) ∧
  (∀ a, sget (fun _ => {}) n.rosters a = sget (fun _ => {}) m.rosters a) ∧
  n.sectors = m.sectors ∧ n.expiry = m.expiry ∧ n.captured = m.captured ∧ n.slotA = m.slotA ∧ n.slotB = m.slotB

/-- Two life-cycle controllers agree: every fuse word, and everything else they hold. -/
def sameLife (a b : LifeCtl) : Prop :=
  (∀ w, sget (fun _ => {}) b.fuses w = sget (fun _ => {}) a.fuses w) ∧ { b with fuses := [] } = { a with fuses := [] }

/-- The parts of the state. -/
inductive Part
  /-- Stored registers of all pages. -/
  | regs
  /-- The two ports with their MSI-X tables. -/
  | ports
  /-- Semaphores, the tie bit and the waiting warden. -/
  | sems
  /-- Slice records, with what slice 0 has set aside in bootstrap form. -/
  | slices
  /-- Ring pairs. -/
  | rings
  /-- Network time. -/
  | time
  /-- What each compute die holds of its own: service, units, applied commits. -/
  | dies
  /-- The arbiter, the mirror link and the ownership token. -/
  | switch
  /-- The two MRAM dies: key store, logs, journal, capture area, firmware slots. -/
  | stores
  /-- The vault. -/
  | vault
  /-- The Confluence: admitted and refused steps, ready lists, contexts, counters, trace and notification queues. -/
  | confluence
  /-- Cores with their Eddies, and the MPU rules. -/
  | cores
  /-- The key-store controller. -/
  | keyStore
  /-- BNL engines, pipelines, cipher lanes and data passes. -/
  | engines
  /-- Bulk streams and the buffer-table cache. -/
  | streams
  /-- Noise sources, seeds and DRBG instances. -/
  | random
  /-- Owners of the measurement registers. -/
  | measures
  /-- SRAM banks. -/
  | banks
  /-- Words of the shared SRAM of each die. -/
  | sram
  /-- Supplies, temperatures and the governor. -/
  | supply
  /-- Levee. -/
  | levee
  /-- The life-cycle controller and the fuses. -/
  | life
  /-- Ceremonies and rosters. -/
  | ceremonies
  /-- Card ports. -/
  | cards
  /-- Starts and firmware activation. -/
  | starts
  /-- Gauge: the journal's staging, totals and the replay session. -/
  | gauge
  /-- What has left the module for the hosts. -/
  | out
  /-- The model's counter of free values. -/
  | free
deriving DecidableEq, Repr

/-- A part is the same in two states. -/
def Part.same (p : Part) (s t : State) : Prop :=
  match p with
  | .regs => ∀ a, rd t a = rd s a
  | .ports => t.portA = s.portA ∧ t.portB = s.portB
  | .sems => (∀ n, semOf t n = semOf s n) ∧ t.tieB = s.tieB ∧ t.wardenWaiting = s.wardenWaiting
  | .slices => (∀ n, sliceOf t n = sliceOf s n) ∧ t.zeroConf = s.zeroConf
  | .rings => ∀ n i, ringOf t n i = ringOf s n i
  | .time => t.nt = s.nt
  | .dies => t.die0 = s.die0 ∧ t.die1 = s.die1
  | .switch => t.sw = s.sw
  | .stores => sameStore s.mram0 t.mram0 ∧ sameStore s.mram1 t.mram1
  | .vault => t.vault = s.vault
  | .confluence => t.conf = s.conf
  | .cores => t.cores = s.cores ∧ t.rules = s.rules
  | .keyStore => t.kst = s.kst
  | .engines => t.engines = s.engines ∧ t.pipes = s.pipes ∧ t.lanes = s.lanes ∧ t.passes = s.passes
  | .streams => t.streams = s.streams ∧ t.streamSeq = s.streamSeq ∧ t.btc = s.btc ∧ t.btcClock = s.btcClock
  | .random => t.rng0 = s.rng0 ∧ t.rng1 = s.rng1 ∧ t.drbg = s.drbg
  | .measures => t.measOwner = s.measOwner
  | .banks => t.banks = s.banks
  | .sram => (∀ w, sget (fun _ => 0) t.sram0 w = sget (fun _ => 0) s.sram0 w) ∧
      ∀ w, sget (fun _ => 0) t.sram1 w = sget (fun _ => 0) s.sram1 w
  | .supply => t.supply = s.supply
  | .levee => t.lev = s.lev
  | .life => sameLife s.life t.life
  | .ceremonies => t.cer = s.cer ∧ ∀ n, sget (fun _ => {}) t.rosters n = sget (fun _ => {}) s.rosters n
  | .cards => t.card0 = s.card0 ∧ t.card1 = s.card1
  | .starts => t.starts = s.starts
  | .gauge => t.gauge = s.gauge
  | .out => t.out = s.out
  | .free => t.freeCount = s.freeCount

/-- Every part is the same but those listed. -/
def Unchanged (but : List Part) (s t : State) : Prop := ∀ p, p ∉ but → p.same s t

/-- A command completes: it answers a next state that meets `P`, and changes no part but those listed. -/
def Gives (c : Instr) (s : State) (but : List Part) (P : State → Prop) : Prop :=
  ∃ t, exec c s = .next t ∧ Unchanged but s t ∧ P t

/-- A command completes and what it does makes further work due, which the module then does: the command's own effect is a
state `m` that meets `P` and differs from `s` in the listed parts alone, and the answer reads in every part as `after m`. -/
def GivesThen (c : Instr) (s : State) (after : State → State) (but : List Part) (P : State → Prop) : Prop :=
  ∃ m t, exec c s = .next t ∧ Unchanged but s m ∧ P m ∧ Unchanged [] (after m) t

/-- Every admitted step but one is as it was. -/
def StepsBut (k : Nat) (s t : State) : Prop := ∀ j, j ≠ k → stepOf t j = stepOf s j

/-- The result of a step's function as its cipher lane leaves it: ST_LENGTH where the function needs an operation beyond the
lane's limits (R366). -/
def LaneResult (i : FnIn) (x : Result) : Result :=
  if (laneAccept [] (laneOps i x)).2 && x.status != stRngUnavailable then fails stLength else x

/-- What a function's result leaves in its step and the module (R103, R113, R115, R366, R388): the result as the cipher lane
leaves it, with its core cycles (those of the opcode and those that the function and its wait for a seed add), its draws and
the positions whose uses its commit will spend, a job for an engine where it needs one, and the counters of the random bits.
Nothing is committed: other steps, marks, the cache and the commit sequence stand as they were. -/
def Ran (k : Nat) (t : Step) (x : Result) (r : Rnd) (drawn : List Bytes) (s u : State) : Prop :=
  let i := fnInOf s t
  let y := LaneResult i x
  StepsBut k s u ∧
  stepOf u k = some { t with
    result := some { y with cycles := stepCycles (dOp t.desc) t.desc t.input.length i.keys + (x.cycles + seedCycles s t)
                            drawn := drawn, spends := spentPositions t y.status }
    seedWait := none, job := if usesBnl (dOp t.desc) y.status then .queued else .none } ∧
  u.vault = { s.vault with instCount := r.count } ∧ (rngOf u (curDie s)).seeds = r.seeds ∧
  u.kst.marks = s.kst.marks ∧ u.kst.cache = s.kst.cache ∧ u.conf.commitSeq = s.conf.commitSeq

/-- Parts in which the run of a function leaves something. -/
def runParts : List Part := [.confluence, .regs, .engines, .dies, .random, .vault, .keyStore, .free, .ports, .out]

/-- The row of an opcode whose function draws no random bits, on a step that may run it: the result is the function's of the
step's key records and input. -/
def RunsPure (c : Nat → Instr) (op : Nat) (f : OpFn) (s : State) (k : Nat) (t : Step) : Prop :=
  mayRun t op = true →
    let r := rndOf s (instanceOf t)
    Gives (c k) s runParts (Ran k t (f s t (fnInOf s t) r).1 r [] s)

/-- The row of an opcode whose function may draw, on a step that may run it: the result is the function's of the step's key
records, input and draws, and a draw that finds no seed leaves the step waiting for one, with nothing drawn (R390). -/
def RunsOp (c : Nat → Instr) (op : Nat) (f : OpFn) (s : State) (k : Nat) (t : Step) : Prop :=
  mayRun t op = true →
    let x := f s t (fnInOf s t) (rndOf s (instanceOf t))
    (x.2.dry = false → Gives (c k) s runParts (Ran k t x.1 x.2 x.2.drawn s)) ∧
    (x.2.dry = true → Gives (c k) s [.confluence] (fun u => StepsBut k s u ∧
      stepOf u k = some { t with seedWait := some (t.seedWait.getD s.nt.ns) }))

/-- The row of a ceremony's action that draws no random bits, on a close whose ceremony `c` is in APPLYING for it. -/
def ClosesPure (row : Nat → Instr) (action : Nat) (f : CloseFn) (s : State) (k : Nat) (t : Step) (c : Ceremony) : Prop :=
  c.action = action →
    let r := rndOf s 1024
    Gives (row k) s runParts (Ran k t (f s t (leAt t.desc 64 4) c r).1 r [] s)

/-- The row of a ceremony's action that may draw, on a close whose ceremony `c` is in APPLYING for it. -/
def ClosesOp (row : Nat → Instr) (action : Nat) (f : CloseFn) (s : State) (k : Nat) (t : Step) (c : Ceremony) : Prop :=
  c.action = action →
    let x := f s t (leAt t.desc 64 4) c (rndOf s 1024)
    (x.2.dry = false → Gives (row k) s runParts (Ran k t x.1 x.2 [] s)) ∧
    (x.2.dry = true → Gives (row k) s [.confluence] (fun u => StepsBut k s u ∧
      stepOf u k = some { t with seedWait := some (t.seedWait.getD s.nt.ns) }))

/-- Every register but those at the listed addresses reads as it did. -/
def RegsBut (l : List Nat) (s t : State) : Prop := ∀ a, a ∉ l → rd t a = rd s a

/-- Every slice but one is as it was. -/
def SlicesBut (n : Nat) (s t : State) : Prop := ∀ m, m ≠ n → sliceOf t m = sliceOf s m

/-- Every ring pair but one is as it was. -/
def RingsBut (n p : Nat) (s t : State) : Prop := ∀ m q, ringKey m q ≠ ringKey n p → ringOf t m q = ringOf s m q

/-- A port's writes reach the page of a slice (R54, R55, R82, R464, R493). -/
def SlicePageOpen (s : State) (x : Port) (n : Nat) : Prop :=
  fnUp (portOf s x) 1 = true ∧ heldOf s x < 64 ∧ (portOf s x).flr = false ∧ s.lev.halted = false ∧
    s.vault.recovery = false ∧ n < 1024 ∧ (sliceOf s n).mode ≠ .absent ∧ boundTo (sliceOf s n) x = true

/-- A party's writes reach the base-die pages: its accesses arrive, and neither tamper-halt nor recovery mode bars them. -/
def BaseOpen (s : State) (who : Party) : Prop :=
  arrives s who = true ∧ s.lev.halted = false ∧ s.vault.recovery = false

/-- As `BaseOpen`, for a party that holds semaphore 0 (R56). -/
def GuardedOpen (s : State) (who : Party) : Prop := BaseOpen s who ∧ (semOf s 0).holder = some who

/-- A start after its steps 1 and 2 (R486): reset, and the self-test of Levee. -/
def startedTo2 (kind : Nat) (r : StartReport) (s : State) : State :=
  let s := reach (startReset kind s) (s.nt.ns + r.ms * 1000000)
  startSelftest r.detectors { s with starts := { s.starts with elapsedMs := r.ms } }

/-- A start after its steps 1 to 6 and its scan of the MRAM dies (R486): fuses, vault, release and memories. -/
def startedTo8 (kind : Nat) (r : StartReport) (s : State) : State :=
  startScan r (startMemory r (startRelease (startVault r (startFuses r (startedTo2 kind r s)))))

/-- The dies that a start boots: those that pass their checks and find a bootable slot (R493 to R495). -/
def startDies (kind : Nat) (r : StartReport) (s : State) : List Die :=
  ((if r.die0 then [Die.d0] else []) ++ (if r.die1 then [Die.d1] else [])).filter (fun d => (bootChoice (startedTo8 kind r s) d).isSome)

/-- Why a start outside recovery mode fails, with the cause that WDN_START shows (Table 2 of the start chapter). -/
def startFails (kind : Nat) (r : StartReport) (s : State) : Option Nat :=
  if !r.lockstep then some 6
  else if identityLost (startedTo8 kind r s) then some 3
  else if !r.die0 && !r.die1 then some 4
  else if (startDies kind r s).isEmpty then some 1
  else if (if kind = 0 then 18000 else 2400) < r.ms then some 5
  else none

/-- What is stored is in canonical form, and every waiting command is well-formed. -/
def StateInv (s : State) : Prop := s.wf = true ∧ ∀ c ∈ s.pending, c.wf = true

end Sys2Proof.Safety
end

