-- ==== Sys2Proof/Certificates/Slice0/Obligations.lean ====
section
/-!
DEFINITION. The statements to be proved about the module.
-/

open Sys2Proof Sys2Proof.Machine Sys2Proof.Safety

/-! ### The queue and the whole machine -/

/-- A step takes the command at the front of the queue and runs it on the state with the queue's rest. -/
def Obligations.StepRunsFrontCommand : Prop :=
  ∀ (c : Instr) (q : List Instr) (s : State), step { s with pending := c :: q } = exec c { s with pending := q }

/-- With an empty queue a step is one 40 ns cycle of the time reference: network time advances, by 40 ns where no slew runs,
and nothing else changes (the model's choice, log entry 3). -/
def Obligations.IdleStepAdvancesTime : Prop :=
  ∀ s : State, s.pending = [] → ∃ t, step s = .next t ∧ t.pending = [] ∧ Unchanged [.time] s t ∧
    t.nt.trust = s.nt.trust ∧ (s.nt.slewLeft = 0 → t.nt.ns = s.nt.ns + 40) ∧ t.nt.ns + s.nt.slewLeft.natAbs ≥ s.nt.ns + 40 ∧
    t.nt.ns ≤ s.nt.ns + 40 + s.nt.slewLeft.natAbs

/-- Every command answers a next state, in canonical form, and leaves the queue of waiting commands as it stood. -/
def Obligations.CommandsKeepTheQueue : Prop :=
  ∀ (c : Instr) (s : State), ∃ t, exec c s = .next t ∧ t.pending = s.pending ∧ t.wf = true

/-- Every step from a state that meets the invariant answers a next state, and that state meets it. -/
def Obligations.StepKeepsInvariant : Prop :=
  ∀ s : State, StateInv s → ∃ t, step s = .next t ∧ StateInv t

/-- The state after reset meets the invariant. -/
def Obligations.ResetMeetsInvariant : Prop :=
  StateInv State.reset

/-- A run of as many steps as a prefix of the queue has commands is the run of those commands in their order, and the rest
still waits. -/
def Obligations.CommandsRunInOrder : Prop :=
  ∀ (l r : List Instr) (s : State), s.pending = l ++ r →
    ∃ t, Host.Core.run Sys2Proof.core l.length s = .next t ∧ t.pending = r ∧
      l.foldl (fun a c => match a with | .next u => exec c u | o => o) (.next { s with pending := r }) = (.next t : Answer)

/-- Reset values of the tables of registers (R42), and the module before its first start (R425, R485). -/
def Obligations.ResetValues : Prop :=
  let reads := fun (b : Block) (i die pg off : Nat) => readReg State.reset .warden ⟨b, i, die⟩ pg off
  reads .sem 0 0 pgSem 0x200 = 100000 ∧
  reads .ntu 0 0 pgNtu 0x130 = fld 32 32 1000 ∧
  reads .lev 0 0 (pgLev 0) 0x128 = (fld 0 2 1 ||| fld 8 16 1000 ||| fld 24 4 3) ∧
  reads .lev 1 0 (pgLev 1) 0x138 = (fld 0 2 2 ||| fld 2 7 3 ||| fld 16 20 1000) ∧
  reads .lev 1 0 (pgLev 1) 0x170 = (fld 0 2 2 ||| fld 2 7 8 ||| fld 16 20 10000) ∧
  reads .cfl 0 1 (pgCfl .d0 0) 0x140 = (fld 0 16 32768 ||| fld 16 16 32768 ||| fld 32 16 8192) ∧
  reads .pol 0 1 (pgPol .d0) 0x100 = (fld 0 19 262144 ||| fld 19 19 262144) ∧
  reads .pol 0 1 (pgPol .d0) 0x108 = 81920 ∧
  reads .fus 0 0 (pgFus 0) 0x108 = 256 ∧
  reads .gau 0 0 (pgGau 0) 0x108 = 3600 ∧
  getF (reads .hlt 0 1 (pgHlt .d0) 0x108) 0 46 = 32 + 4 * 2 ^ 6 + 2 ^ 9 + 1024 * 2 ^ 10 + 32768 * 2 ^ 21 + 256 * 2 ^ 37 ∧
  State.reset.nt.ns = State.reset.vault.ntFloor + 1000000000 ∧ State.reset.nt.trust = .untrusted ∧ activeDie State.reset = none ∧
  (∀ n : Nat, (sliceOf State.reset n).mode = .absent ∧ (semOf State.reset n).holder = none) ∧ State.reset.pending = [] ∧
  State.reset.starts.due = some 0 ∧ State.reset.lev.halted = false ∧ State.reset.vault.ownerRoot = none

/-! ### Registers -/

/-- Registers without behaviour of their own: the RW bits take the written value, and nothing else changes (R42). -/
def Obligations.PlainRegisterWrite : Prop :=
  ∀ (s : State) (who : Party) (data : Word), BaseOpen s who →
    (∀ x : Port, Gives (.registerWrite who .bar0 (pgPort x + 0x1100) 8 data none) s [.regs] (fun t =>
      rd t (pgPort x + 0x1100) = data &&& mask 0 10 ∧ RegsBut [pgPort x + 0x1100] s t)) ∧
    (∀ d : Die, (dieOf s d).inService = true → Gives (.registerWrite who .bar0 (pgPol d + 0x118) 8 data none) s [.regs] (fun t =>
      rd t (pgPol d + 0x118) = data &&& mask 0 5 ∧ RegsBut [pgPol d + 0x118] s t)) ∧
    (∀ d : Die, (dieOf s d).inService = true → (semOf s 0).holder = some who →
      Gives (.registerWrite who .bar0 (pgTrc d + 0x100) 8 data none) s [.regs] (fun t =>
        rd t (pgTrc d + 0x100) = data &&& mask 1 17 ∧ RegsBut [pgTrc d + 0x100] s t))

/-- R55. A page of a slice that does not exist, or is not bound to the port. -/
def Obligations.UnboundSliceAccess : Prop :=
  ∀ (s : State) (x : Port) (n off size : Nat) (data : Word),
    arrives s (partyOf x) 1 = true → (portOf s x).flr = false → n < 1024 → off < 0x1000 → sizeOk off size = true →
    ((sliceOf s n).mode = .absent ∨ boundTo (sliceOf s n) x = false) →
    let noted := fun t : State =>
      RegsBut [pgBas + oIrqStat, pgBas + oErr0, pgBas + oErr1, pgBas + oErr2, pgBas + oErr3] s t ∧
      (bitOf (rd s (pgBas + oErr0)) 16 = false →
        rd t (pgBas + oErr0) = fld 0 16 0x0003 ||| flag 16 true ||| fld 24 4 (portNo x) ||| fld 32 32 1 ∧
        rd t (pgBas + oErr1) = BitVec.ofNat 64 (n * 0x1000 + off) ∧
        rd t (pgBas + oErr2) = fld 0 32 0 ||| fld 32 10 n ||| flag 42 true) ∧
      (bitOf (rd s (pgBas + oErr0)) 16 = true →
        rd t (pgBas + oErr0) = bumpF (rd s (pgBas + oErr0)) 32 32 1 ||| flag 17 true ∧ RegsBut [pgBas + oErr0] s t)
    Gives (.registerWrite (partyOf x) .bar2 (n * 0x1000 + off) size data none) s [.regs, .ports, .out] noted ∧
    Gives (.rcFieldRead (partyOf x) .bar2 (n * 0x1000 + off) size none) s [.regs, .ports, .out] (fun t =>
      noted t ∧ t.out.getLast? = some (.readData (partyOf x) 0))

/-- A read of an RC field: PG_LOCK.rejected of a base-die page, by one party, and by both ports in one cycle (R42, R44). -/
def Obligations.RcFieldRead : Prop :=
  ∀ (s : State) (p : Page) (pg : Nat), pageAt pg = some p → pg < win0 → pg % 0x1000 = 0 → s.lev.halted = false →
    (∀ who, arrives s who = true → Gives (.rcFieldRead who .bar0 (pg + oLock) 8 none) s [.regs, .out] (fun t =>
      t.out = s.out ++ [.readData who (readReg s who p pg oLock)] ∧
      getF (readReg s who p pg oLock) 32 16 = getF (rd s (pg + oLock)) 32 16 ∧
      rd t (pg + oLock) = rd s (pg + oLock) &&& ~~~(mask 32 16) ∧ RegsBut [pg + oLock] s t)) ∧
    (∀ x : Port, arrives s .portA = true → arrives s .portB = true → s.tieB = (x == .b) →
      Gives (.rcFieldRead .portA .bar0 (pg + oLock) 8 (some ⟨false, pg + oLock, 8, 0⟩)) s [.regs, .out, .sems] (fun t =>
        t.out = s.out ++ [.readData (partyOf x) (readReg s (partyOf x) p pg oLock),
          .readData (partyOf (otherPort x)) (readReg s (partyOf (otherPort x)) p pg oLock &&& ~~~(mask 32 16))] ∧
        rd t (pg + oLock) = rd s (pg + oLock) &&& ~~~(mask 32 16) ∧ RegsBut [pg + oLock] s t ∧
        (∀ n, semOf t n = semOf s n) ∧ t.wardenWaiting = s.wardenWaiting ∧ t.tieB = !s.tieB))

/-- R57. No hypothesis names the holder of semaphore 0. -/
def Obligations.SemaphoreGuardsWritesOnly : Prop :=
  ∀ (s : State) (who : Party) (p : Page) (pg off a n : Nat) (data : Word) (r : RegSpec), pg % 0x1000 = 0 →
    (regSpec p off = some r → r.guarded = true → off < 0x1000 → off % 8 = 0 → arrives s who = true → s.lev.halted = false →
      route s (pg + off) = .at_ p a →
      Gives (.rcFieldRead who .bar0 (pg + off) 8 none) s [.out] (fun u => u.out = s.out ++ [.readData who (readReg s who p a off)])) ∧
    (regSpec p off = some r → r.w1c ≠ 0 → r.guarded = false) ∧
    (BaseOpen s who → route s (pg + oIrqStat) = .at_ p a →
      Gives (.pgIrqStatClear who .bar0 pg data 0) s [.regs, .ports, .out] (fun u =>
        rd u (a + oIrqStat) = rd s (a + oIrqStat) &&& ~~~(data &&& irqMask p))) ∧
    (regSpec ⟨.slc, n, 3⟩ off = some r → r.guarded = false)

/-- The three interrupt registers of a base-die page (R43, R45). `v` is the vector that PG_CTL names on port `x` alone, and `e`
its unmasked table entry. -/
def Obligations.PageInterruptWrites : Prop :=
  ∀ (s : State) (who : Party) (p : Page) (pg v : Nat) (x : Port) (e : MsixEntry) (data setNow : Word),
    BaseOpen s who → pageAt pg = some p → pg < win0 → pg % 0x1000 = 0 →
    getF (rd s (pg + oCtl)) 0 11 = v → bitOf (rd s (pg + oCtl)) 11 = (x == .a) → bitOf (rd s (pg + oCtl)) 12 = (x == .b) →
    v < 128 → sget (fun _ => {}) (portOf s x).msix (msixIx 0 v) = e → e.masked = false → fnUp (portOf s x) 0 = true →
    let stat := rd s (pg + oIrqStat)
    let en := rd s (pg + oIrqEn)
    let sends := fun (b : Bool) (t : State) => t.out = s.out ++ (if b then [.msix x 0 v e.addr e.data] else [])
    Gives (.pgIrqStatClear who .bar0 pg data setNow) s [.regs, .out] (fun t =>
      rd t (pg + oIrqStat) = (stat &&& ~~~(data &&& irqMask p)) ||| (setNow &&& irqMask p) ∧ RegsBut [pg + oIrqStat] s t ∧
      sends (((stat &&& ~~~(data &&& irqMask p)) ||| (setNow &&& irqMask p)) &&& en != 0) t) ∧
    ((semOf s 0).holder = some who →
      Gives (.pgIrqEnWrite who .bar0 pg data) s [.regs, .out] (fun t =>
        rd t (pg + oIrqEn) = data &&& irqMask p ∧ RegsBut [pg + oIrqEn] s t ∧
        sends (stat &&& en == 0 && stat &&& (data &&& irqMask p) != 0) t) ∧
      Gives (.pgIrqForceWrite who .bar0 pg data) s [.regs, .out] (fun t =>
        rd t (pg + oIrqStat) = stat ||| (data &&& irqMask p) ∧ RegsBut [pg + oIrqStat] s t ∧
        sends (stat &&& en == 0 && (stat ||| (data &&& irqMask p)) &&& en != 0) t))

/-- The first-error capture of a base-die page (R47, R48). -/
def Obligations.ErrorCaptureAndRearm : Prop :=
  ∀ (s : State) (who : Party) (p : Page) (pg : Nat) (data : Word) (e : ErrIn), BaseOpen s who → pageAt pg = some p → pg < win0 → pg % 0x1000 = 0 →
    ((semOf s 0).holder = some who → bitOf data 16 = true →
      Gives (.errRearm who .bar0 pg data none) s [.regs] (fun t =>
        rd t (pg + oCtl) = data &&& mask 0 13 ∧ rd t (pg + oErr0) = 0 ∧ rd t (pg + oErr1) = 0 ∧ rd t (pg + oErr2) = 0 ∧ rd t (pg + oErr3) = 0 ∧
        RegsBut [pg + oCtl, pg + oErr0, pg + oErr1, pg + oErr2, pg + oErr3] s t) ∧
      Gives (.errRearm who .bar0 pg data (some e)) s [.regs, .ports, .out] (fun t =>
        rd t (pg + oErr0) = fld 0 16 e.cause ||| flag 16 true ||| fld 24 4 e.source ||| fld 32 32 1 ∧
        rd t (pg + oErr1) = BitVec.ofNat 64 e.addr ∧ rd t (pg + oErr3) = BitVec.ofNat 64 s.nt.ns ∧
        rd t (pg + oIrqStat) = rd s (pg + oIrqStat) ||| 1 ∧ rd t (pg + oCtl) = data &&& mask 0 13 ∧
        RegsBut [pg + oCtl, pg + oIrqStat, pg + oErr0, pg + oErr1, pg + oErr2, pg + oErr3] s t)) ∧
    (bitOf (rd s (pg + oErr0)) 16 = true →
      Gives (.registerWrite who .bar0 (pg + 0x60) 8 data none) s [.regs] (fun t =>
        rd t (pg + oErr0) = bumpF (rd s (pg + oErr0)) 32 32 1 ||| flag 17 true ∧ RegsBut [pg + oErr0] s t)) ∧
    (bitOf (rd s (pg + oErr0)) 16 = false →
      Gives (.registerWrite who .bar0 (pg + 0x60) 8 data none) s [.regs, .ports, .out] (fun t =>
        rd t (pg + oErr0) = fld 0 16 0x0003 ||| flag 16 true ||| fld 24 4 (partySource who) ||| fld 32 32 1 ∧
        rd t (pg + oErr1) = BitVec.ofNat 64 (pg + 0x60) ∧ rd t (pg + oErr3) = BitVec.ofNat 64 s.nt.ns ∧
        RegsBut [pg + oIrqStat, pg + oErr0, pg + oErr1, pg + oErr2, pg + oErr3] s t))

/-- A guarded write by a party without semaphore 0 (R56). -/
def Obligations.GuardedWriteRejected : Prop :=
  ∀ (s : State) (who : Party) (p : Page) (pg : Nat) (data : Word) (c : Instr),
    BaseOpen s who → pageAt pg = some p → pg < win0 → pg % 0x1000 = 0 → (semOf s 0).holder ≠ some who →
    (c = .pgIrqEnWrite who .bar0 pg data ∨ c = .pgIrqForceWrite who .bar0 pg data ∨ c = .errRearm who .bar0 pg data none) →
    Gives c s [.regs, .ports, .out, .gauge, .switch] (fun t =>
      rd t (pg + oLock) = bumpF (rd s (pg + oLock)) 32 16 1 ∧
      (bitOf (rd s (pg + oErr0)) 16 = false → getF (rd t (pg + oErr0)) 0 16 = 0x0001 ∧ bitOf (rd t (pg + oErr0)) 16 = true) ∧
      RegsBut [pg + oLock, pg + oIrqStat, pg + oErr0, pg + oErr1, pg + oErr2, pg + oErr3, pgGau 0 + 0x110] s t)

/-- Accesses held in a gap (R51), the time-out of a forwarded access (R51), and a vector unmasked (R45). -/
def Obligations.AliasAndVectorCommands : Prop :=
  ∀ (s : State) (x : Port) (acc : HostAccess) (fn v : Nat) (e : MsixEntry),
    (s.sw.gap.isSome = true → fnUp (portOf s x) 0 = true → isAlias acc.addr = true → sizeOk acc.addr acc.size = true →
      (heldOf s x < 64 → Gives (.aliasAccessHeld x acc) s [.switch] (fun t =>
        t.sw = { s.sw with aliasHeld := s.sw.aliasHeld ++
          [⟨partyOf x, if acc.write then acc else { acc with data := 0 }, holds s 0 (partyOf x)⟩] })) ∧
      (64 ≤ heldOf s x → Gives (.aliasAccessHeld x acc) s [] (fun _ => True))) ∧
    (∀ d : Die, fencedDie s = some d → (portOf s x).linkUp = true → wasForwarded d acc.addr = true → sizeOk acc.addr acc.size = true →
      bitOf (rd s (pgBas + oErr0)) 16 = false →
      Gives (.forwardedAccessTimeout x acc) s [.regs, .ports, .out] (fun t =>
        rd t (pgBas + oErr0) = fld 0 16 0x0005 ||| flag 16 true ||| fld 24 4 (portNo x) ||| fld 32 32 1 ∧
        rd t (pgBas + oErr1) = BitVec.ofNat 64 acc.addr ∧
        (acc.write = false → t.out.getLast? = some (.readData (partyOf x) 0)))) ∧
    (fnUp (portOf s x) fn = true → fn < 2 → v < msixCount fn → (portOf s x).flr = false →
      msixOf s x fn v = e → Gives (.msiXVectorUnmask x fn v) s [.ports, .out] (fun t =>
        msixOf t x fn v = { e with masked := false, pending := false } ∧
        t.out = s.out ++ (if e.pending then [.msix x fn v e.addr e.data] else []) ∧ portOf t (otherPort x) = portOf s (otherPort x)))

/-! ### Slices, ring pairs, ports and semaphores -/

/-- Drain, squash and hold (R65, R81). `kept` says what no reset touches (R83). -/
def Obligations.SliceResetCommands : Prop :=
  ∀ (s : State) (x : Port) (who : Party) (n k c : Nat) (e : Step) (ctl value : Word),
    let kept := fun t : State => SlicesBut n s t ∧
      { sliceOf t n with mode := (sliceOf s n).mode, hold := (sliceOf s n).hold, squashed := 0, unwritten := 0, deficit := 0 } =
        { noWait (sliceOf s n) with squashed := 0, unwritten := 0, deficit := 0 }
    let drained := fun (h : Bool) (t : State) => kept t ∧ (sliceOf t n).mode = .draining ∧ (sliceOf t n).hold = h ∧
      (sliceOf t n).squashed = 0 ∧ (∀ p ∈ List.range 8, ringOf t n p = { ringOf s n p with fetch := none }) ∧
      t.conf.steps = s.conf.steps ∧ n ∉ t.conf.owedList ∧ n ∉ t.conf.openList
    let squashed := fun (h : Bool) (m : State) => kept m ∧ (sliceOf m n).mode = .squashing ∧ (sliceOf m n).hold = h ∧
      (∀ p ∈ List.range 8, (ringOf m n p).fetch = none) ∧
      (stepOf s k = some e → e.sliceNo = n → e.seq = none → e.phase = .executing c →
        (stepOf m k).map (·.ending) = some (some stSliceReset))
    let reach := [Part.slices, .rings, .confluence, .cores, .engines, .sram, .streams, .stores, .keyStore, .switch, .sems, .ceremonies, .regs, .ports, .out]
    (SlicePageOpen s x n →
      ((sliceOf s n).mode = .active → bitOf ctl 0 = true → bitOf ctl 1 = false →
        Gives (.sliceDrain x n ctl) s [.slices, .rings, .confluence] (drained (bitOf ctl 2))) ∧
      ((sliceOf s n).mode = .active → bitOf ctl 0 = false → bitOf ctl 1 = true →
        GivesThen (.sliceSquash x n ctl) s settle reach (squashed (bitOf ctl 2))) ∧
      (bitOf ctl 0 = false → bitOf ctl 1 = false → Gives (.sliceHoldWrite x n ctl) s [.slices] (fun t =>
        SlicesBut n s t ∧ sliceOf t n = { sliceOf s n with
          hold := bitOf ctl 2
          mode := if bitOf ctl 2 = false ∧ (sliceOf s n).mode = .quiesced then .active else (sliceOf s n).mode }))) ∧
    (GuardedOpen s who → getF value 0 10 = n → (sliceOf s n).mode = .active →
      (getF value 10 2 = 1 → Gives (.ptxSliceResetDrain who x value) s [.slices, .rings, .confluence] (drained (bitOf value 12))) ∧
      (getF value 10 2 = 2 → GivesThen (.ptxSliceResetSquash who x value) s settle reach (squashed (bitOf value 12))))

/-- The end of a slice reset (step 4 of R81). -/
def Obligations.SliceResetEnds : Prop :=
  ∀ (s : State) (n : Nat), s.portA.flr = false → s.portB.flr = false →
    ((sliceOf s n).mode = .draining ∨ (sliceOf s n).mode = .squashing) →
    (resetDone s n = true → Gives (.sliceResetEnd n) s [.slices, .rings, .regs, .ports, .out] (fun t =>
      SlicesBut n s t ∧ sliceOf t n = { sliceOf s n with mode := if (sliceOf s n).hold then .quiesced else .active } ∧
      (∀ p ∈ List.range 8, (ringOf t n p).enable = false ∧ (ringOf t n p).mode = .disabled ∧ (ringOf t n p).portNow = 0 ∧
        (ringOf t n p).sqHead = (ringOf s n p).sqHead ∧ (ringOf t n p).cqTail = (ringOf s n p).cqTail ∧
        (ringOf t n p).sqBase = (ringOf s n p).sqBase ∧ (ringOf t n p).cqBase = (ringOf s n p).cqBase) ∧
      rd t (pgSlc n + oIrqStat) = rd s (pgSlc n + oIrqStat) ||| 2 ∧ RegsBut [pgSlc n + oIrqStat] s t)) ∧
    (resetDone s n = false → Gives (.sliceResetEnd n) s [] (fun _ => True))

/-- SLC_RING_CTL_n and the ring bases (R72, R73, R78). -/
def Obligations.RingControl : Prop :=
  ∀ (s : State) (x y : Port) (n p reg : Nat) (ctl : Word) (r : Ring), SlicePageOpen s x n → p < 8 → ringOf s n p = r →
    let others := fun t : State => RingsBut n p s t
    let captured := fun (c : Nat) (t : State) => bitOf (rd s (pgSlc n + oErr0)) 16 = false →
      rd t (pgSlc n + oErr0) = fld 0 16 c ||| flag 16 true ||| fld 24 4 (portNo x) ||| fld 32 32 1
    (r.enable = false → bitOf ctl 0 = true → r.mode = .disabled → getF ctl 1 4 < 13 → getF ctl 5 2 = portCode y →
      (boundTo (sliceOf s n) y = true → (sliceOf s n).mode = .active → portOk s y = true →
        Gives (.ringEnable x n p ctl) s [.rings] (fun t => others t ∧
          ringOf t n p = { ringFields r ctl with
            sizeCode := getF ctl 1 4, home := portCode y, enable := true, mode := .running, sqHead := 0, sqTail := 0, cqHead := 0
            cqTail := 0, cqNext := 0, fetch := none, portNow := portCode y, lastPort := 0, heldError := false, moveTo := none
            unsig := 0, gapDb := none, gapCq := none })) ∧
      ((boundTo (sliceOf s n) y = false ∨ (sliceOf s n).mode ≠ .active) →
        Gives (.ringEnable x n p ctl) s [.rings, .regs, .ports, .out] (fun t => others t ∧ captured 0x0102 t ∧
          ringOf t n p = { ringFields r ctl with sizeCode := getF ctl 1 4, home := portCode y }))) ∧
    (r.enable = true → bitOf ctl 0 = false → getF ctl 1 4 = r.sizeCode → getF ctl 5 2 = portCode y → r.mode ≠ .disabled →
      Gives (.ringDisable x n p ctl) s [.rings, .slices] (fun t => others t ∧ SlicesBut n s t ∧
        sliceOf t n = (if (sliceOf s n).claim = some p ∨ (sliceOf s n).waitRings.testBit p = true then noWait (sliceOf s n) else sliceOf s n) ∧
        (r.debt = 0 → (ringOf t n p).mode = .disabled ∧ (ringOf t n p).portNow = 0) ∧
        (r.debt ≠ 0 → (ringOf t n p).mode = r.mode ∧ (ringOf t n p).portNow = r.portNow ∧ (ringOf t n p).owed = r.owed) ∧
        (ringOf t n p).enable = false ∧ (ringOf t n p).fetch = none ∧ (ringOf t n p).sqHead = r.sqHead)) ∧
    (r.enable = true → bitOf ctl 0 = true → getF ctl 1 4 = r.sizeCode → getF ctl 5 2 = portCode y → r.mode = .running →
      r.portNow = portCode (otherPort y) → boundTo (sliceOf s n) y = true → portOk s y = true →
      Gives (.ringHomeWrite x n p ctl) s [.rings, .regs, .ports, .out] (fun t => others t ∧ (ringOf t n p).home = portCode y ∧
        (r.debt = 0 → (ringOf t n p).portNow = portCode y ∧ (ringOf t n p).mode = .running ∧
          rd t (pgSlc n + oIrqStat) = rd s (pgSlc n + oIrqStat) ||| 8) ∧
        (r.debt ≠ 0 → (ringOf t n p).portNow = r.portNow ∧ (ringOf t n p).moveTo = some y ∧ RegsBut [] s t))) ∧
    ((reg = 0x00 ∨ reg = 0x08 ∨ reg = 0x10) →
      (r.mode = .disabled → Gives (.ringConfigWrite x n p reg ctl) s [.rings] (fun t => others t ∧
        ringOf t n p = if reg = 0x00 then { r with sqBase := ctl &&& mask 12 52 }
          else if reg = 0x08 then { r with cqBase := ctl &&& mask 12 52 } else { r with stsAddr := ctl &&& mask 6 58 })) ∧
      (r.mode ≠ .disabled → Gives (.ringConfigWrite x n p reg ctl) s [.regs, .ports, .out] (captured 0x0101)))

/-- Doorbell writes (R74, R76). Distances are modulo 2^32 (R67). -/
def Obligations.Doorbells : Prop :=
  ∀ (s : State) (x : Port) (n p : Nat) (w : Word) (r : Ring), SlicePageOpen s x n → p < 8 → ringOf s n p = r →
    let v := w.setWidth 32
    let open_ := r.enable = true ∧ r.mode ≠ .disabled ∧ (sliceOf s n).mode = .active
    let captured := fun (c : Nat) (t : State) => bitOf (rd s (pgSlc n + oErr0)) 16 = false →
      rd t (pgSlc n + oErr0) = fld 0 16 c ||| flag 16 true ||| fld 24 4 (portNo x) ||| fld 32 32 1
    let quietly := [pgSlc n + oIrqStat, pgSlc n + oErr0, pgSlc n + oErr1, pgSlc n + oErr2, pgSlc n + oErr3]
    (s.sw.gap = none → open_ → ringDist r.sqHead v ≤ ringSize r → ringDist r.sqHead r.sqTail ≤ ringDist r.sqHead v →
      Gives (.sqDoorbell x n p w) s [.rings] (fun t => RingsBut n p s t ∧ ringOf t n p = { r with sqTail := v })) ∧
    (s.sw.gap = none → open_ → ringSize r < ringDist r.sqHead v →
      Gives (.sqDoorbell x n p w) s [.rings, .regs, .ports, .out] (fun t => RingsBut n p s t ∧ RegsBut quietly s t ∧
        ringOf t n p = { r with mode := .error } ∧ captured 0x0103 t ∧ bitOf (rd t (pgSlc n + oIrqStat)) 2 = true)) ∧
    (s.sw.gap = none → open_ → ringDist r.sqHead v ≤ ringSize r → ringDist r.sqHead v < ringDist r.sqHead r.sqTail →
      Gives (.sqDoorbell x n p w) s [.regs, .ports, .out] (fun t => RegsBut quietly s t ∧ captured 0x0104 t)) ∧
    (s.sw.gap.isSome = true → Gives (.sqDoorbell x n p w) s [.rings] (fun t => RingsBut n p s t ∧
      ringOf t n p = { r with gapDb := some (partyOf x, w) }) ∧
      Gives (.cqDoorbell x n p w) s [.rings] (fun t => RingsBut n p s t ∧ ringOf t n p = { r with gapCq := some (partyOf x, w) })) ∧
    (s.sw.gap = none → open_ → ringDist r.cqHead v ≤ ringDist r.cqHead r.cqTail →
      Gives (.cqDoorbell x n p w) s [.rings] (fun t => RingsBut n p s t ∧ ringOf t n p = { r with cqHead := v })) ∧
    (s.sw.gap = none → open_ → ringDist r.cqHead r.cqTail < ringDist r.cqHead v →
      Gives (.cqDoorbell x n p w) s [.regs, .ports, .out] (fun t => RegsBut quietly s t ∧ captured 0x0105 t)) ∧
    (r.enable = false → s.sw.gap = none →
      Gives (.sqDoorbell x n p w) s [] (fun _ => True) ∧ Gives (.cqDoorbell x n p w) s [] (fun _ => True))

/-- Evacuate, link down and link up, outside a switchover gap (R78, R79, R85). -/
def Obligations.PortEvents : Prop :=
  ∀ (s : State) (x : Port) (who : Party) (ctl : Word) (n p k speed width : Nat), s.sw.gap = none → p < 8 →
    (GuardedOpen s who → evacuated s x = false → bitOf ctl 1 = true →
      Gives (.portEvacuateWrite who x ctl) s [.rings, .regs, .ports, .out] (fun t =>
        rd t (pgPort x + 0x110) = ctl &&& mask 0 2 ∧ ((ringOf t n p).portNow ≠ portCode x ∨ (ringOf t n p).mode = .disabled) ∧
        ((ringOf s n p).portNow ≠ portCode x → (ringOf s n p).moveTo ≠ some x → ringOf t n p = ringOf s n p))) ∧
    (GuardedOpen s who → bitOf ctl 1 = false → portMoves s x = true →
      Gives (.portEvacuateWrite who x ctl) s [.rings, .regs, .ports, .out, .confluence] (fun t =>
        rd t (pgPort x + 0x110) = ctl &&& mask 0 2 ∧ t.conf.steps = s.conf.steps ∧
        (boundTo (sliceOf s n) x = true → (ringOf t n p).mode ≠ .held))) ∧
    ((portOf s x).linkUp = true →
      Gives (.portLinkDown x) s [.rings, .regs, .ports, .out, .switch, .sems, .gauge] (fun t =>
        (portOf t x).linkUp = false ∧ (portOf t x).speed = 0 ∧ (portOf t x).width = 0 ∧
        ((ringOf t n p).portNow ≠ portCode x ∨ (ringOf t n p).mode = .disabled) ∧
        ((ringOf s n p).portNow ≠ portCode x → (ringOf s n p).moveTo ≠ some x → ringOf t n p = ringOf s n p) ∧
        (semOf t k).holder ≠ some (partyOf x) ∧ ((semOf s k).holder ≠ some (partyOf x) → semOf t k = semOf s k) ∧
        t.sw.aliasHeld = s.sw.aliasHeld ∧ bitOf (rd t (pgPort x + oIrqStat)) 1 = true)) ∧
    ((portOf s x).linkUp = false → s.supply.vin = true → speedOk speed = true → widthOk width = true →
      (portOf s x).flr = false → evacuated s x = false →
      Gives (.portLinkUp x speed width) s [.rings, .regs, .ports, .out, .confluence] (fun t =>
        (portOf t x).linkUp = true ∧ (portOf t x).speed = speed ∧ (portOf t x).width = width ∧
        (boundTo (sliceOf s n) x = true → (ringOf t n p).mode ≠ .held) ∧
        t.conf.steps = s.conf.steps ∧ bitOf (rd t (pgPort x + oIrqStat)) 2 = true))

/-- Function level resets (R82, R85). With nothing admitted, nothing else becomes due. -/
def Obligations.FunctionLevelResets : Prop :=
  ∀ (s : State) (x : Port) (n p k v : Nat), (portOf s x).linkUp = true → p < 8 →
    Gives (.flrPf0 x) s [.ports, .out, .sems, .regs, .gauge, .switch] (fun t =>
      (v < 128 → msixOf t x 0 v = {}) ∧ msixOf t x 1 v = msixOf s x 1 v ∧ t.sw.token = s.sw.token ∧
      (semOf t k).holder ≠ some (partyOf x) ∧ ((semOf s k).holder ≠ some (partyOf x) → semOf t k = semOf s k) ∧
      t.out.getLast? = some (.flrDone x 0)) ∧
    ((portOf s x).flr = false → s.conf.steps = [] → s.conf.refused = [] → s.kst.marks = [] → s.passes = [] → carriedSlices s x ≠ [] →
      Gives (.flrPf1 x) s [.ports, .out, .regs, .rings, .slices, .confluence, .streams] (fun t =>
        (portOf t x).flr = true ∧ (portOf t x).flrWait = carriedSlices s x ∧ msixOf t x 1 v = {} ∧
        (n ∈ carriedSlices s x → (sliceOf s n).mode = .active → (sliceOf t n).mode = .squashing) ∧
        (n ∉ carriedSlices s x → sliceOf t n = sliceOf s n) ∧
        ((ringOf t n p).portNow ≠ portCode x ∨ (ringOf t n p).mode = .disabled))) ∧
    ((portOf s x).flr = false → s.conf.steps = [] → s.conf.refused = [] → s.kst.marks = [] → s.rings = [] →
      Gives (.flrPf1 x) s [.ports, .out, .confluence] (fun t =>
        (portOf t x).flr = false ∧ msixOf t x 1 v = {} ∧ (v < 128 → msixOf t x 0 v = msixOf s x 0 v) ∧ .flrDone x 1 ∈ t.out ∧
        t.conf.steps = s.conf.steps))

/-- The semaphores (R84 to R86). The lease runs `leaseNs` of NT. -/
def Obligations.SemaphoreCommands : Prop :=
  ∀ (s : State) (x : Port) (who : Party) (n k : Nat), n < 32 → k ≠ n →
    let mine := { holder := some (partyOf x), leaseEnd := s.nt.ns + leaseNs s : Sem }
    let freed := fun t : State => semOf t n = (if n = 0 ∧ s.wardenWaiting = true then { holder := some .warden, leaseEnd := 0 } else {}) ∧
      t.wardenWaiting = (s.wardenWaiting && n != 0)
    (arrives s (partyOf x) = true → s.vault.recovery = false →
      ((semOf s n).holder = none → ¬(n = 0 ∧ s.wardenWaiting = true) → Gives (.semTake x n) s [.sems] (fun t => semOf t n = mine ∧ semOf t k = semOf s k)) ∧
      ((semOf s n).holder = some (partyOf x) → Gives (.semTake x n) s [.sems] (fun t => semOf t n = mine ∧ semOf t k = semOf s k) ∧
        Gives (.semRenew x n) s [.sems] (fun t => semOf t n = mine ∧ semOf t k = semOf s k)) ∧
      ((semOf s n).holder ≠ some (partyOf x) → ((semOf s n).holder ≠ none ∨ (n = 0 ∧ s.wardenWaiting = true)) →
        Gives (.semTake x n) s [] (fun _ => True) ∧ Gives (.semRenew x n) s [] (fun _ => True))) ∧
    (arrives s who = true →
      ((semOf s n).holder = some who → Gives (.semRelease who n) s [.sems] (fun t => freed t ∧ semOf t k = semOf s k)) ∧
      ((semOf s n).holder ≠ some who → Gives (.semRelease who n) s [] (fun _ => True))) ∧
    ((semOf s n).holder = some (partyOf x) → Gives (.semLeaseExpiry n) s [.sems, .time, .regs, .ports, .out, .gauge, .switch] (fun t =>
      freed t ∧ semOf t k = semOf s k ∧ t.nt.ns = max s.nt.ns (semOf s n).leaseEnd ∧
      rd t (pgSem + 0x208) = bumpF (rd s (pgSem + 0x208)) 0 16 1 ∧ bitOf (rd t (pgSem + oIrqStat)) 1 = true)) ∧
    ((semOf s 0).holder = none → Gives .wardenSemTake s [.sems] (fun t => (semOf t 0).holder = some .warden ∧ t.wardenWaiting = s.wardenWaiting)) ∧
    ((semOf s 0).holder = some (partyOf x) → Gives .wardenSemTake s [.sems] (fun t => semOf t 0 = semOf s 0 ∧ t.wardenWaiting = true))

/-! ### The way of a request -/

/-- Reading ring heads (R68, R70, R75, R331). `d` is the first descriptor that the host answers, and `j` how many descriptors of
the head the slot holds already. -/
def Obligations.DescriptorFetch : Prop :=
  ∀ (s : State) (n p : Nat) (x : Port) (d : Bytes) (ds : List Bytes) (r : Ring) (f : FetchSlot), mayFetch s n p = true → ringOf s n p = r →
    codePort r.portNow = some x →
    let k := headSpan (padTo 128 d)
    let read := fun j : Nat => HostOut.memRead x (pasidOn (sliceOf s n) x) (descAddr r j) 128 (readsRo s x)
    let holds := fun (l : List Bytes) (t : State) => RingsBut n p s t ∧
      ringOf t n p = { r with fetch := some { descs := l.map (padTo 128), port := x } }
    let j := match r.fetch with | some g => g.descs.length | none => 0
    (r.fetch = none → k ≤ ringDist r.sqHead r.sqTail → ringRoom r k = true → k ≤ (d :: ds).length →
      Gives (.descriptorFetch n p (d :: ds)) s [.rings, .out] (fun t => holds ((d :: ds).take k) t ∧ t.out = s.out ++ (List.range k).map read)) ∧
    (r.fetch = none → (ringDist r.sqHead r.sqTail < k ∨ ringRoom r k = false) →
      Gives (.descriptorFetch n p (d :: ds)) s [.rings, .out] (fun t => holds [d] t ∧ t.out = s.out ++ [read 0])) ∧
    (r.fetch = some f →
      let m := headSpan (f.descs.headD []) - f.descs.length
      m ≤ (d :: ds).length → Gives (.descriptorFetch n p (d :: ds)) s [.rings, .out] (fun t =>
        holds (f.descs ++ (d :: ds).take m) t ∧ t.out = s.out ++ (List.range m).map (fun i => read (f.descs.length + i)))) ∧
    Gives (.descriptorReadError n p) s [.rings, .regs, .ports, .out] (fun t => RingsBut n p s t ∧ ringOf t n p = { r with mode := .error } ∧
      getF (rd t (pgPort x + 0x108)) 32 16 = min (getF (rd s (pgPort x + 0x108)) 32 16 + 1) 0xFFFF ∧
      (bitOf (rd s (pgSlc n + oErr0)) 16 = false → getF (rd t (pgSlc n + oErr0)) 0 16 = 0x0106 ∧
        rd t (pgSlc n + oErr1) = BitVec.ofNat 64 (descAddr r j)) ∧
      bitOf (rd t (pgSlc n + oIrqStat)) 2 = true ∧ bitOf (rd t (pgPort x + oIrqStat)) 4 = true)

/-- Parsing (R69, R114). -/
def Obligations.DescriptorParse : Prop :=
  ∀ (s : State) (n p : Nat) (reads : List HostRead) (f : FetchSlot) (r : Ring), ringOf s n p = r → r.fetch = some f → f.parsed = false →
    restDue f = false → ringFetches s n p = true →
    let q := parseHead s n f.descs reads
    (q.status = stOk → Gives (.descriptorParse n p reads) s [.rings, .confluence, .out] (fun t => RingsBut n p s t ∧
      ringOf t n p = { r with fetch := some { f with
        parsed := true, sg := q.sg, blocks := q.blocks, charges := q.charges, charge := q.charges.foldl (· + ·) 0 } } ∧
      (p < 8 → (n ∈ t.conf.owedList ∨ n ∈ t.conf.openList)) ∧ t.conf.steps = s.conf.steps ∧ t.conf.refused = s.conf.refused)) ∧
    (q.status ≠ stOk → GivesThen (.descriptorParse n p reads) s settle [.rings, .slices, .confluence, .switch, .regs, .ports, .out] (fun m =>
      RingsBut n p s m ∧ SlicesBut n s m ∧ sliceOf m n = noWait (sliceOf s n) ∧ ringOf m n p = { r with sqHead := r.sqHead + BitVec.ofNat 32 f.descs.length, debt := r.debt + f.descs.length, fetch := none } ∧
      m.conf.refused = s.conf.refused ++ [{ sliceNo := n, pair := p, descs := f.descs, status := q.status, admNt := s.nt.ns
                                            admitSeq := s.conf.admitCount, admAcked := !duplex s }] ∧
      m.conf.admitCount = s.conf.admitCount + 1 ∧ m.conf.steps = s.conf.steps)) ∧
    (f.descs.any (fun d => (opRow (dOp d)).isNone) = true → q.status = stOpcode)

/-- One decision of Weir on the slice that is being visited (R332). `u` is the state with the wait noted. -/
def Obligations.AdmissionDecision : Prop :=
  ∀ (s : State) (n p : Nat) (f : FetchSlot), serving s = true → yielding s = false → stopsFetching s = false →
    (s.conf.owedList.head? = some n ∨ (s.conf.owedList = [] ∧ s.conf.openList.head? = some n)) → s.conf.visiting.contains n = true →
    eligible s n = some p → parsedHead s n p = some f →
    let k := f.descs.length
    let x := fitOf s n f
    let sl := sliceOf s n
    let taken := if x.perStep then k else 1
    let c0 := (freeContexts s taken).headD 0
    let consumed := fun m : State => RingsBut n p s m ∧ ringOf m n p = { ringOf s n p with
      sqHead := (ringOf s n p).sqHead + BitVec.ofNat 32 k, debt := (ringOf s n p).debt + k, fetch := none }
    (admitStatus s n f = stOk → fits x = true → f.charge ≤ sl.deficit → 1 ≤ k →
      GivesThen .admissionDecision s (fun m => let u := settle m; if u.conf.owedList.contains n != isOwed (sliceOf u n) then relist u n else u)
        [.rings, .slices, .confluence, .switch, .regs, .ports, .out] (fun m => consumed m ∧ SlicesBut n s m ∧
          (sliceOf m n).contexts = sl.contexts + (freeContexts s taken).length ∧ (sliceOf m n).cells = sl.cells + chainCells f.descs ∧
          (sliceOf m n).rateLevel = sl.rateLevel - f.charge * 2 ^ 20 ∧ (sliceOf m n).deficit = sl.deficit - f.charge ∧
          (stepOf m (stepKey c0 0)).map (fun t => (t.desc, t.sliceNo, t.pair, t.admNt)) = some (f.descs.headD [], n, p, s.nt.ns) ∧
          (stepOf m (stepKey c0 0)).map (fun t => (t.phase, t.admAcked, t.index, t.last)) = some (.parked, !duplex s, 0, k - 1) ∧
          m.conf.admitCount = s.conf.admitCount + 1 ∧ m.sw.recs.length = s.sw.recs.length + (if duplex s then 1 else 0))) ∧
    (admitStatus s n f ≠ stOk →
      GivesThen .admissionDecision s settle [.rings, .slices, .confluence, .switch, .regs, .ports, .out] (fun m => consumed m ∧
        SlicesBut n s m ∧ m.conf.steps = s.conf.steps ∧ m.conf.refused = s.conf.refused ++ [{ sliceNo := n, pair := p, descs := f.descs, status := admitStatus s n f, admNt := s.nt.ns, admitSeq := s.conf.admitCount, admAcked := !duplex s }])) ∧
    (admitStatus s n f = stOk → fits x = false →
      Gives .admissionDecision s [.slices, .confluence] (fun t => SlicesBut n s t ∧ n ∉ t.conf.owedList ∧ n ∉ t.conf.openList ∧
        (sliceOf t n).deficit = 0 ∧ (sliceOf t n).contexts = sl.contexts ∧ (sliceOf t n).rateLevel = sl.rateLevel ∧
        (sliceOf t n).waitRings = 1 <<< p ∧ (sliceOf t n).waitRate = x.rate ∧ t.conf.steps = s.conf.steps))

/-- The credit of the buckets (R329). -/
def Obligations.BucketCredit : Prop :=
  ∀ (s : State) (n : Nat), serving s = true →
    let gone := s.nt.ns / 1000 - s.conf.creditUs
    (s.conf.creditUs < s.nt.ns / 1000 → Gives .bucketCredit s [.slices, .confluence] (fun t =>
      t.conf.creditUs = s.nt.ns / 1000 ∧ t.conf.steps = s.conf.steps ∧
      sliceOf t n = (if (sliceOf s n).mode = .absent then sliceOf s n else creditSlice s gone (sliceOf s n)) ∧
      (s.lev.throttleEnd = none → (sliceOf s n).mode ≠ .absent →
        (sliceOf t n).rateLevel = min ((sliceOf s n).policy.depth * 2 ^ 20)
          ((sliceOf s n).rateLevel + ((sliceOf s n).rateFrac + (sliceOf s n).policy.rate * 4 * gone * 2 ^ 20) / 4000000)))) ∧
    (s.nt.ns / 1000 ≤ s.conf.creditUs → Gives .bucketCredit s [] (fun _ => True))

/-- One hand-over (R336). -/
def Obligations.CoreHandover : Prop :=
  ∀ (s : State) (k c : Nat) (t : Step), serving s = true → headOfLists s.conf.ready = some k → stepOf s k = some t → k ∈ listOf s.conf.ready t.level →
    coreFrom s (coreTakes s (handsAhead t)) = some c →
    GivesThen .coreHandover s settle [.cores, .confluence, .regs, .ports, .out, .keyStore, .streams, .free] (fun m =>
      StepsBut k s m ∧ k ∉ listOf m.conf.ready t.level ∧ m.conf.pointer = (c + 1) % 288 ∧
      ((coreOf s c).exec = none → (coreOf m c).exec = some k ∧ (stepOf m k).map (fun u => (u.phase, u.sliceNo, u.desc)) = some (.executing c, t.sliceNo, t.desc) ∧
        (t.ran = false → (stepOf m k).map (fun u => (u.ran, u.actNt)) = some (true, s.nt.ns))) ∧
      ((coreOf s c).exec ≠ none → (coreOf m c).pre = some k ∧ (coreOf m c).exec = (coreOf s c).exec ∧
        (stepOf m k).map (·.phase) = some (.prefetched c)))

/-- The input of a step (R94, R217), and a binding that waits for a cache entry (R249). -/
def Obligations.InputAndBinding : Prop :=
  ∀ (s : State) (k c p j : Nat) (t : Step) (x : Port) (b : Bytes) (y : Bound) (rec : KeyRecord), stepOf s k = some t → t.phase = .executing c →
    (awaitsInput t = true →
      let table := hasTable t.desc && t.trans.isNone
      let reads := (inputReads s t).map (fun g => HostOut.memRead x (pasidOn (sliceOf s t.sliceNo) x) g.addr g.len (!table && readsRo s x))
      let failed := fun u : State => StepsBut k s u ∧ (stepOf u k).map (fun v => (v.result, v.inputDone)) = some (some (fails stDataFetch), true)
      (stepPort s t = some x → table = false →
        Gives (.inputSegmentReadDone k (some b)) s [.confluence, .out] (fun u => StepsBut k s u ∧ u.out = s.out ++ reads ∧
          stepOf u k = some { t with input := padTo (sgBytes (inputReads s t)) b, inputDone := true })) ∧
      (stepPort s t = some x → table = true →
        Gives (.inputSegmentReadDone k (some b)) s [.confluence, .out, .streams] (fun u => StepsBut k s u ∧ u.out = s.out ++ reads ∧
          btcFind u t.sliceNo (tablePage t.desc) = some (padTo 4096 b) ∧
          ((stepOf u k).map (·.trans) = some (tableEntries (padTo 4096 b) (tableFirst t.desc)) ∨
            (stepOf u k).map (·.result) = some (some (fails stLength))))) ∧
      (stepPort s t = some x → Gives (.inputSegmentReadDone k none) s [.confluence, .out] (fun u => failed u ∧ u.out = s.out ++ reads)) ∧
      (stepPort s t = none → Gives (.inputSegmentReadDone k (some b)) s [.confluence] failed)) ∧
    (t.bindWait = some p → p < 4 → bindAt s t (stepKeys s t) p = some (.bound y rec) → y.gen ≠ 0 →
      ((cacheFind s y.slot y.gen).isSome = true →
        Gives (.keyCacheEntryFreed k) s [.confluence, .keyStore, .streams, .engines, .regs, .ports, .out] (fun u => StepsBut k s u ∧
          (stepOf u k).map (fun v => (v.bindWait == some p, v.bound.take (t.bound.length + 1))) = some (false, t.bound ++ [y]))) ∧
      (cacheFind s y.slot y.gen = none → isOpening s y.slot y.gen = false → underRepair s y.slot rec = false → cacheRoom s = true →
        Gives (.keyCacheEntryFreed k) s [.confluence, .engines, .regs, .ports, .out] (fun u => StepsBut k s u ∧ stepOf u k = some t ∧
          (j ≤ rec.extCount → FrameJob.openFrame y.slot y.gen j ∈ allJobs u))) ∧
      (cacheFind s y.slot y.gen = none → (isOpening s y.slot y.gen = true ∨ underRepair s y.slot rec = true ∨ cacheRoom s = false) →
        Gives (.keyCacheEntryFreed k) s [.confluence] (fun u => StepsBut k s u ∧ stepOf u k = some t)))

/-- Ends at boundaries (R81), the execution limit (R106), and a seed that does not come (R390). -/
def Obligations.StepsEndEarly : Prop :=
  ∀ (s : State) (k c w i : Nat) (t : Step) (st : Status), stepOf s k = some t →
    let ended : List Part := [.confluence, .cores, .engines, .sram, .stores, .keyStore, .switch, .sems, .ceremonies, .regs, .ports, .out]
    let stands := fun m : State => StepsBut k s m ∧
      (stepOf m k).map (fun u => (u.result, u.ending, u.bound, u.mark)) = some (some (fails st), none, t.bound, none)
    (t.ending = some st → t.seq = none → (t.ahead = false ∨ notOwn st = true) →
      GivesThen (.boundaryEnd k) s settle ended stands) ∧
    (t.ending = some st → t.seq = none → t.ahead = true → notOwn st = false → entryOf s k = some (c, i) → t.guardOk = none →
      GivesThen (.boundaryEnd k) s settle ended (fun m => stands m ∧ (stepOf m k).map (·.phase) = some (.inEddy c i) ∧
        (i < (coreOf s c).eddy.length → (coreOf m c).eddy.getD i {} = ⟨.held, k⟩))) ∧
    (t.phase = .executing c → t.seq = none → t.ending = none →
      GivesThen (.execLimitExpiry k) s settle [.confluence, .time] (fun m => StepsBut k s m ∧ stepOf m k = some { t with ending := some stExecLimit } ∧
        m.nt.ns = max s.nt.ns (t.actNt + 10000000))) ∧
    (t.seedWait = some w → serving s = true → (rngOf s (curDie s)).seeds = [] →
      GivesThen (.seedWaitTimeout k) s settle [.confluence, .time, .regs, .ports, .out, .engines, .dies, .keyStore, .free] (fun m => StepsBut k s m ∧
        (stepOf m k).map (fun u => (u.result.map (·.status), u.seedWait)) = some (some stRngUnavailable, none) ∧ m.nt.ns = max s.nt.ns (w + 50000)))

/-- STEP_READY (R33, R354, R355). -/
def Obligations.Readiness : Prop :=
  ∀ (s : State) (k c c' i : Nat) (t : Step) (r : Result), stepOf s k = some t → t.phase = .executing c → t.result = some r → functionDone t r = true →
    let timed := fun m : State => StepsBut k s m ∧ m.nt.ns = max s.nt.ns (t.actNt + cyclesNs r.cycles)
    (t.ahead = false → freeEntry s c = some i → GivesThen (.stepReady k) s settle [.time, .cores, .confluence] (fun m => timed m ∧
      stepOf m k = some { t with phase := .inEddy c i } ∧ (coreOf m c).exec = none ∧ (coreOf m c).pre = (coreOf s c).pre ∧
      (i < (coreOf s c).eddy.length → (coreOf m c).eddy.getD i {} = ⟨if earlierDone s t then .commit else .order, k⟩))) ∧
    (t.ahead = false → freeEntry s c = none → GivesThen (.stepReady k) s settle [.time, .confluence] (fun m => timed m ∧
      stepOf m k = some { t with phase := .readyOnCore c })) ∧
    (t.ahead = true → entryOf s k = some (c', i) → c' = c →
      let entry := fun m : State => (coreOf m c).eddy.getD i {}
      (t.guardOk = none → GivesThen (.stepReady k) s settle [.time, .cores, .confluence] (fun m => timed m ∧
        stepOf m k = some { t with phase := .inEddy c i } ∧ (coreOf m c).exec = none ∧ entry m = ⟨.held, k⟩)) ∧
      (t.guardOk ≠ none → confirmStatus s k t r = stOk → GivesThen (.stepReady k) s settle [.time, .cores, .confluence, .regs] (fun m => timed m ∧
        stepOf m k = some { t with phase := .inEddy c i } ∧ (coreOf m c).exec = none ∧
        entry m = ⟨if earlierDone s t then .commit else .order, k⟩)) ∧
      (t.guardOk ≠ none → confirmStatus s k t r ≠ stOk →
        GivesThen (.stepReady k) s settle [.time, .cores, .confluence, .engines, .sram, .stores, .keyStore, .switch, .sems, .ceremonies, .regs, .ports, .out]
          (fun m => timed m ∧ (coreOf m c).exec = none ∧ entry m = ⟨.scrub, k⟩ ∧
            (stepOf m k).map (fun u => (u.result, u.bound)) = some (some (fails (confirmStatus s k t r)), t.bound))))

/-- EDDY_CONFIRM and EDDY_SCRUB_DONE (R360 to R362). -/
def Obligations.ConfirmAndScrub : Prop :=
  ∀ (s : State) (k c i : Nat) (t : Step) (r : Result), stepOf s k = some t → t.result = some r → i < (coreOf s c).eddy.length →
    (entryOf s k = some (c, i) → (coreOf s c).eddy.getD i {} = ⟨.held, k⟩ → t.guardOk ≠ none →
      (confirmStatus s k t r = stOk → GivesThen (.eddyConfirm k) s settle [.cores, .regs] (fun m =>
        (coreOf m c).eddy.getD i {} = ⟨if earlierDone s t then .commit else .order, k⟩ ∧ (coreOf m c).exec = (coreOf s c).exec ∧
        rd m (pgEdy (curDie s) c + 0x180) = bumpF (rd s (pgEdy (curDie s) c + 0x180)) 0 32 1)) ∧
      (confirmStatus s k t r ≠ stOk →
        GivesThen (.eddyConfirm k) s settle [.confluence, .cores, .engines, .sram, .stores, .keyStore, .switch, .sems, .ceremonies, .regs, .ports, .out] (fun m =>
          StepsBut k s m ∧ (coreOf m c).eddy.getD i {} = ⟨.scrub, k⟩ ∧
          (stepOf m k).map (fun u => (u.result, u.bound)) = some (some (fails (confirmStatus s k t r)), t.bound))) ∧
      (t.guardOk = some false → confirmStatus s k t r = stGuardFailed) ∧
      (t.guardOk = some true → t.haltFailed = true → confirmStatus s k t r = stChainHalted)) ∧
    ((coreOf s c).eddy.getD i {} = ⟨.scrub, k⟩ → GivesThen (.eddyScrubDone c i) s settle [.cores, .engines, .sram, .confluence, .regs] (fun m =>
      StepsBut k s m ∧ (coreOf m c).eddy.getD i {} = {} ∧ stepOf m k = some { t with phase := .ended } ∧
      rd m (pgEdy (curDie s) c + 0x190) = bumpF (rd s (pgEdy (curDie s) c + 0x190)) 0 32 1))

/-- ADMIT_ACK_RECEIVED and COMMIT_ACK_RECEIVED (R33). -/
def Obligations.Acknowledgements : Prop :=
  ∀ (s : State) (n k q : Nat) (ks : List Nat) (t : Step) (r : Result) (x : MirrorRec), mirrorRec s n = some x → stepOf s k = some t →
    (x.applied = true → x.body = .admission ks → k ∈ ks → GivesThen (.admitAckReceived n) s settle [.switch, .confluence] (fun m =>
      stepOf m k = some { t with admAcked := true } ∧ mirrorRec m n = none ∧ (∀ j ∈ s.conf.steps.map (·.1), j ∉ ks → stepOf m j = stepOf s j))) ∧
    (x.applied = true → x.body = .commit k → t.result = some r → t.seq = some q → t.phase = .committed → t.mark = none →
      s.passes.any (fun p => p.step == k) = false →
      GivesThen (.commitAckReceived n) s settle [.switch, .rings, .cores, .engines, .sram, .confluence] (fun m => mirrorRec m n = none ∧
        RingsBut t.sliceNo t.pair s m ∧ (ringOf m t.sliceNo t.pair).owed = insertOwed (ringOf s t.sliceNo t.pair).owed (owedOf k t r t.final q) ∧
        stepOf m k = some t)) ∧
    (x.applied = false → Gives (.admitAckReceived n) s [] (fun _ => True) ∧ Gives (.commitAckReceived n) s [] (fun _ => True))

/-- A completion batch (R71), and the coalescing time (R77). -/
def Obligations.CompletionBatch : Prop :=
  ∀ (s : State) (n p k : Nat) (x : Port) (r : Ring) (o : Owed) (e : MsixEntry), serving s = true → ringOf s n p = r → r.portNow = portCode x →
    portMoves s x = true →
    let b := batchOf s n p
    let pasid := pasidOn (sliceOf s n) x
    let isWrite := fun h : HostOut => match h with | .memWrite _ _ _ _ => true | _ => false
    (b ≠ [] → r.enable = true → GivesThen (.completionBatchWrite n p) s (fun m => settle (relist (settleRing m n p) n))
      [.rings, .out, .switch, .ports, .regs, .slices, .engines, .confluence] (fun m => RingsBut n p s m ∧
        (o ∈ b → HostOut.memWrite x pasid (r.cqBase.toNat + o.entry % ringSize r * 64) o.bytes ∈ m.out) ∧
        (m.out.filter isWrite).getLast? = some (.memWrite x pasid r.stsAddr.toNat (statusBlock (countBatch s r b))) ∧
        (ringOf m n p).cqTail = r.cqTail + BitVec.ofNat 32 (b.filter (fun o => !o.again)).length ∧
        (ringOf m n p).owed = r.owed.filter (fun o => !b.contains o) ∧
        (ringOf m n p).debt = r.debt - (b.filter (fun o => !o.again)).length ∧
        (o ∈ b → o.step = some k → stepOf m k = none))) ∧
    (b = [] → Gives (.completionBatchWrite n p) s [] (fun _ => True)) ∧
    (r.irqEn = true → r.coalTime ≠ 0 → 0 < r.unsig → r.vector < 1920 → msixOf s x 1 r.vector = e → e.masked = false →
      Gives (.coalesceTimerExpiry n p) s [.rings, .out, .time] (fun t => RingsBut n p s t ∧ ringOf t n p = { r with unsig := 0 } ∧
        t.out = s.out ++ [.msix x 1 r.vector e.addr e.data] ∧ t.nt.ns = max s.nt.ns (r.unsigNt + r.coalTime * 100))) ∧
    (r.coalTime = 0 → Gives (.coalesceTimerExpiry n p) s [] (fun _ => True))

/-- BNL_JOB_START and BNL_JOB_DONE (R269, R270, R338). -/
def Obligations.EngineJobs : Prop :=
  ∀ (s : State) (k i : Nat) (ok : Bool) (t : Step), stepOf s k = some t →
    (serving s = true → headOfLists s.conf.bnlReady = some k → engineFor s (ownerOf t) = some i →
      Gives (.bnlJobStart i) s [.engines, .confluence, .regs, .ports, .out] (fun u => StepsBut k s u ∧
        (engineOf u i).job = some k ∧ (engineOf u i).startNt = s.nt.ns ∧ (engineOf u i).used = true ∧
        (stepOf u k).map (·.job) = some .running ∧ k ∉ listOf u.conf.bnlReady t.level)) ∧
    ((engineOf s i).job = some k → ((ok = true ∧ checksHold t = true) ∨ checkedOp (dOp t.desc) = false) →
      Gives (.bnlJobDone i ok) s [.engines, .confluence, .regs] (fun u => StepsBut k s u ∧
        engineOf u i = { engineOf s i with job := none } ∧ stepOf u k = some { t with job := .done })) ∧
    ((engineOf s i).job = some k → checkedOp (dOp t.desc) = true → (ok = false ∨ checksHold t = false) → i < 28 → (2, i) ∉ (dieOf s (curDie s)).failed →
      GivesThen (.bnlJobDone i ok) s settle
        [.engines, .confluence, .regs, .ports, .out, .levee, .gauge, .switch, .dies, .cores, .sram, .stores, .keyStore, .sems, .ceremonies] (fun m =>
        (engineOf m i).job = none ∧ (2, i) ∈ (dieOf m (curDie s)).failed ∧
        (t.retries = 0 → (stepOf m k).map (fun u => (u.job, u.retries, u.result)) = some (.queued, 1, t.result) ∧ (listOf m.conf.bnlReady t.level).head? = some k) ∧
        (t.retries ≠ 0 → (stepOf m k).map (fun u => (u.job, u.result.map (·.status))) = some (.done, some stIntegrity))))

/-- STEP_YIELD and STEP_RESUME (R337, R356). -/
def Obligations.YieldAndResume : Prop :=
  ∀ (s : State) (k c w : Nat) (t : Step), stepOf s k = some t →
    (t.phase = .executing c → awaitsJob t = true → t.ending = none →
      (t.ahead = false → s.conf.yieldFree ≠ 0 → GivesThen (.stepYield k) s settle [.cores, .engines, .sram, .confluence, .regs, .ports, .out] (fun m =>
        StepsBut k s m ∧ (coreOf m c).exec = none ∧ (coreOf m c).eddy = (coreOf s c).eddy ∧ laneOf m c = {} ∧
        sget (fun _ => 0) (sramOf m (curDie s)) w = (if isScratchOf c w then 0 else sget (fun _ => 0) (sramOf s (curDie s)) w) ∧
        m.conf.yieldFree = s.conf.yieldFree - 1 ∧ (stepOf m k).map (·.phase) = some .yielded)) ∧
      (t.ahead = false → s.conf.yieldFree = 0 → Gives (.stepYield k) s [.regs, .ports, .out] (fun u =>
        bitOf (rd u (pgCfl (curDie s) 0 + oIrqStat)) 2 = true)) ∧
      (t.ahead = true → Gives (.stepYield k) s [] (fun _ => True))) ∧
    (t.phase = .yielded → awaitsJob t = false → t.ending = none →
      GivesThen (.stepResume k) s settle [.confluence, .regs, .ports, .out] (fun m => StepsBut k s m ∧
        (stepOf m k).map (·.phase) = some .listed ∧ (listOf m.conf.ready t.level).head? = some k))

/-! ### W1C bits -/

/-- R43. `setNow` holds the events of the write's own cycle. -/
def Obligations.SetWins : Prop :=
  ∀ (s : State) (who : Party) (x : Port) (p : Page) (pg a n i : Nat) (data setNow : Word), i < 64 →
    (arrives s who = true → route s (pg / 0x1000 * 0x1000 + oIrqStat) = .at_ p a → (s.lev.halted = false ∨ p.block = .sem) → s.vault.recovery = false →
      GivesThen (.pgIrqStatClear who .bar0 pg data setNow) s (fun m => raiseBits m a (setNow &&& irqMask p)) [.regs, .ports, .out]
        (fun m => exec (.pgIrqStatClear who .bar0 pg data 0) s = .next m) ∧
      Gives (.pgIrqStatClear who .bar0 pg data setNow) s [.regs, .ports, .out] (fun t =>
        bitOf setNow i = true → i ≤ irqBits p → bitOf (rd t (a + oIrqStat)) i = true)) ∧
    (SlicePageOpen s x n →
      GivesThen (.pgIrqStatClear (partyOf x) .bar2 (n * 0x1000) data setNow) s
        (fun m => raiseBits m (pgSlc n) (setNow &&& irqMask ⟨.slc, n, 3⟩)) [.regs, .ports, .out]
        (fun m => exec (.pgIrqStatClear (partyOf x) .bar2 (n * 0x1000) data 0) s = .next m) ∧
      Gives (.pgIrqStatClear (partyOf x) .bar2 (n * 0x1000) data setNow) s [.regs, .ports, .out] (fun t =>
        bitOf setNow i = true → i ≤ irqBits ⟨.slc, n, 3⟩ → bitOf (rd t (pgSlc n + oIrqStat)) i = true))

/-! ### Data passes and streams -/

/-- The life of a data pass (R227 to R229), the sweep of the buffer translation cache (R218) and idle streams (R225). -/
def Obligations.DataPasses : Prop :=
  ∀ (s : State) (k i q id j : Nat) (t : Step) (r : Result) (x : Port) (p : Pass) (data : Option Bytes) (src : Bytes) (g : BtcPage) (y : Stream),
    stepOf s k = some t →
    let failed := fun st : Status => ({ seq := q, bytes := completionBytes t.desc st [] 0 q t.commitNt, ext := [], segs := [], signal := dSignal t.desc, step := some k, entry := t.entry } : Owed)
    let owes := fun (o : Owed) (u : State) => RingsBut t.sliceNo t.pair s u ∧ u.passes.any (fun z => z.step == k) = false ∧
      ringOf u t.sliceNo t.pair = { ringOf s t.sliceNo t.pair with owed := insertOwed (ringOf s t.sliceNo t.pair).owed o }
    let runs := runningPass s i = some p ∧ s.passes.find? (fun z => z.step == k) = some p ∧ t.seq = some q ∧ serving s = true
    let failParts := [Part.engines, .rings, .out, .gauge, .switch, .regs]
    (serving s = true → headOfLists s.conf.pipeReady = some k → stepPort s t = some x → pipeTakes s i t.level = true →
      (hasPass s k = false → portTakes s x (leAt t.desc 72 8) = true →
        Gives (.dataPassAccept i) s [.confluence, .engines, .regs, .ports, .out] (fun u => StepsBut k s u ∧
          u.passes = s.passes ++ [passOf s k i t x] ∧ (pipeOf u i).running = some k ∧ (stepOf u k).map (·.accepted) = some true ∧
          k ∉ listOf u.conf.pipeReady t.level)) ∧
      (hasPass s k = true → Gives (.dataPassAccept i) s [.confluence, .engines, .regs, .ports, .out] (fun u => StepsBut k s u ∧
          u.passes = s.passes.map (fun z => if z.step = k then { z with pipe := i } else z) ∧ (pipeOf u i).running = some k ∧
          k ∉ listOf u.conf.pipeReady t.level)) ∧
      (hasPass s k = false → portTakes s x (leAt t.desc 72 8) = false → Gives (.dataPassAccept i) s [] (fun _ => True))) ∧
    (runs → t.result = some r → portless s k = false → portMoves s p.port = true →
      GivesThen (.dataPassDone i (some src)) s settle [.engines, .regs, .rings, .out] (fun u => owes (owedOf k t r t.final q) u ∧
        u.out = (writeSegs (passReads s p) p.port (pasidOn (sliceOf s p.sliceNo) p.port) (passBytes p src) p.dst).out) ∧
      GivesThen (.dataPassDone i none) s settle failParts (owes (failed stDataFetch))) ∧
    (runs → portless s k = true → GivesThen (.dataPassDone i data) s settle failParts (owes (failed stDataFetch))) ∧
    (s.passes.find? (fun z => z.step == k) = some p →
      (p.started = true → t.seq = some q → GivesThen (.dataPassAbandon k) s settle (.time :: failParts) (fun m => owes (failed stExecLimit) m ∧
        m.nt.ns = max s.nt.ns (t.actNt + 10000000))) ∧
      (p.started = false → GivesThen (.dataPassAbandon k) s settle [.time, .engines] (fun m =>
        m.passes = s.passes.map (fun z => if z.step = k then { z with doom := some (z.doom.getD stExecLimit) } else z) ∧
        m.nt.ns = max s.nt.ns (t.actNt + 10000000)))) ∧
    (runningPass s i = some p → p.step = k → portMoves s p.port = false → stepPort s t = some x →
      Gives (.dataPassPortLoss i) s [.engines] (fun u =>
        u.passes = s.passes.map (fun z => if z.step = k then { z with port := x } else z) ∧ pipeOf u i = pipeOf s i)) ∧
    (serving s = true → Gives .btcSweep s [.streams] (fun u => u.streams = s.streams ∧
      (g ∈ u.btc → g.valid = true → s.nt.ns / 1000000 * 1000000 ≤ g.filled) ∧ u.btc.length = s.btc.length)) ∧
    (serving s = true → mget s.streams id = some y → Gives (.streamIdleClose id) s [.streams, .time] (fun u =>
      mget u.streams id = none ∧ (j ≠ id → mget u.streams j = mget s.streams j) ∧ u.nt.ns = max s.nt.ns (y.lastNt + 60000000000)))

/-! ### Key transactions -/

/-- The steps of Table 11 (R259), with the sealing of R233, R234 and R369. -/
def Obligations.KeyTransactions : Prop :=
  ∀ (s : State) (m k j i q ix τ : Nat) (y : Mark) (t : Step) (r : Result) (w : FrameWrite) (d : Die) (job : FrameJob), mget s.kst.marks m = some y → j ≠ m →
    let others := fun u : State => mget u.kst.marks j = mget s.kst.marks j
    let counted := pgStp (curDie s) i + 0x110
    let sealed := { y with writes := y.writes.set ix { w with frame := sealedFrame s w.slot (takeSeal s).1 w.frame.body } }
    let pos := if isLogged y then nextLogPos s y.sliceNo else 0
    let inForce := fun u : State => (mget u.kst.marks m).map (fun z => (z.flipped, z.logPos)) = some (true, pos) ∧ others u ∧
      (y.writes.filter (fun v => v.slot == w.slot) = [w] → slotDir (mramOf u d) w.slot = w.newDir)
    (serving s = true → (pipeOf s i).sealing = some (job, τ) →
      GivesThen (.sealJob i) s (fun u => settle (startJobs 6 (jobWork u job))) [.time, .engines, .regs] (fun u =>
        u.nt.ns = max s.nt.ns τ ∧ (pipeOf u i).sealing = none ∧ rd u counted = rd (bump s counted 32 32 1) counted)) ∧
    (serving s = true → (pipeOf s i).sealing = some (.sealWrite m ix, τ) → y.writes[ix]? = some w → activeDie s = some d →
      GivesThen (.sealJob i) s (fun u => settle (startJobs 6 u)) [.time, .engines, .regs, .keyStore, .vault, .stores, .switch] (fun u =>
        mget u.kst.marks m = some sealed ∧ others u ∧ (sealed.writes.any unsealed = true → mramOf u d = mramOf s d) ∧
        (sealed.writes.any unsealed = false → mramOf u d = putMark sealed (mramOf s d) ∧
          (duplex s = true → u.sw.recs.any (fun z => z.body == .frame m) = true)))) ∧
    (serving s = true → y.framesHeld = false → y.writes.any unsealed = false → frameSent s m = false →
      GivesThen (.keyTxnFramesWritten m) s settle [.keyStore] (fun u => mget u.kst.marks m = some { y with framesHeld := true } ∧ others u)) ∧
    (mayFlip s m y = true → activeDie s = some d → y.withdraws = false →
      (y.seq = q + 1 → (y.kind = .cutover ∨ y.kind = .resetErase ∨ y.kind = .homing ∨ y.kind = .roster) →
        GivesThen (.keyTxnFlip m) s settle [.keyStore, .stores, .regs, .ports, .out, .gauge, .dies] (fun u => inForce u ∧
          u.gauge.epochCommits = s.gauge.epochCommits + 1)) ∧
      (y.kind = .step k → stepOf s k = some t → t.mark = some m → t.result = some r → r.effects = [] → s.passes.any (fun p => p.step == k) = false →
        s.conf.steps.all (fun e => e.1 == k || e.2.mark == none) = true → t.seq = (if y.seq = 0 then none else some q) →
        (y.seq = 0 → q = s.conf.commitSeq + 1) → GivesThen (.keyTxnFlip m) s settle
          [.keyStore, .stores, .regs, .ports, .out, .gauge, .dies, .confluence, .cores, .engines, .sram, .rings, .slices, .switch, .ceremonies, .sems] (fun u =>
            inForce u ∧ (stepOf u k).map (fun v => (v.phase, v.seq)) = some (.committed, some q) ∧
            u.gauge.epochCommits = s.gauge.epochCommits + 1))) ∧
    (serving s = true → mayFlip s m y = false → Gives (.keyTxnFlip m) s [] (fun _ => True)) ∧
    (serving s = true → y.flipped = true → activeDie s = some d → GivesThen (.keyTxnLogWritten m) s settle [.keyStore, .stores] (fun u =>
      mget u.kst.marks m = none ∧ others u ∧
      (isLogged y = true → logOf (mramOf u d) y.sliceNo = logPut (logOf (mramOf s d) y.sliceNo) y.logPos y.clientSeq) ∧
      (isLogged y = false → logOf (mramOf u d) y.sliceNo = logOf (mramOf s d) y.sliceNo)))

/-- Transactions of the key store's own (R245, R250, R262), withdrawal and old material (R247 to R249), and repair (R235). -/
def Obligations.KeyStoreUpkeep : Prop :=
  ∀ (s : State) (slot m gen c core k : Nat) (pend : Bool) (r p : KeyRecord) (e : CacheEntry) (d : Die) (t : Step), serving s = true → s.kst.isOpen = true → activeDie s = some d →
    let made := fun (kind : TxnKind) (who : Nat) (ws : List FrameWrite) (slots : List Nat) (u : State) =>
      mget u.kst.marks m = some { kind := kind, sliceNo := who, slot := slot, clientSeq := 0, writes := ws, changes := slots } ∧ u.conf.steps = s.conf.steps
    let free := fun ws : List FrameWrite => ws ≠ [] ∧ ws.any (fun w => markOn s w.slot) = false ∧ framesFound ws = true ∧ freeMark s = some m
    let markParts := [Part.keyStore, .confluence, .engines, .regs, .ports, .out]
    let cut := cutWrites s slot r p []
    let tombs := tombWrites s slot (lastGenOf s slot) (1 + r.extCount) []
    let home := [frameWrite s slot .current (recordFrame (mramOf s d) slot false).body (slotDir (mramOf s d) slot).lastGen []]
    let replyParts := [Part.keyStore, .stores, .regs, .ports, .out, .gauge, .switch]
    (markOn s slot = false → slotView s slot = .held r → pendingView s slot = some p → mget s.kst.pendings slot = some c →
      (s.nt.trust ≠ .untrusted → free cut → GivesThen (.keyCutover slot) s settle (.time :: markParts) (fun u =>
        made .cutover p.owner cut (groupSlots s slot) u ∧ u.nt.ns = max s.nt.ns (max p.activateAt c))) ∧
      (s.nt.trust = .untrusted → Gives (.keyCutover slot) s [.time, .keyStore, .gauge, .switch, .regs] (fun u =>
        u.kst.marks = s.kst.marks ∧ u.kst.cache = s.kst.cache ∧ slot ∈ u.kst.waitNoted))) ∧
    (markOn s slot = false → slotView s slot = .held r → (mramOf s d).expiry.contains slot = true → r.expireAtReset = true →
      r.resetEpoch ≠ s.vault.resetEpoch → free tombs →
      GivesThen (.resetExpiryErase slot) s settle markParts (made .resetErase r.owner tombs (groupSlots s slot))) ∧
    (shadowFree s < 64508 → mayHome s (slotDir (mramOf s d) slot) slot = true → (recordFrame (mramOf s d) slot false).rootId = s.kst.rootId →
      oldestShadow s slot = true → free home → GivesThen (.shadowHoming slot) s settle markParts (made .homing 0 home [])) ∧
    (inWithdrawal s slot = true → slotHeld s slot = false → GivesThen (.withdrawalEnd slot) s settle [.keyStore] (fun u =>
      inWithdrawal u slot = false ∧ u.kst.marks = s.kst.marks)) ∧
    (slotHeld s slot = true → Gives (.withdrawalEnd slot) s [] (fun _ => True)) ∧
    ((gen ≠ curGen s slot ∧ keyHeld s slot gen = false → Gives (.oldMaterialZeroise slot gen) s [.keyStore, .engines, .sram] (fun u =>
      cacheFind u slot gen = none ∧ u.kst.marks = s.kst.marks ∧ (e ∈ s.kst.cache → e.slot ≠ slot → e ∈ u.kst.cache) ∧
      ((laneOf s core).loader = some k → stepOf s k = some t → t.bound.any (fun b => b.slot == slot && b.gen == gen) = true → laneOf u core = {}))) ∧
     ((gen = curGen s slot ∨ keyHeld s slot gen = true) → Gives (.oldMaterialZeroise slot gen) s [] (fun _ => True))) ∧
    (mayRepair s slot pend = true →
      GivesThen (.frameTagFail slot pend) s (fun u => refreshHealth s (settle u)) [.stores, .regs, .ports, .out, .keyStore, .gauge, .switch, .levee] (fun u =>
        (duplex s = true → u.kst.repairing = s.kst.repairing ++ [(slot, pend)] ∧ (recordFrame (mramOf u d) slot pend).intact = false) ∧
        (duplex s = false → (slotDir (mramOf u d) slot).damaged = true))) ∧
    (s.kst.repairing.find? (fun z => z.1 == slot) = some (slot, pend) → duplex s = true →
      ((recordFrame (mramOf s (otherDie d)) slot pend).intact = true → recordFrame (mramOf s d) slot pend ≠ {} →
        GivesThen (.frameRepairReply slot true) s (fun u => settle (rebind u)) replyParts (fun u =>
          u.kst.repairing.any (fun z => z.1 == slot) = false ∧ recordFrame (mramOf u d) slot pend = recordFrame (mramOf s (otherDie d)) slot pend)) ∧
      GivesThen (.frameRepairReply slot false) s (fun u => settle (rebind u)) replyParts (fun u =>
        u.kst.repairing.any (fun z => z.1 == slot) = false ∧ (slotDir (mramOf u d) slot).damaged = true))

/-! ### Requests -/

/-- The rows of the payment opcodes (classes 0x00 to 0x03). -/
def Obligations.PaymentRequests : Prop :=
  ∀ (s : State) (k : Nat) (t : Step), stepOf s k = some t →
    (mayRun t 0 = true → Gives (.nop k) s runParts (fun u =>
      StepsBut k s u ∧ (stepOf u k).map (·.result) = some (some { status := stOk, cycles := 1000 }) ∧ u.vault = s.vault)) ∧
    RunsPure .nop 0x0000 opNop s k t ∧
    RunsOp .pinTranslate 0x0101 opPinTranslate s k t ∧
    RunsPure .pinVerifyOffset 0x0102 opPinVerifyOffset s k t ∧
    RunsPure .pinVerifyValue 0x0103 opPinVerifyValue s k t ∧
    RunsOp .pinGenerate 0x0104 opPinGenerate s k t ∧
    RunsPure .pinOffsetDerive 0x0105 opPinOffsetDerive s k t ∧
    RunsPure .pinScreen 0x0106 opPinScreen s k t ∧
    RunsPure .pinChangeScript 0x0107 opPinChangeScript s k t ∧
    RunsPure .pinValueDerive 0x0108 opPinValueDerive s k t ∧
    RunsPure .arqcVerify 0x0201 opArqcVerify s k t ∧
    RunsPure .arpcGenerate 0x0202 opArpcGenerate s k t ∧
    RunsPure .arqcVerifyArpc 0x0203 opArqcVerifyArpc s k t ∧
    RunsPure .scriptMac 0x0204 opScriptMac s k t ∧
    RunsPure .scriptEncrypt 0x0205 opScriptEncrypt s k t ∧
    RunsPure .cvcGenerate 0x0211 opCvcGenerate s k t ∧
    RunsPure .cvcVerify 0x0212 opCvcVerify s k t ∧
    RunsPure .dcvcGenerate 0x0213 opDcvcGenerate s k t ∧
    RunsPure .dcvcVerify 0x0214 opDcvcVerify s k t ∧
    RunsOp .dukptPinTranslate 0x0301 opDukptPinTranslate s k t ∧
    RunsPure .dukptMacVerify 0x0302 opDukptMacVerify s k t ∧
    RunsPure .dukptDecryptData 0x0303 opDukptDecryptData s k t ∧
    RunsOp .dukptInitialKey 0x0304 opDukptInitialKey s k t ∧
    RunsPure .macGenerate 0x0311 opMacGenerate s k t ∧
    RunsPure .macVerify 0x0312 opMacVerify s k t ∧
    RunsPure .hmacGenerate 0x0313 opHmacGenerate s k t ∧
    RunsPure .hmacVerify 0x0314 opHmacVerify s k t

/-- The rows of the token, bulk and key-store opcodes (classes 0x04 and 0x05), and of the counters they draw (R193, R222). -/
def Obligations.TokenBulkAndKeyRequests : Prop :=
  ∀ (s : State) (k v slot gen : Nat) (t : Step) (b : Bound) (rec : KeyRecord), stepOf s k = some t →
    (mayRun t 0x0411 = true → boundAt t 0 = some b → ((fnBulkOpen s t (fnInOf s t) (rndOf s t.sliceNo)).1.keys = [.nonce slot gen (v + 1)]) →
      Gives (.bulkOpen k) s runParts (fun u =>
        (drawOf u slot gen).next = max (drawOf s slot gen).next (v + 1) ∧ v < nextCounter u slot gen rec)) ∧
    RunsPure .tokenEncode 0x0401 opTokenEncode s k t ∧
    RunsPure .tokenDecode 0x0402 opTokenDecode s k t ∧
    RunsPure .bulkOpen 0x0411 opBulkOpen s k t ∧
    RunsPure .bulkSegment 0x0412 opBulkSegment s k t ∧
    RunsPure .bulkClose 0x0413 opBulkClose s k t ∧
    RunsPure .bulkTk7 0x0414 opBulkTk7 s k t ∧
    RunsOp .keyGenerate 0x0501 opKeyGenerate s k t ∧
    RunsPure .keyImportBlock 0x0502 opKeyImportBlock s k t ∧
    RunsOp .keyExportBlock 0x0503 opKeyExportBlock s k t ∧
    RunsOp .keyRewrite 0x0504 opKeyRewrite s k t ∧
    RunsPure .keyErase 0x0505 opKeyErase s k t ∧
    RunsPure .keyReadAttr 0x0506 opKeyReadAttr s k t ∧
    RunsPure .keyActivateAt 0x0507 opKeyActivateAt s k t ∧
    RunsPure .keyCheckValue 0x0508 opKeyCheckValue s k t ∧
    RunsPure .keyTxnQuery 0x0509 opKeyTxnQuery s k t ∧
    RunsPure .keyBlockVerify 0x050A opKeyBlockVerify s k t

/-- The rows of the public-key and attestation opcodes and of class 0x07. -/
def Obligations.PublicKeyDigestAndRandomRequests : Prop :=
  ∀ (s : State) (k : Nat) (t : Step), stepOf s k = some t →
    (mayRun t 0x0602 = true → usesBnl 0x0602 (LaneResult (fnInOf s t) (fnPkVerify (fnInOf s t))).status = true →
      Gives (.pkVerify k) s runParts (fun u =>
        (listOf u.conf.bnlReady t.level).getLast? = some k ∧ u.measOwner = s.measOwner ∧ u.die0.meas = s.die0.meas ∧ u.die1.meas = s.die1.meas)) ∧
    RunsOp .pkSign 0x0601 opPkSign s k t ∧
    RunsPure .pkVerify 0x0602 opPkVerify s k t ∧
    RunsPure .pkDecrypt 0x0603 opPkDecrypt s k t ∧
    RunsOp .pkEncrypt 0x0604 opPkEncrypt s k t ∧
    RunsOp .keyPairGenerate 0x0605 opKeyPairGenerate s k t ∧
    RunsPure .ecdhDerive 0x0606 opEcdhDerive s k t ∧
    RunsOp .kemEncaps 0x0607 opKemEncaps s k t ∧
    RunsPure .kemDecaps 0x0608 opKemDecaps s k t ∧
    RunsPure .tr34Import 0x0611 opTr34Import s k t ∧
    RunsOp .tr34Export 0x0612 opTr34Export s k t ∧
    RunsOp .transportHybridSeal 0x0613 opTransportHybridSeal s k t ∧
    RunsPure .transportHybridOpen 0x0614 opTransportHybridOpen s k t ∧
    RunsOp .attestKey 0x0621 opAttestKey s k t ∧
    RunsOp .attestModule 0x0622 opAttestModule s k t ∧
    RunsPure .digestBlocks 0x0701 opDigestBlocks s k t ∧
    RunsOp .randomGet 0x0702 opRandomGet s k t ∧
    RunsPure .measureExtend 0x0703 opMeasureExtend s k t ∧
    RunsPure .measureRead 0x0704 opMeasureRead s k t ∧
    RunsPure .btcInval 0x0710 opBtcInval s k t

/-- The rows of classes 0x08 and 0x09, and the start of a close (R309). -/
def Obligations.CeremonyRequests : Prop :=
  ∀ (s : State) (k : Nat) (t : Step) (c : Ceremony) (st : Status), stepOf s k = some t →
    let id := leAt t.desc 64 4
    (mayRun t 0x0803 = true → cerOf s t.sliceNo id = some c → cerFor s t = .ok c → c.mode = .quorate →
      Gives (.ceremonyClose k) s [.ceremonies, .sems] (fun u => mget u.cer id = some { c with mode := .applying, closer := some k } ∧
        (c.domain ≠ 0 → semOf u 0 = semOf s 0 ∧ u.wardenWaiting = s.wardenWaiting) ∧
        (c.domain = 0 → (semOf u 0).holder = some .warden ∨ u.wardenWaiting = true))) ∧
    (mayRun t 0x0803 = true → cerFor s t = .ok c → c.mode ≠ .quorate → c.mode ≠ .applying →
      Gives (.ceremonyClose k) s runParts (fun u => StepsBut k s u ∧ u.kst.marks = s.kst.marks ∧
        (stepOf u k).map (fun v => v.result.map (·.status)) = some (some stCeremonyState))) ∧
    (mayRun t 0x0803 = true → cerFor s t = .error st → (cerOf s t.sliceNo id).map (·.mode) ≠ some .applying →
      Gives (.ceremonyClose k) s runParts (fun u => StepsBut k s u ∧ u.kst.marks = s.kst.marks ∧
        (stepOf u k).map (fun v => v.result.map (·.status)) = some (some st))) ∧
    RunsPure .replayRun 0x0901 opReplayRun s k t ∧
    RunsPure .replayStatus 0x0902 opReplayStatus s k t ∧
    RunsOp .ceremonyOpen 0x0801 fnCeremonyOpen s k t ∧
    RunsPure .ceremonyApprove 0x0802 fnCeremonyApprove s k t ∧
    RunsPure .componentEnter 0x0804 fnComponentEnter s k t ∧
    RunsPure .ceremonyCancel 0x0805 fnCeremonyCancel s k t ∧
    RunsPure .ceremonyStatus 0x0806 fnCeremonyStatus s k t

/-- The rows of the actions (Table 2 of the ceremony chapter). `k` is the step of the close. -/
def Obligations.CeremonyActions : Prop :=
  ∀ (s : State) (k : Nat) (t : Step) (c : Ceremony), stepOf s k = some t → mayRun t 0x0803 = true →
    cerOf s t.sliceNo (leAt t.desc 64 4) = some c → c.mode = .applying → c.toWrite = [] → (c.domain = 0 → wardenHas s = true) →
    (c.action ≠ 0x01 → Gives (.takeOwnership k) s [] (fun _ => True)) ∧
    ClosesOp .takeOwnership 0x01 closeTakeOwnership s k t c ∧
    ClosesPure .restore 0x02 closeRestore s k t c ∧
    ClosesOp .backup 0x03 closeBackup s k t c ∧
    ClosesPure .rosterChange 0x04 closeRosterChange s k t c ∧
    ClosesPure .sliceCreate 0x10 closeSliceCreate s k t c ∧
    ClosesPure .sliceDelete 0x11 closeSliceDelete s k t c ∧
    ClosesPure .sliceRebind 0x12 closeSliceRebind s k t c ∧
    ClosesPure .policyGrant 0x13 closePolicyGrant s k t c ∧
    ClosesPure .componentEntry 0x20 closeComponentEntry s k t c ∧
    ClosesPure .objectEntry 0x21 closeObjectEntry s k t c ∧
    ClosesPure .firmwareActivate 0x30 closeFirmware s k t c ∧
    ClosesPure .lifecycleChange 0x31 closeLifecycle s k t c ∧
    ClosesPure .rawSampling 0x32 closeRawSampling s k t c ∧
    ClosesPure .replay 0x40 closeReplay s k t c

/-- R115. `c` is the row of a verify opcode. -/
def Obligations.VerifyTiming : Prop :=
  ∀ (op j k q : Nat) (c : Nat → Instr) (s1 s2 : State) (t1 t2 : Step) (u1 u2 : State) (r1 r2 : Result),
    (op, c) ∈ ([(0x0102, .pinVerifyOffset), (0x0103, .pinVerifyValue), (0x0201, .arqcVerify), (0x0203, .arqcVerifyArpc), (0x0212, .cvcVerify),
      (0x0214, .dcvcVerify), (0x0302, .dukptMacVerify), (0x0312, .macVerify), (0x0314, .hmacVerify)] : List (Nat × (Nat → Instr))) →
    stepOf s1 k = some t1 → stepOf s2 k = some t2 → mayRun t1 op = true → mayRun t2 op = true →
    stepKeys s1 t1 = stepKeys s2 t2 → t1.input.length = t2.input.length → cut t1.desc 0 80 = cut t2.desc 0 80 → seedCycles s1 t1 = seedCycles s2 t2 →
    exec (c k) s1 = .next u1 → exec (c k) s2 = .next u2 →
    (stepOf u1 k).bind (·.result) = some r1 → (stepOf u2 k).bind (·.result) = some r2 →
    r1.cycles = r2.cycles ∧
    (j < 32 → j ≠ 4 → j ≠ 5 → j ≠ 7 →
      (owedOf k t1 r1 r1.status q).bytes.getD j 0 = (owedOf k t1 r2 r2.status q).bytes.getD j 0)

/-- Sending a commit record (R33, R37). Commands whose statement ends in `settle` reach this operation through it. -/
def Obligations.CommitRecords : Prop :=
  ∀ (s : State) (k j : Nat) (t : Step) (r : Result), stepOf s k = some t → t.result = some r → maySend s t = true →
    let m := sendStep s k
    let nt := max s.nt.ns s.gauge.lastCommitNt
    let ring := ringOf s t.sliceNo t.pair
    (duplex s = true → Unchanged [.confluence, .keyStore, .switch, .gauge, .rings] s m ∧
      (j ≠ k → (stepOf m j).map (fun u => (u.seq, u.result, u.phase)) = (stepOf s j).map (fun u => (u.seq, u.result, u.phase)) ∧
        (t.mark = none → stepOf m j = stepOf s j)) ∧
      stepOf m k = some { t with seq := some (s.conf.commitSeq + 1), commitNt := nt, entry := ring.cqNext.toNat, result := some (streamNow s t r) } ∧
      m.conf.commitSeq = s.conf.commitSeq + 1 ∧ m.gauge.lastCommitNt = nt ∧ m.gauge.epochCommits = s.gauge.epochCommits ∧
      m.sw.recs.map (·.body) = s.sw.recs.map (·.body) ++ [.commit k] ∧
      ringOf m t.sliceNo t.pair = { ring with cqNext := ring.cqNext + 1 }) ∧
    (duplex s = false → r.effects = [] → s.passes.any (fun p => p.step == k) = false →
      (stepOf m k).map (fun u => (u.phase, u.final, u.seq)) = some (.committed, r.status, some (s.conf.commitSeq + 1)) ∧
      (ringOf m t.sliceNo t.pair).owed.any (fun o => o.seq == s.conf.commitSeq + 1 && o.step == some k) = true ∧
      m.gauge.epochCommits = s.gauge.epochCommits + 1 ∧
      (j ≠ k → (stepOf m j).map (·.seq) = (stepOf s j).map (·.seq)))

/-! ### Cards and ceremonies -/

/-- Card ports (R314, R315), shares (R318, R319) and the expiry of ceremonies (R310). `p` is the custodian port. -/
def Obligations.CardSessions : Prop :=
  ∀ (s : State) (who : Party) (p id cause ix : Nat) (point sig wrapped share w : List Byte) (c : Ceremony) (r : CardResult), p < 2 →
    let k := cardOf s p
    let other := fun u : State => cardOf u (1 - p) = cardOf s (1 - p)
    let turns := fun (y : CardPort) (u : State) => cardOf u p = y ∧ other u
    let ends := fun (y : CardPort) (u : State) => turns y u ∧ bitOf (rd u (pgCus p + oIrqStat)) 3 = true
    let starts := fun (op : Nat) (cmd : Party → Nat → Nat → Instr) =>
      GuardedOpen s who → id < 2 ^ 32 → k.session ≠ 1 →
        let y := { k with session := 1, cause := 0, op := op, ceremony := id, startNt := s.nt.ns, result := none, powered := k.present }
        (k.present = true → mget s.cer id = some c → opFits c op = true → Gives (cmd who p id) s [.cards] (turns y)) ∧
        (k.present = false → Gives (cmd who p id) s [.cards, .regs, .ports, .out] (ends { y with session := 3, cause := 1 })) ∧
        (k.present = true → (mget s.cer id).all (fun x => !opFits x op) = true →
          Gives (cmd who p id) s [.cards, .regs, .ports, .out] (ends { y with session := 3, cause := 7 }))
    starts 1 .cardSessionApprove ∧ starts 2 .cardSessionComponent ∧ starts 3 .cardSessionPutShare ∧ starts 4 .cardSessionGetShare ∧
    (k.session = 1 → 2 ≤ cause → cause ≤ 4 → Gives (.cardSessionDone p cause point sig wrapped) s [.cards, .regs, .ports, .out, .free]
      (ends { k with session := 3, cause := cause })) ∧
    (k.session = 1 → k.op ≠ 3 → Gives (.cardSessionDone p 0 point sig wrapped) s [.cards, .regs, .ports, .out]
      (fun u => ends { k with session := 2, cause := 0, result := some ⟨k.ceremony, k.op, point, sig, if k.op = 1 then [] else wrapped, s.nt.ns⟩ } u ∧
        (mget s.cer k.ceremony = some c → u.out.contains (.cardCommand p (cardSign k.op k.ceremony c).1 (cardSign k.op k.ceremony c).2) = true))) ∧
    (k.session = 1 → k.op = 3 → mget s.cer k.ceremony = some c → shareHolder s c point = some (ix, share) →
      cardSigned 3 k.ceremony c point sig = true → wrapKey c.keyPriv point (cardFpOf point) k.ceremony 2 = some w →
      (c.toWrite.filter (fun e => e.1 != ix)).isEmpty = false →
      Gives (.cardSessionDone p 0 point sig wrapped) s [.cards, .regs, .ports, .out, .ceremonies, .confluence, .gauge, .dies, .switch] (fun u =>
        ends { k with session := 2, cause := 0 } u ∧ u.conf = { s.conf with commitSeq := s.conf.commitSeq + 1 } ∧
        mget u.cer k.ceremony = some { c with toWrite := c.toWrite.filter (fun e => e.1 != ix) } ∧
        u.out.contains (.cardPut p k.ceremony c.keyPub (aesWrap w (shareContent s c ix share))) = true)) ∧
    (k.session = 1 → Gives (.cardSessionTimeout p) s [.cards, .regs, .ports, .out, .time, .free] (fun u => ends { k with session := 3, cause := 5 } u ∧
      u.nt = { s.nt with ns := max s.nt.ns (k.startNt + 2000000000) })) ∧
    (k.result = some r → Gives (.cardResultExpiry p) s [.cards, .time] (fun u => turns { k with result := none } u ∧
      u.nt = { s.nt with ns := max s.nt.ns (r.heldNt + 60000000000) })) ∧
    (k.present = false → Gives (.cardInserted p) s [.cards, .regs, .ports, .out] (fun u => turns { k with present := true } u ∧
      bitOf (rd u (pgCus p + oIrqStat)) 1 = true)) ∧
    (k.present = true → Gives (.cardRemoved p) s [.cards, .regs, .ports, .out, .free] (fun u => bitOf (rd u (pgCus p + oIrqStat)) 2 = true ∧
      turns (if k.session = 1 then { k with present := false, powered := false, session := 3, cause := 6 }
          else { k with present := false, powered := false }) u)) ∧
    (mget s.cer id = some c → (c.mode ≠ .applying ∨ c.toWrite ≠ []) →
      Gives (.ceremonyExpiry id) s [.ceremonies, .time, .confluence, .gauge, .dies, .switch, .vault, .regs] (fun u =>
        mget u.cer id = none ∧ u.nt.ns = max s.nt.ns c.expires ∧ u.conf = { s.conf with commitSeq := s.conf.commitSeq + 1 } ∧
        u.vault.outcomes.getLast? = some ⟨id, c.domain, c.action, if c.mode = .applying then 5 else 6, approvalCount c, c.components.length, c.invalid, c.expires, 0⟩ ∧
        u.vault.ownerRoot = (if c.mode = .applying ∧ c.action = 0x01 then none else s.vault.ownerRoot))) ∧
    (mget s.cer id = some c → c.mode = .applying → c.toWrite = [] → Gives (.ceremonyExpiry id) s [] (fun _ => True))

/-! ### The mirror link and the arbiter -/

/-- The records of the mirror link (R31, R33, R426 to R428), its halves (R427, R431) and the catch-up (R443). -/
def Obligations.MirrorRecords : Prop :=
  ∀ (s : State) (d : Die) (n q ring idx h : Nat) (lost : List Nat) (r : MirrorRec) (b : List Byte) (y : Mark) (t : Step) (res : Result) (k m j : Nat) (holder other : Bool),
    let next := duplex s = true ∧ s.sw.gap = none ∧ mirrorNext s = some r ∧ r.arrived = true
    let gone := fun u : State => u.sw = { s.sw with recs := s.sw.recs.filter (fun x => x.seq != r.seq) }
    let done := fun u : State => u.sw = { s.sw with recs := s.sw.recs.map (fun x => if x.seq = r.seq then { x with applied := true } else x) }
    (next → standbyDie s = some d →
      (isAdmit r.body = true → Gives .admitRecordApply s [.switch] done) ∧
      (isAdmit r.body = false → Gives .admitRecordApply s [] (fun _ => True)) ∧
      (r.body = .frame m → mget s.kst.marks m = some y → Gives .frameRecordApply s [.switch, .stores] (fun u => gone u ∧
        mramOf u (otherDie d) = (mramOf s (otherDie d)).canon ∧ sameStore (putMark y (mramOf s d)) (mramOf u d))) ∧
      (isFrame r.body = false → Gives .frameRecordApply s [] (fun _ => True)) ∧
      (r.body = .commitOwn q → Gives .commitRecordApply s [.switch, .dies] (fun u => done u ∧
        (dieOf u d).applied = max (dieOf s d).applied q ∧ dieOf u (otherDie d) = dieOf s (otherDie d))) ∧
      (r.body = .commit k → stepOf s k = some t → t.mark = none → t.result = some res → res.effects = [] → t.seq = some q →
        Gives .commitRecordApply s [.switch, .dies, .confluence, .cores, .gauge, .regs, .ports, .out, .stores, .engines, .sram, .slices, .keyStore,
            .ceremonies, .sems] (fun u =>
          u.sw.recs.any (fun x => x.seq == r.seq && x.applied) = true ∧ (dieOf u d).applied = max (dieOf s d).applied q ∧
          (stepOf u k).map (fun v => (v.phase, v.final, v.seq)) = some (.committed, res.status, some q) ∧
          (j ≠ k → (stepOf u j).map isCommitted = (stepOf s j).map isCommitted) ∧ u.gauge.epochCommits = s.gauge.epochCommits + 1)) ∧
      (isCommit r.body = false → Gives .commitRecordApply s [] (fun _ => True)) ∧
      (r.body = .delivered ring idx q → Gives .deliveredRecordApply s [.switch, .rings] (fun u => gone u ∧ RingsBut (ring / 8) (ring % 8) s u ∧
        ringOf u (ring / 8) (ring % 8) =
          { ringOf s (ring / 8) (ring % 8) with uncovered := (ringOf s (ring / 8) (ring % 8)).uncovered.filter (fun o => decide (q < o.seq)) })) ∧
      (isDelivered r.body = false → Gives .deliveredRecordApply s [] (fun _ => True)) ∧
      (r.body = .journal b → Gives .journalRecordApply s [.switch, .stores] (fun u => gone u ∧
        mget (mramOf u d).journal (leAt b 24 8 % 8388608) = some b))) ∧
    (mirrorRec s n = some r → r.arrived = false → r.applied = false → halfUp s r.half = false → halfUp s (1 - r.half) = true →
      Gives (.mirrorResend n) s [.switch, .time] (fun u => u.nt.ns = max s.nt.ns (r.sentNt + 2000) ∧
        mirrorRec u n = some { r with half := 1 - r.half, sentNt := u.nt.ns, arrived := true } ∧ mirrorNext u ≠ none)) ∧
    (mirrorRec s n = some r → r.applied = true → isAdmit r.body = true → GivesThen (.admitAckReceived n) s settle [.switch, .confluence] gone) ∧
    (mirrorRec s n = some r → r.applied = true → r.body = .commitOwn q → GivesThen (.commitAckReceived n) s settle [.switch] gone) ∧
    (h < 2 → halfUp s h = true → halfUp s (1 - h) = true →
      Gives (.mirrorHalfDown h lost) s [.switch, .regs, .ports, .out, .gauge, .dies, .confluence] (fun u =>
        halfUp u h = false ∧ halfUp u (1 - h) = true ∧ bitOf (rd u (pgSwo + oIrqStat)) 2 = true ∧
        ((mirrorRec s n).isSome = true → (mirrorRec u n).isSome = true))) ∧
    (h < 2 → halfUp s h = true → halfUp s (1 - h) = false → activeDie s = some d → s.sw.gap = none → s.conf.steps = [] → s.conf.refused = [] → s.kst.marks = [] →
      Gives (.mirrorHalfDown h lost) s [.switch, .regs, .ports, .out, .gauge, .dies, .confluence, .rings, .random] (fun u =>
        activeDie u = some d ∧ duplex u = false ∧ u.sw.recs = [] ∧ (dieOf u (otherDie d)).inService = false)) ∧
    (activeDie s = some d → joiningDie s = some (otherDie d) → (dieOf s (otherDie d)).inService = true → mirrorNext s = some r → r.arrived = true → r.body = .catchup q →
      Gives .catchupRecordApply s [.switch, .stores, .dies, .regs, .ports, .out, .confluence] (fun u =>
        standbyDie u = some (otherDie d) ∧ (dieOf u (otherDie d)).applied = (dieOf s d).applied ∧ u.sw.rejoins = s.sw.rejoins + 1 ∧
        sameStore (copyStore (mramOf s d) (mramOf s (otherDie d))) (mramOf u (otherDie d)) ∧ mramOf u d = (mramOf s d).canon)) ∧
    (activeDie s = some d → joiningDie s = some (otherDie d) → s.sw.gap = none → catchupSent s = false →
      (s.sw.creditWithdrawn = false → Gives (.mirrorCreditRequest true other) s [.switch] (fun u => catchupSent u = true ∧ u.sw.creditWithdrawn = other)) ∧
      (s.sw.creditWithdrawn = false → Gives (.mirrorCreditRequest false other) s [] (fun _ => True)) ∧
      (s.sw.creditWithdrawn = true → Gives (.mirrorCreditRequest holder other) s [.switch] (fun u => catchupSent u = false ∧ u.sw.creditWithdrawn = !other)))

/-- The arbiter (R432 to R438) and the end of the gap (R439 to R442). `d` is the active die in the last clauses. -/
def Obligations.HeartbeatsAndDeclarations : Prop :=
  ∀ (s : State) (d x : Die) (half count state cycles : Nat) (pathQ : Bool) (k : Nat) (g : Gap), half < 2 →
    let t := timerOf s half x
    let declared := fun (cause : Nat) (u : State) => u.sw.token = some (otherDie d) ∧ (dieOf u d).inService = false ∧
      u.sw.gap = some ⟨u.nt.ns, cause, d⟩ ∧ u.sw.lastCause = cause ∧ u.sw.lastOld = dieNo d ∧ u.sw.lastSeq = (dieOf s (otherDie d)).applied ∧
      u.sw.switchovers = min (s.sw.switchovers + 1) 0xFFFF ∧ bitOf (rd u (pgSwo + oIrqStat)) 1 = true
    let falls := [.switch, .dies, .regs, .ports, .out, .gauge, .random]
    (beats s x half = true → (dieOf s x).stopped = false →
      follows (if pathQ then t.countQ else t.countP) (if pathQ then t.missQ else t.missP) count = true → state ≠ 1 →
      Gives (.heartbeat x half pathQ count state) s [.switch, .regs, .ports, .out, .gauge, .dies, .confluence] (fun u =>
        (timerOf u half x).silent = false ∧ u.sw.token = s.sw.token ∧ u.sw.gap = s.sw.gap ∧
        (if pathQ then (timerOf u half x).missQ = 0 ∧ (timerOf u half x).countQ = some count ∧ (timerOf u half x).missP = t.missP
         else (timerOf u half x).missP = 0 ∧ (timerOf u half x).countP = some count ∧ (timerOf u half x).missQ = t.missQ))) ∧
    (t.countP = some count → Gives (.heartbeat x half false count state) s [] (fun _ => True)) ∧
    (beats s x half = true → Gives (.heartbeatSlotMiss x half pathQ) s [.switch, .regs, .ports, .out, .gauge, .dies, .confluence] (fun u =>
      u.sw.token = s.sw.token ∧
      (if pathQ then (timerOf u half x).missQ = min 4 (t.missQ + 1) else (timerOf u half x).missP = min 4 (t.missP + 1)) ∧
      ((timerOf u half x).missP = 4 → (timerOf u half x).missQ = 4 → (timerOf u half x).silent = true))) ∧
    (activeDie s = some d → duplex s = true → s.sw.gap = none →
      ((dieOf s d).declaredFatal = some count → count ≠ 8 → Gives (.dieFatalDeclared d) s falls (declared count)) ∧
      (dieSilent s d = true → bothSilent s d = true → s.sw.hold = false → Gives .switchoverDeclare s falls (declared 1)) ∧
      (dieSilent s d = true → bothSilent s d = true → s.sw.hold = true → Gives .switchoverDeclare s [] (fun _ => True)) ∧
      (dieSilent s d = true → bothSilent s d = false → s.sw.hold = false →
        Gives .switchoverDeclare s [.switch, .dies, .regs, .ports, .out, .gauge, .time, .confluence] (fun u =>
          u.sw.hold = true ∧ u.sw.holdCause = 5 ∧ u.sw.token = some d ∧ u.nt.ns = max s.nt.ns (aloneEnd s d))) ∧
      (dieSilent s d = false → dieSilent s (otherDie d) = false → Gives .switchoverDeclare s [] (fun _ => True))) ∧
    (s.sw.gap = some g → activeDie s = some d → cycles ≤ 8000 →
      GivesThen (.gapEnd cycles) s (fun m => settle (deliverHeld m))
        [.regs, .ports, .out, .sems, .slices, .rings, .time, .dies, .switch, .stores, .vault, .confluence, .cores, .sram, .keyStore, .engines, .streams,
          .random, .measures, .ceremonies, .cards, .starts, .gauge] (fun m =>
        m.sw.gap = none ∧ m.sw.recs.all (fun z => decide (s.sw.nextSeq ≤ z.seq)) = true ∧ m.sw.gapCycles = cycles ∧ m.sw.token = some d ∧ m.nt.ns = max s.nt.ns (g.declNt + cyclesNs cycles) ∧
        (dieOf s d).applied ≤ m.conf.commitSeq ∧ m.conf.commitSeq = (dieOf m d).applied ∧ (stepOf m k).all (fun v => isCommitted v || v.phase == .parked || v.phase == .ended) = true)) ∧
    (s.sw.gap = some g → 8000 < cycles → Gives (.gapEnd cycles) s [] (fun _ => True))

/-- SWO_CTL (R434, R445), the planned switchover (R438), the test channel (R436, R437) and die starts (R443, R494). -/
def Obligations.SwitchCommands : Prop :=
  ∀ (s : State) (who : Party) (d : Die) (shadowOk missedA missedB early : Bool) (ms : Nat),
    let ok := duplex s = true ∧ s.sw.hold = false ∧ s.sw.gap = none
    let refused := fun u : State => bitOf (rd u (pgSwo + oErr0)) 16 = true ∧
      (bitOf (rd s (pgSwo + oErr0)) 16 = false → getF (rd u (pgSwo + oErr0)) 0 16 = 0x0101 ∧ rd u (pgSwo + oErr1) = BitVec.ofNat 64 (pgSwo + 0x128))
    let moved := fun (cause : Nat) (u : State) => u.sw.token = some (otherDie d) ∧ u.sw.gap = some ⟨u.nt.ns, cause, d⟩ ∧ u.sw.planned = false ∧
      u.sw.lastCause = cause ∧ (dieOf u d).inService = decide (cause = 8)
    (activeDie s = some d →
      (GuardedOpen s who → ok → s.sw.planned = false → Gives (.swoPlanned who) s [.switch, .dies] (fun u =>
        u.sw = { s.sw with planned := true, plannedNt := s.nt.ns } ∧ dieOf u d = { dieOf s d with yielding := true } ∧
        dieOf u (otherDie d) = dieOf s (otherDie d))) ∧
      (GuardedOpen s who → ¬ok → Gives (.swoPlanned who) s [.regs, .ports, .out] refused) ∧
      (GuardedOpen s who → s.sw.hold = true → duplex s = true → s.sw.gap = none →
        Gives (.swoForce who) s [.switch, .dies, .regs, .ports, .out, .gauge, .random] (moved 9)) ∧
      (GuardedOpen s who → (s.sw.hold = false ∨ duplex s = false ∨ s.sw.gap ≠ none) → Gives (.swoForce who) s [.regs, .ports, .out] refused) ∧
      (GuardedOpen s who → (dieOf s (otherDie d)).inService = false → Gives (.swoRejoin who) s [.starts] (fun u => dieDue u (otherDie d) = true ∧
        dieDue u d = dieDue s d)) ∧
      (GuardedOpen s who → (dieOf s (otherDie d)).inService = true → Gives (.swoRejoin who) s [] (fun _ => True)) ∧
      (s.sw.planned = true → s.sw.gap = none → duplex s = true →
        (journalDrained s = true → Gives (.plannedMarker false) s [.switch, .dies, .regs, .ports, .out, .gauge, .random] (moved 8)) ∧
        Gives (.plannedMarker true) s [.switch, .dies, .regs, .ports, .out, .gauge, .random, .time] (fun u => moved 8 u ∧
          u.nt.ns = max s.nt.ns (s.sw.plannedNt + 20000))) ∧
      (s.sw.planned = false → Gives (.plannedMarker missedA) s [] (fun _ => True)) ∧
      (s.supply.vin = true → Gives (.testChannelCheck shadowOk missedA missedB early) s [.switch, .dies, .regs, .ports, .out, .gauge, .time, .confluence] (fun u =>
        u.nt.ns = (s.nt.ns / 10000000 + 1) * 10000000 ∧ u.sw.token = s.sw.token ∧ u.sw.gap = s.sw.gap ∧
        (s.sw.hold = false → (u.sw.hold, u.sw.holdCause) =
          (if shadowOk = false then (true, 1) else if missedA then (true, 2) else if missedB then (true, 3) else if early then (true, 4)
           else (false, s.sw.holdCause))) ∧
        (s.sw.hold = true → u.sw.hold = true ∧ u.sw.holdCause = s.sw.holdCause))) ∧
      (mayStartDie s (otherDie d) = true → (dieOf s (otherDie d)).inService = false →
        let o := otherDie d
        let j := shadowOk && joins (bootDie (lateWipe (restage (resetDie (reach s (s.nt.ns + ms * 1000000)) o) o) o) o) d o ms
        Gives (.dieStart o shadowOk ms) s [.switch, .dies, .regs, .ports, .out, .gauge, .random, .starts, .time, .stores, .confluence, .vault, .banks, .sram] (fun u =>
          (dieOf u o).inService = j ∧ (dieOf u o).joining = j ∧ activeDie u = some d ∧ u.nt.ns = s.nt.ns + ms * 1000000 ∧ dieDue u o = false ∧
          (j = true → u.sw.half0Up = true ∧ u.sw.half1Up = true) ∧ (j = false → bitOf (rd u (pgSwo + oIrqStat)) 6 = true))))

/-! ### Network time -/

/-- Network time (R414 to R425). `at_` is the NT of an edge. -/
def Obligations.NetworkTime : Prop :=
  ∀ (s : State) (who : Party) (w ctl : Word) (at_ t : Nat) (l : Label), s.supply.alwaysOn = true →
    let now := max s.nt.ns at_
    let e : Int := (now : Int) - l.label
    let told : List Part := [.time, .regs, .ports, .out, .gauge, .confluence, .switch]
    let late := s.nt.lastEdge.all (fun x => decide (x + 500000000 ≤ now)) = true
    let hosted := late ∧ s.nt.trust = .untrusted ∧ s.nt.armed = some l ∧ l.at_ + 10000000 ≤ now
    let falls := fun (c : Nat) (at2 : Nat) (tr : Trust) => Gives (.trustTimerExpiry c) s told (fun u =>
      u.nt.ns = max s.nt.ns at2 ∧ u.nt.trust = tr ∧ u.nt.cause = c ∧ u.nt.changes = min (s.nt.changes + 1) 0xFFFF ∧
      bitOf (rd u (pgNtu + oIrqStat)) 1 = true)
    Gives (.ntRefCheck true) s [.time] (fun u => u.nt = { s.nt with ns := (s.nt.ns / 1000000 + 1) * 1000000, refOk := true }) ∧
    (s.nt.refOk = true → Gives (.ntRefCheck false) s told (fun u => u.nt.refOk = false ∧ u.nt.ns = (s.nt.ns / 1000000 + 1) * 1000000 ∧
      u.nt.trust = .untrusted ∧ (s.nt.trust ≠ .untrusted → u.nt.cause = 2) ∧ bitOf (rd u (pgNtu + oIrqStat)) 5 = true)) ∧
    (s.nt.lastEdge = some t → now < t + 500000000 → t ≤ now → Gives (.ppsEdge at_) s [.time, .regs, .ports, .out] (fun u =>
      u.nt = { s.nt with ns := now, ignored := min (s.nt.ignored + 1) 0xFFFF })) ∧
    (hosted → e.natAbs ≤ 1000000 → Gives (.ppsEdge at_) s told (fun u => u.nt.ns = now ∧ u.nt.edgeNt = now ∧ u.nt.lastE = e ∧
      u.nt.slewLeft = e ∧ u.nt.slewPpm = 500 ∧ u.nt.armed = none ∧ u.nt.lastLabelled = some now ∧
      (1000 < e.natAbs → u.nt.goodRun = 0) ∧ u.nt.trust = (if u.nt.goodRun = 8 ∧ s.nt.refOk = true then .locked else .untrusted))) ∧
    (hosted → 1000000 < e.natAbs → (e < 0 ∨ backAllowed s = true) →
      Gives (.ppsEdge at_) s [.time, .regs, .ports, .out, .sems, .rings, .dies, .switch, .confluence, .keyStore, .engines, .streams, .random, .supply,
          .levee, .ceremonies, .cards, .starts, .vault, .gauge] (fun u =>
        u.nt.ns = l.label ∧ u.nt.edgeNt = now ∧ u.nt.lastStep = -e ∧ u.nt.steps = min (s.nt.steps + 1) 0xFFFF ∧ u.nt.trust = .untrusted ∧
        u.vault.ntFloor = l.label ∧ ((semOf s 0).holder ≠ none → (semOf u 0).leaseEnd = later (-e) (semOf s 0).leaseEnd) ∧
        bitOf (rd u (pgNtu + oIrqStat)) 3 = true)) ∧
    (hosted → 1000000 < e → backAllowed s = false → Gives (.ppsEdge at_) s told (fun u =>
      u.nt.ns = now ∧ u.nt.steps = s.nt.steps ∧ u.nt.slewLeft = s.nt.slewLeft ∧ u.nt.trust = .untrusted ∧
      u.nt.goodRun = (if edgeMissing { s.nt with ns := now } then 0 else s.nt.goodRun) ∧ bitOf (rd u (pgNtu + oIrqStat)) 4 = true)) ∧
    (late → s.nt.trust = .locked → s.nt.armed = none → s.nt.lastLabel = some t → 1000 < ((now : Int) - (t + 1000000000)).natAbs →
      Gives (.ppsEdge at_) s told (fun u => u.nt.ns = now ∧ u.nt.outliers = min (s.nt.outliers + 1) 0xFFFF ∧ u.nt.slewLeft = s.nt.slewLeft ∧
        u.nt.correction = s.nt.correction ∧ u.nt.trust = (if 2 ≤ s.nt.outlierRun then .holdover else .locked) ∧
        (2 ≤ s.nt.outlierRun → u.nt.cause = 5))) ∧
    (GuardedOpen s who → Gives (.ntuNextPulse who w) s [.time] (fun u => u.nt = { s.nt with nextPulse := w, armed := some ⟨w.toNat, s.nt.ns⟩ })) ∧
    (GuardedOpen s who → bitOf ctl 1 = true → Gives (.ntuDistrust who ctl) s told (fun u => u.nt.ns = s.nt.ns ∧ u.nt.trust = .untrusted ∧
      u.nt.ppsFalling = bitOf ctl 2 ∧ u.nt.cause = if s.nt.trust = .untrusted then s.nt.cause else 9)) ∧
    (s.nt.trust = .locked → s.nt.lastEdge = some t → falls 3 (t + 1500000000) .holdover) ∧
    (s.nt.trust = .locked → s.nt.lastLabelled = some t → falls 4 (t + 64000000000) .holdover) ∧
    (s.nt.trust = .holdover → falls 7 (s.nt.lastGood + 49000 * 1000000000000 / max 1 s.nt.wander + 1) .untrusted) ∧
    (s.nt.trust = .holdover → falls 8 (s.nt.since + 86400000000000) .untrusted) ∧
    (s.nt.trust = .untrusted → Gives (.trustTimerExpiry t) s [] (fun _ => True)) ∧
    (s.nt.ns % 1000000000 ≠ 0 → Gives .ntFloorWrite s [.time, .vault] (fun u => u.nt.ns = (s.nt.ns / 1000000000 + 1) * 1000000000 ∧
      u.vault = { s.vault with ntFloor := u.nt.ns }))

/-! ### Levee -/

/-- Levee (R450 to R467). -/
def Obligations.LeveeHazards : Prop :=
  ∀ (s : State) (who : Party) (h p n nets : Nat) (site : Site) (t : Nat) (failed : List (Nat × Bool)) (w : Word) (x : DetPair),
    hazPair h = some p → pairOf s p = x →
    let count := fun (u : State) (lo : Nat) => getF (rd u (pgLev 2 + 0x100 + 8 * p)) lo 16
    (sensed s h site = true → onBattery s = false → h ≠ 0x09 → h ≠ 0x0C →
      Gives (.hazardReport h site true true nets) s [.levee, .regs, .supply] (fun u =>
        count u 32 = min (count s 32 + 1) 0xFFFF ∧ (pairOf u p).aloneNt = none ∧ (pairOf u p).aNow = true ∧ (pairOf u p).bNow = true ∧
        (hazCounted h = false → u.lev.present.contains h = true ∧ u.lev.due.any (fun d => d.1 == h) = true))) ∧
    (sensed s h site = true → onBattery s = false → x.aFailed = false → x.bFailed = false →
      Gives (.hazardReport h site true false nets) s [.levee, .supply] (fun u =>
        (pairOf u p).aloneNt = some (x.aloneNt.getD s.nt.ns) ∧ u.lev.due = s.lev.due ∧ u.lev.present = s.lev.present)) ∧
    (sensed s h site = false → Gives (.hazardReport h site true true nets) s [] (fun _ => True)) ∧
    (x.aloneNt = some t → x.noted = false → Gives (.detectorFault p) s [.levee, .time, .regs, .ports, .out, .gauge, .switch] (fun u =>
      u.nt.ns = max s.nt.ns (t + confirmNs p) ∧ count u 16 = min (count s 16 + 1) 0xFFFF ∧ (pairOf u p) = { x with noted := true } ∧
      u.lev.due = s.lev.due ∧ bitOf (rd u (pgLev 2 + oIrqStat)) 1 = true)) ∧
    (x.aloneNt = some t → sensed s h site = true → h ≠ 0x09 → h ≠ 0x0C → x.aNow = true → x.bNow = false →
      Gives (.pairDegraded h site) s [.levee, .time, .regs, .ports, .out, .gauge, .switch] (fun u =>
        u.nt.ns = max s.nt.ns (t + 1000000) ∧ (pairOf u p).degraded = true ∧ (pairOf u p).aFailed = x.aFailed ∧ (pairOf u p).bFailed = true ∧
        count u 32 = min (count s 32 + 1) 0xFFFF ∧ bitOf (rd u (pgLev 2 + oIrqStat)) 2 = true)) ∧
    (onBattery s = false → Gives (.detectorSelftest failed) s [.levee, .time, .regs, .ports, .out, .dies] (fun u =>
      u.nt.ns = max s.nt.ns (s.lev.lastTest + 60000000000) ∧ u.lev.lastTest = u.nt.ns ∧
      (failed.contains (p, false) = true → (pairOf u p).aFailed = true ∧ (pairOf u p).degraded = true) ∧
      (failed = [] → u.lev = { s.lev with lastTest := u.nt.ns }))) ∧
    (s.lev.due = [(h, n, 1)] → s.lev.halted = false → Gives .hazardResponse s [.levee, .regs, .ports, .out, .gauge, .switch] (fun u =>
      u.lev.due = [] ∧ u.lev.lastHazard = h ∧ u.lev.lastTier = 1 ∧ u.lev.tierNow = max s.lev.tierNow 1 ∧ u.lev.flags = s.lev.flags ∧
      u.lev.throttleEnd = some (s.nt.ns + s.vault.lev.throttleMs * 1000000) ∧ bitOf (rd u (pgLev 0 + oIrqStat)) 1 = true)) ∧
    (s.lev.due = [(h, n, 2)] → s.lev.halted = false → s.vault.lev.escalate = 0 → (activeDie s).isSome = true → s.conf.steps = [] →
      s.conf.refused = [] → s.kst.marks = [] →
      Gives .hazardResponse s [.levee, .regs, .ports, .out, .gauge, .switch, .engines, .keyStore, .sram, .confluence] (fun u =>
        u.lev.due = [] ∧ u.lev.lastTier = 2 ∧ u.kst = { s.kst with cache := [] } ∧ u.lanes = [] ∧ u.lev.flags.contains h = true ∧
        u.lev.tier2s.head? = some s.nt.ns ∧ u.lev.halted = false)) ∧
    (s.lev.due = [(h, n, 3)] → s.lev.halted = false →
      Gives .hazardResponse s [.levee, .regs, .ports, .out, .gauge, .switch, .engines, .keyStore, .sems, .slices, .rings, .dies, .vault, .confluence,
          .cores, .sram, .streams, .random, .measures, .cards, .stores] (fun u =>
        u.lev.halted = true ∧ u.lev.zeroised = true ∧ u.lev.flags.contains h = true ∧ u.vault.ownerRoot = none ∧ u.vault.transferKey = [] ∧
        u.vault.instSeed = [] ∧ u.vault.lev = s.vault.lev ∧ activeDie u = none ∧ u.conf.steps = [] ∧
        u.lev.tier3Count = s.lev.tier3Count + 1)) ∧
    (s.lev.due = [] → Gives .hazardResponse s [] (fun _ => True)) ∧
    (s.lev.throttleEnd = some t → Gives .throttleEnd s [.levee, .time, .regs, .ports, .out] (fun u => u.nt.ns = max s.nt.ns t ∧
      u.lev = { s.lev with throttleEnd := none, tierNow := if s.lev.halted then 3 else 0 } ∧ bitOf (rd u (pgLev 0 + oIrqStat)) 3 = true)) ∧
    (s.lev.brownDue = true → s.supply.vin = true → s.supply.downEnd = none →
      Gives .brownOut s [.levee, .regs, .ports, .out, .gauge, .switch, .engines, .keyStore, .sems, .slices, .rings, .dies, .confluence, .cores, .sram, .streams,
          .random, .measures, .cards, .stores, .starts, .supply, .life] (fun u =>
        u.lev.brownDue = false ∧ u.lev.masked = true ∧ activeDie u = none ∧ u.supply.downEnd = some (s.nt.ns + 5000000) ∧ u.conf.steps = [])) ∧
    (s.lev.brownDue = false → Gives .brownOut s [] (fun _ => True)) ∧
    (GuardedOpen s who →
      ((s.life.state = .owned → levCtlLoose s.vault.lev (levCtlNew s.vault.lev w) = false) →
        Gives (.leveeConfigWrite who 0 0x128 w) s [.vault] (fun u => u.vault = { s.vault with lev := levCtlNew s.vault.lev w })) ∧
      (s.life.state = .owned → levCtlLoose s.vault.lev (levCtlNew s.vault.lev w) = true →
        Gives (.leveeConfigWrite who 0 0x128 w) s [.regs, .ports, .out] (fun u => bitOf (rd u (pgLev 0 + oErr0)) 16 = true))) ∧
    (s.lev.halted = false → (activeDie s).isSome = true →
      (s.gauge.owedFlags.contains h = false → Gives (.aoFlagClear h) s [.levee] (fun u => u.lev = { s.lev with
        flags := if (unwritten s).any (fun e => e.code == 0x0100 + h) then s.lev.flags else s.lev.flags.filter (fun y => y != h) })) ∧
      (s.gauge.owedFlags.contains h = true → Gives (.aoFlagClear h) s [.gauge, .regs, .switch] (fun u => u.lev = s.lev)) ∧
      Gives (.aoFlagClear 0x11) s [.levee] (fun u => u.lev = { s.lev with zeroised := s.lev.zeroised && (unwritten s).any (fun e => e.severity == 3) })) ∧
    ((s.lev.halted = true ∨ activeDie s = none) → Gives (.aoFlagClear h) s [] (fun _ => True))

/-! ### Noise and random numbers -/

/-- Noise sources of a die (R383 to R387) and raw sampling (R392, R393). `i` is the source. -/
def Obligations.NoiseSources : Prop :=
  ∀ (s : State) (who : Party) (d : Die) (i : Nat) (rct apt : Bool) (w v : Word) (blocks : List (List Byte)) (l : List Bool), i < 2 →
    (dieOf s d).inService = true →
    let r := rngOf s d
    let x := sourceOf s d i
    let fails := recentFails x.fails s.nt.ns ++ [s.nt.ns]
    let others := fun u : State => sourceOf u d (1 - i) = sourceOf s d (1 - i) ∧ rngOf u (otherDie d) = rngOf s (otherDie d)
    let counts := fun u : State => getF (rd u (pgRng d i + 0x108)) 0 16 = min (getF (rd s (pgRng d i + 0x108)) 0 16 + (if rct then 1 else 0)) 0xFFFF ∧
      getF (rd u (pgRng d i + 0x108)) 16 16 = min (getF (rd s (pgRng d i + 0x108)) 16 16 + (if apt then 1 else 0)) 0xFFFF
    let row := pgRng d 0 + 0x1A8
    let gained := fun (c : Word) => (((blocks.map samplesOf).filter blockPasses).map (debias (bitOf c 1))).flatten
    let all := (if r.bitsSource = i then r.bits else []) ++ gained r.ctl
    let taken := (r.rawBits ++ rawTaken r blocks).take r.rawCount
    (l.length = 1024 → (debias false l).length = 512 ∧ (debias true l).length ≤ 512) ∧
    (r.ctlNext = none → (rct = true ∨ apt = true) →
      ((x.mode = .running ∨ x.mode = .startup) → fails.length < 4 →
        Gives (.noiseBlockFail d i rct apt) s [.random, .regs, .ports, .out, .gauge, .switch] (fun u => others u ∧ counts u ∧
          sourceOf u d i = { x with mode := .restarting, fails := fails, holdEnd := s.nt.ns + 10000 } ∧ bitOf (rd u (pgRng d i + oIrqStat)) 1 = true)) ∧
      ((x.mode = .running ∨ x.mode = .startup) → 4 ≤ fails.length → (sourceOf s d (1 - i)).mode ≠ .fatal →
        Gives (.noiseBlockFail d i rct apt) s [.random, .regs, .ports, .out, .gauge, .switch, .dies, .confluence] (fun u => others u ∧
          sourceOf u d i = { x with mode := .fatal, fails := fails } ∧ (dieOf u d).declaredFatal = (dieOf s d).declaredFatal ∧
          bitOf (rd u (pgRng d i + oIrqStat)) 2 = true)) ∧
      ((x.mode = .running ∨ x.mode = .startup) → 4 ≤ fails.length → (sourceOf s d (1 - i)).mode = .fatal → activeDie s = some d → duplex s = true →
        (dieOf s d).declaredFatal = none →
        Gives (.noiseBlockFail d i rct apt) s [.random, .regs, .ports, .out, .gauge, .switch, .dies, .confluence] (fun u =>
          (dieOf u d).declaredFatal = some 3 ∧ u.sw.token = s.sw.token)) ∧
      (x.mode = .raw → Gives (.noiseBlockFail d i rct apt) s [.regs] counts)) ∧
    (x.mode = .restarting → Gives (.sourceRestartExpiry d i) s [.random, .time] (fun u => others u ∧
      sourceOf u d i = { x with mode := .startup } ∧ u.nt.ns = max s.nt.ns x.holdEnd)) ∧
    (r.ctlNext = none → x.mode = .startup → Gives (.sourceStartupDone d i) s [.random] (fun u => others u ∧
      sourceOf u d i = { x with mode := .running })) ∧
    (r.ctlNext = none → feeding r = some i →
      (1024 ≤ all.length → r.seeds.length < 64 → (dieOf s d).failed.contains (7, 2) = false →
        Gives (.seedConditioned d blocks) s [.random, .regs, .dies] (fun u => rngOf u (otherDie d) = rngOf s (otherDie d) ∧
          rngOf u d = { r with bits := all.drop 1024, bitsSource := i, seeds := r.seeds ++ [(hash .sha512 (bytesOf (all.take 1024))).take 48] })) ∧
      ((all.length < 1024 ∨ 64 ≤ r.seeds.length) → Gives (.seedConditioned d blocks) s [.random] (fun u =>
        rngOf u d = { r with bits := all, bitsSource := i } ∧ rngOf u (otherDie d) = rngOf s (otherDie d)))) ∧
    (r.ctlNext = none → feeding r = none → Gives (.seedConditioned d blocks) s [] (fun _ => True)) ∧
    (r.ctlNext = some w → feeding { r with ctl := w } = some i → (gained w).length < 1024 →
      Gives (.seedConditioned d blocks) s [.random, .regs, .ports, .out] (fun u =>
        rngOf u d = { r with ctl := w, ctlNext := none, seeds := [], bits := gained w, bitsSource := i })) ∧
    (GuardedOpen s who → windowUp s (pgRng d 0) = true → Gives (.rngDieCtlWrite who d w) s [.random, .regs] (fun u =>
      rngOf u d = { r with ctlNext := some (w &&& mask 0 2) } ∧ rd u (pgRng d 0 + 0x180) = w &&& mask 0 2)) ∧
    (r.rawState = 1 →
      (taken.length < r.rawCount → Gives (.rawSamplesCaptured d blocks) s [.random] (fun u =>
        rngOf u d = { r with rawBits := taken, captured := taken.length })) ∧
      (taken.length = r.rawCount → Gives (.rawSamplesCaptured d blocks) s [.random, .regs, .ports, .out] (fun u =>
        rngOf u d = { r with rawState := 2, rawBits := [], captured := r.rawCount, readyNt := s.nt.ns,
                             rawBuf := (chunks 8 (bytesOf taken)).map (fun b => BitVec.ofNat 64 (leAt b 0 8)) } ∧
        bitOf (rd u (pgRng d 0 + oIrqStat)) 3 = true))) ∧
    (r.rawState = 2 → r.rawSource = i → x.mode = .raw → Gives (.rawSamplingEnd d) s [.random, .time] (fun u => others u ∧
      (rngOf u d).rawState = 0 ∧ (rngOf u d).rawBuf = [] ∧ sourceOf u d i = { x with mode := .startup } ∧
      u.nt.ns = max s.nt.ns (r.readyNt + 600000000000))) ∧
    (arrives s who = true → s.lev.halted = false → route s row = .at_ ⟨.rng, 0, dieNo d + 1⟩ (pgRng d 0) → r.rawState = 2 →
      r.rawBuf[r.readSoFar / 64]? = some v →
      (r.readSoFar + 64 < r.rawCount → Gives (.rngRawDataRead who d) s [.random, .out] (fun u => u.out = s.out ++ [.readData who v] ∧
        rngOf u d = { r with readSoFar := r.readSoFar + 64 })) ∧
      (r.rawCount = r.readSoFar + 64 → Gives (.rngRawDataRead who d) s [.random, .out] (fun u => u.out = s.out ++ [.readData who v] ∧
        (rngOf u d).rawState = 0 ∧ (rngOf u d).rawBuf = [])))

/-! ### Memory and units -/

/-- Memory errors (R345, R398 to R401), accesses of one cycle (R397), protection (R407 to R409) and integrity codes (R412, R413). The
addresses from 0x8000000 on name Eddy entries (log entry 63). -/
def Obligations.MemoryErrors : Prop :=
  ∀ (s : State) (who : Party) (d : Die) (a k c kind pc bank row n p q : Nat) (t : Step) (passes : Bool) (fixes : List (Nat × Bool)) (b1 b2 body : List Byte)
    (f f' : Flit), (dieOf s d).inService = true →
    let b := bankOf s d (bankAt a)
    let told : List Part := [.regs, .ports, .out, .gauge, .switch, .levee, .confluence, .dies, .banks, .free]
    let ending : List Part := [.regs, .ports, .out, .gauge, .switch, .levee, .confluence, .dies, .cores, .engines, .sram, .keyStore, .sems, .ceremonies, .stores]
    let found := fun u : State => getF (rd u (pgMem d (bankAt a) + 0x100)) 32 16 = min (getF (rd s (pgMem d (bankAt a) + 0x100)) 32 16 + 1) 0xFFFF ∧
      bitOf (rd u (pgMem d (bankAt a) + oIrqStat)) 1 = true ∧ (bankOf u d (bankAt a)).errRow = some (rowAt a) ∧
      ((mget b.rowMap (rowAt a)).isNone = true → (bankOf u d (bankAt a)).marked.contains (rowAt a) = true)
    let forced := fun u : State => RegsBut [pgMem d 0 + 0x180] s u ∧
      getF (rd u (pgMem d 0 + 0x180)) 32 32 = min (getF (rd s (pgMem d 0 + 0x180)) 32 32 + 1) 0xFFFFFFFF
    let plain := a % 8 = 0 ∧ (regionAt a = .scratch ∨ regionAt a = .firmware ∨ regionAt a = .streams)
    let word := fun u : State => sramWord u d (a / 8)
    let again := fun m : State => (stepOf m k).map (fun v => (v.phase, v.ran, v.result)) = some (.parked, false, none)
    let runs := stepOf s k = some t ∧ t.seq = none ∧ (sliceOf s t.sliceNo).mode ≠ .squashing ∧ activeDie s = some d ∧ s.sw.gap = none
    let ended := fun u : State => (stepOf u k).all (fun v => v.ending == some stProtection || v.result.map (·.status) == some stProtection) = true
    (plain → b1.length = 8 → b2.length = 8 → p < q → q < 4 → p ≠ 1 → q ≠ 1 →
      Gives (.sramPatrolForced d bank [⟨q, none, a, 8, some b2⟩, ⟨p, none, a, 8, some b1⟩]) s [.regs, .sram] (fun u => forced u ∧
        word u = BitVec.ofNat 64 (leAt b2 0 8))) ∧
    (plain → b1.length = 8 → coreMay s d ⟨2 + c % 2, some c, a, 8, none⟩ = true → (coreOf s c).buffer = [] →
      Gives (.sramPatrolForced d bank [⟨0, none, a, 8, some b1⟩, ⟨2 + c % 2, some c, a, 8, none⟩]) s [.regs, .sram, .cores] (fun u => forced u ∧
        (coreOf u c).loaded = leBytes 8 (word s).toNat ∧ word u = BitVec.ofNat 64 (leAt b1 0 8))) ∧
    (bank < 64 → (bankOf s d bank).marked.contains row = true → (bankOf s d bank).used.length = 8 → row < 8192 →
      (bankOf s d bank).used.getD (groupAt row) 0 = n → (n < 2 → Gives (.rowReplace d bank row) s told (fun u =>
        mget (bankOf u d bank).rowMap row = some (2 * groupAt row + n) ∧ (bankOf u d bank).marked.contains row = false ∧
        (bankOf u d bank).used.getD (groupAt row) 0 = n + 1 ∧ (dieOf u d).sramRowsUsed = (dieOf s d).sramRowsUsed + 1 ∧
        bitOf (rd u (pgMem d bank + oIrqStat)) 2 = true)) ∧
      (2 ≤ n → Gives (.rowReplace d bank row) s told (fun u => (bankOf u d bank).rowMap = (bankOf s d bank).rowMap ∧
        (bankOf u d bank).marked.contains row = false ∧ bitOf (rd u (pgMem d bank + oIrqStat)) 3 = true))) ∧
    (a < 0x8000000 → regionAt a = .firmware → (dieOf s d).declaredFatal = none →
      GivesThen (.sramUncorrectable d a n passes) s settle told (fun m => found m ∧ (dieOf m d).declaredFatal = if passes then some 2 else none)) ∧
    (runs → regionAt a = .scratch → (coreOf s ((a - 0x5000000) / 0x8000)).exec = some k → t.phase = .executing c →
      GivesThen (.sramUncorrectable d a n passes) s settle (.banks :: .free :: ending) (fun m => found m ∧ again m)) ∧
    (runs → t.phase = .inEddy c n → n < 4 → (coreOf s c).eddy[n]? = some ⟨.held, k⟩ →
      GivesThen (.sramUncorrectable d (0x8000000 + 4 * c + n) p passes) s settle ending again) ∧
    (regionAt a = .pool → a % 64 < 48 →
      ((poolQueue s d 25).items.any (fun e => e.1 == a / 64) = true → GivesThen (.poolUncorrectable d a) s settle (told ++ ending) (fun m => found m ∧
        bitOf (rd m (pgPol d + oIrqStat)) 2 = true ∧ bitOf (rd m (pgPol d + oIrqStat)) 3 = true ∧
        min ((poolQueue s d 25).lost + 1) 0xFFFFFFFF ≤ (poolQueue m d 25).lost)) ∧
      (runs → duplex s = false → t.phase = .parked → t.cells.contains (a / 64) = true →
        GivesThen (.poolUncorrectable d a) s settle (told ++ ending) (fun m => found m ∧
          (stepOf m k).map (fun v => v.result.map (·.status)) = some (some stIntegrity)))) ∧
    (regionAt a = .pool → 48 ≤ a % 64 → GivesThen (.poolUncorrectable d a) s settle told (fun m => found m ∧
      getF (rd m (pgPol d + 0x110)) 48 16 = min (getF (rd s (pgPol d + 0x110)) 48 16 + 1) 0xFFFF)) ∧
    (serving s = true → activeDie s = some d → coreRunning s k = some c → stepOf s k = some t → t.ending = none → c < 288 → a < 0x8000000 →
      ((kind = 0 ∨ kind = 1 ∨ kind = 3) → (t.ahead = true → t.guardOk = none ∧ (entryOf s k).isSome = true) →
        GivesThen (.mpuPreciseTrap k kind a pc) s settle ending (fun m => ended m ∧
          rd m (pgMpu d c + 0x120) = fld 0 27 a ∧ rd m (pgMpu d c + 0x128) = fld 0 32 pc ∧
          bitOf (rd m (pgMpu d c + oIrqStat)) (if kind = 3 then 2 else 1) = true)) ∧
      ((coreOf s c).buffer = [] → ruleAllows (if (rulesOf s c).active = 0 then (rulesOf s c).set0 else (rulesOf s c).set1) a true = false →
        Gives (.mpuBufferedStoreRefused k [(a, body)]) s ending (fun u => ended u ∧ rd u (pgMpu d c + 0x120) = fld 0 27 a ∧
          getF (rd u (pgMpu d c + 0x108)) 16 16 = min (getF (rd s (pgMpu d c + 0x108)) 16 16 + 1) 0xFFFF ∧
          (∀ w, sget (fun _ => 0) (sramOf u d) w = sget (fun _ => 0) (sramOf s d) w))) ∧
      (plain → (coreOf s c).buffer = [] → b1.length = 8 →
        ruleAllows (if (rulesOf s c).active = 0 then (rulesOf s c).set0 else (rulesOf s c).set1) a true = true →
        Gives (.mpuBufferedStoreRefused k [(a, b1)]) s [.sram, .cores] (fun u => word u = BitVec.ofNat 64 (leAt b1 0 8) ∧ (coreOf u c).buffer = []))) ∧
    (flitPasses f = false → Gives (.integrityMismatch d f f') s [.regs, .ports, .out, .switch, .levee, .confluence, .dies] (fun u =>
      getF (rd u (pgMem d 0 + 0x188)) 0 16 = min (getF (rd s (pgMem d 0 + 0x188)) 0 16 + 1) 0xFFFF ∧
      getF (rd u (pgMem d 0 + 0x188)) 16 16 = min (getF (rd s (pgMem d 0 + 0x188)) 16 16 + (if flitPasses f' then 1 else 0)) 0xFFFF)) ∧
    (flitPasses f = true → Gives (.integrityMismatch d f f') s [] (fun _ => True)) ∧
    (flitPasses f = false → serving s = true →
      GivesThen (.integritySecondMismatch d f 4 (8 * n + p) who) s settle (.rings :: .slices :: told) (fun m => bitOf (rd m (pgMem d 0 + oIrqStat)) 4 = true ∧
        (p < 8 → (ringOf m n p).fetch = none ∧ RingsBut n p s m)) ∧
      GivesThen (.integritySecondMismatch d f 6 a who) s settle told (fun m => bitOf (rd m (pgMem d 0 + oErr0)) 16 = true ∧
        getF (rd m (pgMem d 0 + 0x188)) 32 16 = min (getF (rd s (pgMem d 0 + 0x188)) 32 16 + 1) 0xFFFF)) ∧
    Gives (.patrolPass d fixes) s told (fun u => (bank < 64 → (bankOf u d bank).fixes = []) ∧
      getF (rd u (pgMem d 0 + 0x180)) 0 32 = min (getF (rd s (pgMem d 0 + 0x180)) 0 32 + 1) 0xFFFFFFFF ∧
      (sget (fun _ => 0) b.fixes (rowAt a) = 7 → fixes = [(a, passes)] → (mget b.rowMap (rowAt a)).isNone = true →
        (bankOf u d (bankAt a)).marked.contains (rowAt a) = true))

/-- Units (R447, R448), the queues of the Pool (R347, R349), the governor (R541 to R544) and the battery (R536). -/
def Obligations.UnitsQueuesAndGovernor : Prop :=
  ∀ (s : State) (who : Party) (d : Die) (kind inst power mv q j : Nat) (lid lid0 lid1 temp : Int) (e : Nat × Nat) (item : Nat × List Byte) (rest : List (Nat × List Byte)),
    let x := dieOf s d
    let y := s.supply
    let told : List Part := [.regs, .ports, .out, .gauge, .switch, .confluence, .dies]
    let out := [Part.cores, .engines, .sram, .keyStore, .sems, .ceremonies, .stores] ++ told
    let sampled := { y with lid := lid, power := power, temp := temp }
    let sample := fun (z : Supply) => lid = max lid0 lid1 → Gives (.governorSample lid0 lid1 temp power) s [.time, .supply, .regs] (fun u => u.supply = z ∧
      u.nt.ns = (s.nt.ns / 1000000 + 1) * 1000000)
    (mayTest s d kind inst = true →
      GivesThen (.unitSelftest d kind inst true false) s settle (.engines :: told) (fun m =>
        (dieOf m d).failed = x.failed ∧ (dieOf m d).spares = x.spares ∧ (dieOf m d).selftestOn = true ∧
        getF (rd m (pgHlt d + 0x130)) 0 32 = min (getF (rd s (pgHlt d + 0x130)) 0 32 + 1) 0xFFFFFFFF ∧
        (kind = 2 → getF (rd m (pgBnl d inst + 0x108)) 32 32 = min (getF (rd s (pgBnl d inst + 0x108)) 32 32 + 1) 0xFFFFFFFF)) ∧
      (1 ≤ kind → kind ≤ 3 → GivesThen (.unitSelftest d kind inst false false) s settle out (fun m =>
        (dieOf m d).failed = x.failed ++ [(kind, inst)] ∧ getF (rd m (pgHlt d + 0x130)) 32 32 = min (getF (rd s (pgHlt d + 0x130)) 32 32 + 1) 0xFFFFFFFF))) ∧
    (x.inService = true → 1 ≤ kind → kind ≤ 3 → inst < unitCount kind → x.failed.contains (kind, inst) = false →
      GivesThen (.unitFailed d kind inst) s settle out (fun m =>
        (dieOf m d).failed = x.failed ++ [(kind, inst)] ∧ (dieOf m d).lastFailKind = kind ∧ (dieOf m d).lastFailInst = inst ∧
        bitOf (rd m (pgHlt d + oIrqStat)) 2 = true)) ∧
    (x.inService = true → inst < 16 → x.failed.contains (4, inst) = false → GivesThen (.unitFailed d 4 inst) s settle out (fun m =>
      (dieOf m d).failed.contains (4, inst) = true ∧ (j < 18 → (dieOf m d).failed.contains (1, 18 * inst + j) = true))) ∧
    (x.inService = true → mayReplace inst = true → x.failed.contains (6, inst) = false → Gives (.unitFailed d 6 inst) s told (fun u =>
      (dieOf u d).failed = x.failed ++ [(6, inst)] ∧ (dieOf u d).lastFailKind = 6)) ∧
    (x.inService = true → x.failed.find? (fun z => z.1 == 6) = some e → sectorsUsed s d < 32768 → Gives (.spareSubstituted d 6) s (.stores :: told) (fun u =>
      (dieOf u d).failed = x.failed.erase e ∧ (mget (mramOf u d).sectors e.2).any (fun i => decide (i < 32768) && (mramOf s d).sectors.all (fun z => z.2 != i)) = true)) ∧
    (x.inService = true → 1 ≤ kind → kind ≤ 3 → x.spares.find? (fun z => z.1 == kind) = some e → unitsUp x kind < unitNominal kind →
      s.conf.steps = [] → s.conf.refused = [] → s.kst.marks = [] →
      Gives (.spareSubstituted d kind) s told (fun u => (dieOf u d).spares = x.spares.erase e ∧ (dieOf u d).failed = x.failed ∧
        bitOf (rd u (pgHlt d + oIrqStat)) 3 = true)) ∧
    (arrives s who = true → s.lev.halted = false → route s (pgPol d + 0x140) = .at_ ⟨.pol, 0, dieNo d + 1⟩ (pgPol d) → qsel s d = q → (q = 24 ∨ q = 25) →
      ((poolQueue s d q).items = item :: rest → Gives (.polQread0Read who d) s [.confluence, .dies, .regs, .out] (fun u =>
        u.out = s.out ++ [.readData who (BitVec.ofNat 64 (leAt item.2 0 8))] ∧ poolQueue u d q = { poolQueue s d q with items := rest } ∧
        rd u (pgPol d + 0x168) = BitVec.ofNat 64 (leAt item.2 40 8))) ∧
      ((poolQueue s d q).items = [] → Gives (.polQread0Read who d) s [.dies, .regs, .out] (fun u =>
        u.out = s.out ++ [.readData who 0xFFFFFFFF00000000] ∧ rd u (pgPol d + 0x148) = 0 ∧ poolQueue u d q = poolQueue s d q))) ∧
    (GuardedOpen s who → windowUp s (pgPol d) = true → qsel s d = q → (q = 24 ∨ q = 25) → (poolQueue s d q).items ≠ [] →
      Gives (.polFlush who d) s [.confluence, .dies, .regs, .ports, .out] (fun u =>
        poolQueue u d q = { poolQueue s d q with
          items := [], lost := min ((poolQueue s d q).lost + (poolQueue s d q).items.length + (if x.latched.any (fun z => z.1 == q) then 1 else 0)) 0xFFFFFFFF } ∧
        bitOf (rd u (pgPol d + oIrqStat)) 3 = true)) ∧
    (wardenUp s = true →
      (y.capped = false → y.emergency = false → temp < 1760 → 1520 ≤ lid → sample { sampled with capped := true }) ∧
      (y.capped = false → y.emergency = false → temp < 1760 → lid < 1520 → sample sampled) ∧
      (y.capped = false → y.emergency = false → 1760 ≤ temp → lid < 1520 → sample { sampled with emergency := true, bnlStep := 6, clockStep := 8 }) ∧
      (y.capped = true → y.emergency = false → temp < 1760 → 1360 < lid → 850 < power → y.bnlStep < 6 →
        sample { sampled with bnlStep := y.bnlStep + 1, cappedMs := y.cappedMs + 1 }) ∧
      (y.capped = false → y.emergency = false → 0 < y.clockStep + y.bnlStep → Gives .governorStepRemoval s [.time, .supply] (fun u =>
        u.nt.ns = max s.nt.ns (y.lastRemoval + 10000000) ∧ u.supply.lastRemoval = u.nt.ns ∧ u.supply.clockStep = y.clockStep - 1 ∧
        u.supply.bnlStep = if y.clockStep = 0 then y.bnlStep - 1 else y.bnlStep))) ∧
    (y.vaux = true → y.batteryLow = false → mv < 2700 → Gives (.batteryLow mv) s [.supply, .regs, .ports, .out] (fun u =>
      u.supply = { y with batteryLow := true, vbatMv := mv } ∧ bitOf (rd u (pgLev 3 + oIrqStat)) 1 = true)) ∧
    ((y.vaux = false ∨ y.batteryLow = true ∨ 2700 ≤ mv) → Gives (.batteryLow mv) s [] (fun _ => True))

/-! ### Power and starts -/

/-- Supplies (R24 to R27, R425, R533 to R536). -/
def Obligations.PowerSupply : Prop :=
  ∀ (s : State) (n p : Nat), s.supply.alwaysOn = s.supply.vaux →
    let y := s.supply
    let downed : List Part := [.regs, .ports, .out, .sems, .slices, .rings, .dies, .switch, .confluence, .cores, .keyStore, .engines, .sram, .streams,
      .random, .measures, .cards, .starts, .gauge, .supply, .life, .stores]
    let down := fun u : State => activeDie u = none ∧ u.conf.steps = [] ∧ u.kst.cache = [] ∧ ringOf u n p = {} ∧ sramOf u .d0 = [] ∧ sramOf u .d1 = [] ∧
      u.supply.downEnd = some (s.nt.ns + 5000000) ∧ u.starts.due = none ∧ (portOf u .a).linkUp = false ∧ (semOf u 0).holder = none ∧
      u.conf.commitSeq = s.conf.commitSeq ∧ (∀ d : Die, (mramOf u d).dirs = (mramOf s d).canon.dirs ∧ (mramOf u d).home = (mramOf s d).canon.home)
    let due := fun u : State => u.starts.due = some 0 ∧ u.lev.masked = false ∧ u.starts.step = 0
    let battery := fun u : State => u.supply.vaux = false ∧ u.supply.alwaysOn = false ∧ u.lev.flags = s.lev.flags ∧ u.lev.halted = s.lev.halted ∧
      u.lev.due = [] ∧ u.lev.throttleEnd = none ∧ u.life.staging = []
    (y.vin = false → y.vaux = true → y.downEnd = none → Gives .vinArrival s [.supply, .starts, .levee] (fun u => due u ∧ u.supply = { y with vin := true })) ∧
    (y.vin = false → (y.vaux = false ∨ y.downEnd ≠ none) → Gives .vinArrival s [.supply] (fun u => u.supply = { y with vin := true })) ∧
    (y.vin = true → Gives .vinArrival s [] (fun _ => True)) ∧
    (y.vin = true → y.vaux = true → y.downEnd = none → Gives .vinLoss s downed (fun u => down u ∧ u.supply.vin = false)) ∧
    (y.vin = true → (y.vaux = false ∨ y.downEnd ≠ none) → Gives .vinLoss s [.supply] (fun u => u.supply = { y with vin := false })) ∧
    (y.vin = false → Gives .vinLoss s [] (fun _ => True)) ∧
    (y.downEnd ≠ none → y.vin = true → y.vaux = true → Gives .powerDownDone s [.supply, .starts, .levee] (fun u => due u ∧ u.supply.downEnd = none)) ∧
    (y.downEnd ≠ none → (y.vin = false ∨ y.vaux = false) → Gives .powerDownDone s [.supply] (fun u => u.supply = { y with downEnd := none })) ∧
    (y.downEnd = none → Gives .powerDownDone s [] (fun _ => True)) ∧
    (y.vin = true → y.vaux = true → y.downEnd = none → Gives .vauxLoss s (.levee :: downed) (fun u => down u ∧ battery u)) ∧
    ((y.vin = false ∨ y.downEnd ≠ none) → y.vaux = true → Gives .vauxLoss s [.supply, .regs, .levee, .life] battery) ∧
    (y.vaux = false → Gives .vauxLoss s [] (fun _ => True)) ∧
    (y.vaux = false → Gives .vauxReturn s [.supply, .time, .levee, .gauge, .starts] (fun u => u.supply.vaux = true ∧ u.supply.alwaysOn = true ∧
      u.nt.ns = s.vault.ntFloor + 1000000000 ∧ u.nt.trust = .untrusted ∧ (y.vin = true → u.starts.due = some 0))) ∧
    (y.vaux = true → Gives .vauxReturn s [] (fun _ => True)) ∧
    (y.vaux = false → Gives .alwaysOnPowerLost s (.levee :: .vault :: .free :: downed) (fun u => u.vault.keptBad = true ∧ u.vault.ownerRoot = none ∧
      u.vault.transferKey = [] ∧ u.vault.instSeed = [] ∧ activeDie u = none ∧ u.kst.marks = [])) ∧
    (y.vaux = true → Gives .alwaysOnPowerLost s [] (fun _ => True))

/-- Starts (R485 to R493). `r` is what a start meets. -/
def Obligations.Starts : Prop :=
  ∀ (s : State) (who : Party) (r : StartReport) (k n c t : Nat) (x : Step) (slot0 slot1 : Bool) (d : Die),
    let all : List Part := [.regs, .ports, .out, .sems, .slices, .rings, .time, .dies, .switch, .stores, .vault, .confluence, .cores, .keyStore, .engines, .sram,
      .streams, .random, .measures, .banks, .supply, .levee, .life, .ceremonies, .cards, .starts, .gauge, .free]
    let kept := r.keptBad = true ∨ s.vault.keptBad = true
    let runs := fun (kind : Nat) (u : State) =>
      let lost := trialOver (reach s (s.nt.ns + r.ms * 1000000)) = true
      let fails := startFails kind r s
      let stops := kept ∨ (s.vault.recovery = true ∧ (kind ≠ 2 ∨ s.vault.recoveryKept = true))
      u.nt.ns = s.nt.ns + r.ms * 1000000 ∧ u.starts.elapsedMs = r.ms ∧ u.conf.steps = [] ∧ u.cer = [] ∧ (semOf u 0).holder = none ∧
      (r.lockstep = false → u.starts.failing = some 6 ∧ activeDie u = none) ∧
      (r.lockstep = true → s.lev.halted = true → mayLeaveHalt (startedTo2 kind r s) = false →
        u.lev.halted = true ∧ u.starts.step = 2 ∧ u.starts.failing = none ∧ u.starts.due = none ∧ activeDie u = none) ∧
      (r.lockstep = true → (s.lev.halted = false ∨ mayLeaveHalt (startedTo2 kind r s) = true) →
        (identityLost (startedTo8 kind r s) = true → u.starts.failing = some 3 ∧ activeDie u = none) ∧
        (identityLost (startedTo8 kind r s) = false → stops → u.starts.step = 9 ∧ u.vault.recovery = true ∧ u.starts.failing = none ∧ activeDie u = none ∧
          (kept → u.vault.recoveryKept = true ∧ u.starts.failCause = 2) ∧ (dieOf u d).inService = (match d with | .d0 => r.die0 | .d1 => r.die1)) ∧
        (¬ stops → lost → (fails = none ∨ fails = some 5) → u.vault.fwPhase = 3 ∧ u.starts.due = some 1 ∧ u.starts.failing = none ∧ activeDie u = none) ∧
        (¬ stops → ¬ (lost ∧ (fails = none ∨ fails = some 5)) → u.starts.due = none ∧ u.starts.failing = fails ∧ (activeDie u).isSome = fails.isNone ∧
          (activeDie u).all (fun d => (startDies kind r s).contains d) = true ∧
          (fails = none → u.starts.step = 13 ∧ u.vault.resetEpoch = s.vault.resetEpoch + 1 ∧ ((sliceOf u n).mode = .absent ∨ (sliceOf u n).mode = .active))))
    let recovery := arrives s who = true ∧ s.lev.halted = false ∧ (semOf s 0).holder = some who ∧ s.vault.recovery = true
    let refused := fun u : State => bitOf (rd u (pgWdn 0 + oErr0)) 16 = true ∧
      (bitOf (rd s (pgWdn 0 + oErr0)) 16 = false → getF (rd u (pgWdn 0 + oErr0)) 0 16 = 0x0101)
    (wardenUp s = true → s.starts.due = some 0 → Gives (.coldStart r) s all (runs 0)) ∧
    (warmReady s = true → s.starts.due = some k → 1 ≤ k → Gives (.warmStart r) s all (runs k)) ∧
    ((wardenUp s = false ∨ s.starts.due ≠ some 0) → Gives (.coldStart r) s [] (fun _ => True)) ∧
    ((warmReady s = false ∨ s.starts.due = none ∨ s.starts.due = some 0) → Gives (.warmStart r) s [] (fun _ => True)) ∧
    (s.starts.quiesceEnd = some t → s.conf.steps.all (fun e => isCommitted e.2) = true → Gives .quiesceEnd s [.starts] (fun u =>
      u.starts = { s.starts with quiesceEnd := none, quiesced := true })) ∧
    (s.starts.quiesceEnd = some t → stepOf s k = some x → x.phase = .executing c → x.seq = none → x.ending = none →
      GivesThen .quiesceEnd s settle [.starts, .time, .confluence, .cores, .engines, .sram, .stores, .keyStore, .switch, .sems, .ceremonies, .regs, .ports, .out]
        (fun m => m.starts = { s.starts with quiesceEnd := none, quiesced := true } ∧ m.nt.ns = max s.nt.ns t ∧
          stepOf m k = some { x with ending := some stSliceReset })) ∧
    (s.starts.quiesceEnd = none → Gives .quiesceEnd s [] (fun _ => True)) ∧
    (s.starts.failing = some c →
      Gives (.startFailed slot0) s [.vault, .starts, .regs, .ports, .out, .gauge, .switch, .dies] (fun u =>
        let third := s.vault.recovery = true ∨ 3 ≤ (recentFailures s).length
        u.starts.failing = none ∧ u.vault.failNts = recentFailures s ∧ u.vault.lastFailNt = s.nt.ns ∧ bitOf (rd u (pgWdn 0 + oIrqStat)) 2 = true ∧
        (¬ third → u.vault.recovery = false ∧ u.starts.due = some 1) ∧
        (third → u.vault.recovery = true ∧ u.starts.due = s.starts.due ∧ u.starts.step = 9 ∧ bitOf (rd u (pgWdn 0 + oIrqStat)) 3 = true))) ∧
    (s.starts.failing = none → wardenUp s = true → (activeDie s).isSome = true → Gives (.startFailed true) s
      [.regs, .ports, .out, .slices, .rings, .dies, .switch, .confluence, .cores, .keyStore, .engines, .sram, .streams, .random, .measures, .gauge, .stores, .starts]
      (fun u => activeDie u = none ∧ u.conf.steps = [] ∧ u.starts.due = some 1 ∧ u.starts.quiesceEnd = none)) ∧
    (s.starts.failing = none → Gives (.startFailed false) s [] (fun _ => True)) ∧
    (GuardedOpen s who → s.starts.due = none → Gives (.wdnWarm who) s [.starts] (fun u =>
      u.starts = { s.starts with due := some 1, quiesceEnd := some (s.nt.ns + 10000000), quiesced := false })) ∧
    (GuardedOpen s who → s.starts.due.isSome = true → Gives (.wdnWarm who) s [] (fun _ => True)) ∧
    (recovery → Gives (.wdnWarm who) s [.regs, .ports, .out] refused) ∧
    (recovery → s.vault.recoveryKept = false → s.starts.due = none → Gives (.wdnRecover who slot0 slot1) s [.starts, .regs, .ports, .out] (fun u =>
      let ok := bootable s .d0 (if slot0 then 1 else 0) && bootable s .d1 (if slot1 then 1 else 0)
      u.starts.due = (if ok then some 2 else none) ∧ (ok = true → u.starts.recover0 = (if slot0 then 1 else 0) ∧ u.starts.recover1 = (if slot1 then 1 else 0)) ∧
      (ok = false → refused u))) ∧
    (recovery → (s.vault.recoveryKept = true ∨ s.starts.due.isSome = true) → Gives (.wdnRecover who slot0 slot1) s [.regs, .ports, .out] refused) ∧
    (GuardedOpen s who → Gives (.wdnRecover who slot0 slot1) s [.regs, .ports, .out] refused) ∧
    (GuardedOpen s who → mayConfirm s = false → Gives (.wdnConfirm who) s [.regs, .ports, .out] refused) ∧
    (GuardedOpen s who → mayConfirm s = true → Gives (.wdnConfirm who) s [.vault, .regs, .ports, .out, .gauge, .switch] (fun u =>
      bootOf u d = { bootOf s d with trial := false } ∧ bitOf (rd u (pgWdn 1 + oIrqStat)) 2 = true ∧
      (activeDie s = some d → u.vault.burnTarget = imageByte (fwSlotOf s d (bootOf s d).slot) 6) ∧
      u.vault.fwPhase = if rollbackCounter s < u.vault.burnTarget then 2 else 0))

/-- Firmware (R496 to R503). `f` is the inactive slot of a die. -/
def Obligations.FirmwareSlots : Prop :=
  ∀ (s : State) (who : Party) (d : Die) (len n : Nat) (w : Word) (ok : Bool),
    let f := target s d
    let up := GuardedOpen s who ∧ windowUp s (pgFwu d) = true
    let kept := fun u : State => fwSlotOf u d (1 - inactiveSlot s d) = fwSlotOf s d (1 - inactiveSlot s d) ∧ mramOf u (otherDie d) = (mramOf s (otherDie d)).canon
    let slot := fun (g : FwSlot) (u : State) => target u d = g ∧ kept u
    let refused := fun u : State => bitOf (rd u (pgFwu d + oErr0)) 16 = true ∧
      (bitOf (rd s (pgFwu d + oErr0)) 16 = false → getF (rd u (pgFwu d + oErr0)) 0 16 = 0x0101)
    let back := fun u : State => u.vault.fwPhase = 3 ∧ (∀ e : Die, bootOf u e =
      { bootOf s e with slot := (bootOf s e).prevSlot, prevSlot := (bootOf s e).slot, trial := false }) ∧ bitOf (rd u (pgWdn 1 + oIrqStat)) 3 = true ∧
      (u.starts.rollout = true ∨ u.starts.due.isSome = true)
    let legal := len % 8 = 0 ∧ 8192 ≤ len ∧ len ≤ 134217728
    let count := rollbackCounter s
    let cell := fuseCode (0x415201 + count)
    (up → verifying s d = false → legal → Gives (.fwuDlOpen who d len) s [.stores] (slot { length := len })) ∧
    (up → verifying s d = true → Gives (.fwuDlOpen who d len) s [.regs, .ports, .out] refused) ∧
    (up → verifying s d = false → ¬ legal → Gives (.fwuDlOpen who d len) s [] (fun _ => True)) ∧
    (up → 8 * f.words.length < f.length → f.stage < 2 → Gives (.fwuDlData who d w) s [.stores] (slot { f with words := f.words ++ [w], stage := 1 })) ∧
    (up → (f.length ≤ 8 * f.words.length ∨ 2 ≤ f.stage) → Gives (.fwuDlData who d w) s [.regs, .ports, .out] refused) ∧
    (up → f.stage = 1 → 8 * f.words.length = f.length → Gives (.fwuDlClose who d) s [.stores, .regs, .ports, .out] (fun u =>
      slot (showImage s { f with stage := 2 }) u ∧ bitOf (rd u (pgFwu d + oIrqStat)) 1 = true)) ∧
    (up → (f.stage ≠ 1 ∨ 8 * f.words.length ≠ f.length) → Gives (.fwuDlClose who d) s [] (fun _ => True)) ∧
    (up → f.stage = 2 → Gives (.fwuDlVerify who d) s [.stores] (slot { f with stage := 3, result := 0 })) ∧
    (up → f.stage ≠ 2 → Gives (.fwuDlVerify who d) s [] (fun _ => True)) ∧
    ((dieOf s d).inService = true → f.stage = 3 → Gives (.fwuVerifyDone d) s [.stores, .regs, .ports, .out] (fun u =>
      (target u d).result = imageResult s f ∧ (target u d).stage = (if imageResult s f = 1 then 4 else 6) ∧ (target u d).words = f.words ∧
      kept u ∧ bitOf (rd u (pgFwu d + oIrqStat)) (if imageResult s f = 1 then 2 else 3) = true)) ∧
    (((dieOf s d).inService = false ∨ f.stage ≠ 3) → Gives (.fwuVerifyDone d) s [] (fun _ => True)) ∧
    (s.vault.fwPhase = 1 → wardenUp s = true → s.starts.step ≠ 0 →
      Gives .confirmWindowExpiry s [.vault, .starts, .time, .regs, .ports, .out, .gauge, .switch] (fun u => back u ∧
        u.nt.ns = max s.nt.ns (s.vault.activatedNt + 600000000000))) ∧
    (s.vault.fwPhase = 1 → s.starts.trialLost = n + 1 →
      (s.vault.trialFails = 0 → Gives .trialBootFailed s [.vault, .starts, .regs, .ports, .out] (fun u => u.vault = { s.vault with trialFails := 1 } ∧
        u.starts = { s.starts with trialLost := n } ∧ bitOf (rd u (pgWdn 1 + oIrqStat)) 4 = true)) ∧
      (1 ≤ s.vault.trialFails → Gives .trialBootFailed s [.vault, .starts, .regs, .ports, .out, .gauge, .switch] back)) ∧
    (s.vault.fwPhase ≠ 1 → Gives .confirmWindowExpiry s [] (fun _ => True) ∧ Gives .trialBootFailed s [] (fun _ => True)) ∧
    (s.vault.fwPhase = 2 → wardenUp s = true → 4 ≤ s.starts.step →
      (count < min 64 s.vault.burnTarget → Gives (.antiRollbackBurn ok) s [.vault, .life] (fun u =>
        fuseWord u (80 + count) = (if ok then ⟨⟨cell, cell, cell⟩, ⟨cell, cell, cell⟩⟩ else ⟨⟨0, cell, cell⟩, ⟨0, 0, cell⟩⟩) ∧
        (ok = false → u.life.rewrites.contains (80 + count) = true) ∧
        u.vault.fwPhase = if min 64 s.vault.burnTarget ≤ rollbackCounter u then 0 else 2)) ∧
      (min 64 s.vault.burnTarget ≤ count → Gives (.antiRollbackBurn ok) s [.vault] (fun u => u.vault = { s.vault with fwPhase := 0 })))

/-- The life cycle (R469 to R476) and the fuses (R479 to R484). `burnt` is a word after its burn. -/
def Obligations.LifeCycleAndFuses : Prop :=
  ∀ (s : State) (who : Party) (d : Die) (w data : Word) (n v sl : Nat) (temp : Int) (ok spareOk : Bool) (reads : List FuseRead) (m : LifeMark)
      (rest : List Nat),
    let up := GuardedOpen s who
    let idle := up ∧ s.life.busy = false
    let refused := fun (pg : Nat) (u : State) => bitOf (rd u (pg + oErr0)) 16 = true ∧
      (bitOf (rd s (pg + oErr0)) 16 = false → getF (rd u (pg + oErr0)) 0 16 = 0x0101)
    let busied := fun (c : Instr) => up → s.life.busy = true → Gives c s [.regs, .ports, .out] (refused pgLcc)
    let burnt := fun (u : State) (k value : Nat) (ok : Bool) =>
      let c := fuseCode value
      fuseWord u k = if ok then ⟨⟨c, c, c⟩, ⟨c, c, c⟩⟩ else ⟨⟨0, c, c⟩, ⟨0, 0, c⟩⟩
    let waits := fun (c : Instr) => wardenHas s = false → Gives c s [.sems] (fun u =>
      ((semOf s 0).holder = none → wardenHas u = true) ∧ ((semOf s 0).holder ≠ none → u.wardenWaiting = true ∧ (semOf u 0).holder = (semOf s 0).holder))
    let asked := fun (u : State) => u.wardenWaiting = true ∨ wardenHas u = true
    let freed := fun (u : State) => (semOf u 0).holder = none
    let wiped : List Part := [.regs, .ports, .out, .slices, .rings, .dies, .switch, .stores, .vault, .confluence, .cores, .keyStore, .engines, .sram,
      .streams, .random, .measures, .levee, .ceremonies, .starts, .gauge]
    let burns : List Part := [.life, .vault, .starts, .sems, .regs, .ports, .out, .gauge, .switch, .confluence, .dies]
    let stamp := fun (u : State) => burnt u (wordOfState m.target) (0x4C4300 + lifeCode m.target) ok ∧
      (ok = false → burnt u (256 + wordOfState m.target) (0x4C4300 + lifeCode m.target) spareOk)
    busied (.lccAuthReset who) ∧ busied (.lccAuthData who data) ∧ (n < 4 → busied (.lccTokenWrite who n data)) ∧ busied (.lccTransition who data) ∧
    (idle → Gives (.lccAuthReset who) s [.life] (fun u => u.life.staging = [])) ∧
    (idle → Gives (.lccAuthData who data) s [.life] (fun u => u.life.staging =
      if s.life.staging.length < 4096 then s.life.staging ++ leBytes 8 data.toNat else s.life.staging)) ∧
    (idle → n < 4 → Gives (.lccTokenWrite who n data) s [.life] (fun u => u.life.token = s.life.token.set n data)) ∧
    (idle → lccPair s (getF data 0 8) = true → Gives (.lccTransition who data) s [.life, .sems] (fun u => u.life.busy = true ∧ u.life.result = 0 ∧
      u.life.target = getF data 0 8 ∧ u.life.tokenIx = getF data 8 4 ∧ u.life.state = s.life.state ∧ asked u)) ∧
    (idle → lccPair s (getF data 0 8) = false → Gives (.lccTransition who data) s [.life, .sems, .regs, .ports, .out] (fun u =>
      u.life.busy = true ∧ refused pgLcc u ∧ asked u)) ∧
    (s.life.busy = true → s.vault.lifeMark = none → wardenUp s = true → s.lev.halted = false →
      waits (.lccCheckDone ok spareOk) ∧
      (wardenHas s = true → lccCheck s ≠ 1 → Gives (.lccCheckDone ok spareOk) s [.life, .sems, .regs, .ports, .out] (fun u => u.life.busy = false ∧
        u.life.result = lccCheck s ∧ u.life.state = s.life.state ∧ bitOf (rd u (pgLcc + oIrqStat)) 2 = true ∧ freed u)) ∧
      (wardenHas s = true → lccCheck s = 1 → s.life.target ≠ 2 → s.life.state ≠ .testOpen →
        GivesThen (.lccCheckDone ok spareOk) s settle [.life, .vault, .regs, .ports, .out, .gauge, .switch, .confluence, .cores, .engines, .sram, .keyStore,
          .ceremonies, .sems, .stores] (fun u => u.vault.lifeMark = some ⟨1, s.life.state, stateOfCode s.life.target⟩ ∧ u.life.result = 1 ∧
            u.life.state = s.life.state)) ∧
      (wardenHas s = true → lccCheck s = 1 → s.life.target = 2 → Gives (.lccCheckDone ok spareOk) s [.life, .vault, .sems, .regs, .ports, .out, .dies, .switch,
          .confluence, .cores, .engines, .sram, .keyStore, .ceremonies, .stores, .streams, .random, .rings, .slices, .gauge] (fun u =>
        u.life.state = .testOpen ∧ u.life.result = 2 ∧ u.life.busy = false ∧ burnt u (35 + 4 * s.life.tokenIx) (0x544B00 + s.life.tokenIx) ok ∧
        u.vault.ownerRoot = none ∧ u.vault.transferKey = [] ∧ u.vault.instSeed = [] ∧ sramOf u d = [] ∧ u.streams = [] ∧ freed u)) ∧
      (wardenHas s = true → lccCheck s = 1 → s.life.state = .testOpen → s.life.target ≠ 2 →
        Gives (.lccCheckDone ok spareOk) s [.life, .sems, .regs, .ports, .out] (fun u => u.life.state = .test ∧ u.life.result = 2 ∧
          u.life.busy = false ∧ freed u))) ∧
    (wardenUp s = true → s.lev.halted = false → s.vault.lifeMark = some m →
      waits (.transitionPhase ok spareOk) ∧
      (wardenHas s = true → m.phase = 1 → m.target ≠ .owned → ((activeDie s).isSome = true → drained s = true) →
        Gives (.transitionPhase ok spareOk) s wiped (fun u => u.vault.lifeMark = some { m with phase := 2 } ∧ activeDie u = none ∧
          u.vault.ownerRoot = none ∧ u.cer = [] ∧ (n ≠ 0 → (sliceOf u n).mode = .absent) ∧ ringOf u n sl = {} ∧ u.life.state = s.life.state ∧
          ((dieOf s d).inService = true → (mramOf u d).home = [] ∧ (mramOf u d).dirs = [] ∧ (mramOf u d).logs = [] ∧ (mramOf u d).rosters = []) ∧
          ((dieOf s d).inService = false → (dieOf u d).wipeDue = true))) ∧
      (wardenHas s = true → m.phase = 1 → (activeDie s).isSome = true → drained s = false → Gives (.transitionPhase ok spareOk) s [] (fun _ => True)) ∧
      (wardenHas s = true → m.phase = 2 → m.target ≠ .owned → m.target ≠ .analysis →
        Gives (.transitionPhase ok spareOk) s burns (fun u => u.vault.lifeMark = none ∧ u.life.state = m.target ∧ u.starts.due = some 1 ∧ stamp u ∧ freed u)) ∧
      (wardenHas s = true → m.phase = 2 → m.target = .owned →
        GivesThen (.transitionPhase ok spareOk) s settle (.keyStore :: burns) (fun u => u.vault.lifeMark = none ∧ u.life.state = .owned ∧
          u.starts = s.starts ∧ u.kst.rootId = 3 ∧ u.kst.rootKey = s.vault.ownerRoot.getD [] ∧ stamp u ∧ freed u)) ∧
      (wardenHas s = true → m.phase = 2 → m.target = .analysis → Gives (.transitionPhase ok spareOk) s burns (fun u =>
        u.vault.lifeMark = some { m with phase := 3 } ∧ u.life.state = s.life.state ∧ stamp u)) ∧
      (wardenHas s = true → m.phase = 3 → m.target = .analysis → Gives (.transitionPhase ok spareOk) s (.free :: burns) (fun u =>
        u.vault.lifeMark = none ∧ u.life.state = .analysis ∧ u.starts.due = some 1 ∧ (u.vault.analysisRoot.map List.length) = some 32 ∧ freed u))) ∧
    (up → (s.life.state = .factory ∨ s.life.state = .shipped) → getF w 0 24 < 32 → freePolicyWord s = some n →
      Gives (.fusPolicyBurn who w) s [.life] (fun u => burnt u n (getF w 0 24) true ∧ u.life.state = s.life.state)) ∧
    (up → ((s.life.state ≠ .factory ∧ s.life.state ≠ .shipped) ∨ 32 ≤ getF w 0 24 ∨ freePolicyWord s = none) →
      Gives (.fusPolicyBurn who w) s [.regs, .ports, .out] (refused (pgFus 1))) ∧
    (wardenUp s = true → s.starts.step ≠ 0 →
      let moved := 320 < temp - s.life.senseTemp ∨ 320 < s.life.senseTemp - temp ∨ s.life.sensing = true
      let at_ := fun (u : State) => u.nt.ns = max s.nt.ns ((s.nt.ns / 100000000 + 1) * 100000000) ∧
        fuseWord u sl = fuseWord (putReads s reads) sl
      ((s.life.burning = true ∨ ¬ moved) → Gives (.fuseTempSense temp ok reads) s [.time, .life] (fun u => at_ u ∧ u.life.decided = s.life.decided ∧
        u.life.sensing = s.life.sensing)) ∧
      (s.life.burning = false → moved → Gives (.fuseTempSense temp false reads) s [.time, .life] (fun u => at_ u ∧
        u.life.sensing = true ∧ u.life.decided = s.life.decided)) ∧
      (s.life.burning = false → moved →
        Gives (.fuseTempSense temp true reads) s [.time, .life, .starts, .regs, .ports, .out, .gauge, .switch] (fun u => at_ u ∧
          u.life.sensing = false ∧ u.life.senseTemp = temp ∧ u.life.trigger = 2 ∧ (n < 256 → sget (fun _ => (0, 3)) u.life.decided n = decideWord u n) ∧
          fuseMeaning (fuseTable u) = fuseMeaning (fuseTable s) ∧ (fuseMeaning u.life.decided = fuseMeaning (fuseTable s) → u.starts = s.starts) ∧
          (fuseMeaning u.life.decided ≠ fuseMeaning (fuseTable s) → u.starts.due.isSome = true)))) ∧
    (wardenUp s = true → s.vault.fuseMark = some (n, v) →
      Gives (.fuseSpareRewrite true ok) s [.life, .vault, .regs, .ports, .out, .dies, .switch, .confluence] (fun u => u.vault.fuseMark = none ∧
        burnt u (256 + n) v ok ∧ u.life.burning = false) ∧
      Gives (.fuseSpareRewrite false ok) s [] (fun _ => True)) ∧
    (wardenUp s = true → s.vault.fuseMark = none → s.life.rewrites = n :: rest → transitionBurns s = false →
      Gives (.fuseSpareRewrite false ok) s [.life, .vault] (fun u => u.vault.fuseMark = some (n, (fuseVal s n).1 % 2 ^ 24) ∧
        u.life.rewrites = rest ∧ u.life.burning = true) ∧
      Gives (.fuseSpareRewrite true ok) s [.life, .vault, .regs, .ports, .out, .dies, .switch, .confluence] (fun u => u.vault.fuseMark = none ∧
        burnt u (256 + n) ((fuseVal s n).1 % 2 ^ 24) ok ∧ u.life.rewrites = rest ∧ u.life.burning = false)) ∧
    (s.vault.fuseMark = none → (s.life.rewrites = [] ∨ transitionBurns s = true) → Gives (.fuseSpareRewrite ok spareOk) s [] (fun _ => True))

/-- Gauge (R506 to R513, R520, R548). -/
def Obligations.GaugeRecords : Prop :=
  ∀ (s : State) (code severity source : Nat) (slice : Option Nat) (detail : List Byte) (e : JEvent) (d : Die) (temp : Int) (vin vaux vbat : Nat),
    let g := s.gauge
    let held : JEvent := { jev code severity source (padTo 28 detail) slice with nt := s.nt.ns, seqAt := (dieOf s (curDie s)).applied }
    let ev : JEvent := { held with cell := (freeCells s 1).head? }
    let stages := journalHeld s = false ∧ 0 < code ∧ severity ≤ 3
    let row := Instr.journalEvent code severity source slice detail
    let full := poolTight s = true ∨ 16 ≤ g.q.staged.length
    (stages → poolTight s = false → g.q = {} → g.own = [] → g.writing = none → g.nextRec % 65536 ≠ 0 →
      Gives row s [.gauge, .switch] (fun u => u.gauge = { g with writing := some ev })) ∧
    (stages → g.writing = some e → e.code ≠ code → ¬ full →
      Gives row s [.gauge] (fun u => u.gauge = { g with q := { g.q with staged := g.q.staged ++ [ev] } })) ∧
    (stages → g.writing = some e → e.code ≠ code → full → severity ≤ 1 →
      Gives row s [.gauge, .regs] (fun u => u.gauge = { g with q := sumAdd g.q ev } ∧ (g.q.summary = none → u.gauge.q.summary.isSome = true))) ∧
    (stages → g.writing = some e → e.code = code → severity < 3 → g.q.cont = none →
      Gives row s [.gauge, .regs] (fun u => u.gauge = { g with q := { g.q with cont := some { ev with repeats := 1 } } })) ∧
    (journalHeld s = true → 0 < code → severity ≤ 3 → g.buf.staged.length < 16 →
      Gives row s [.gauge] (fun u => u.gauge = { g with buf := { g.buf with staged := g.buf.staged ++ [held] } })) ∧
    (code = 0 ∨ 3 < severity → Gives row s [] (fun _ => True)) ∧
    (g.writing = some e → journalSent s = false → Gives .journalWriteDone s [.gauge, .switch, .stores, .regs, .ports, .out] (fun u =>
      u.gauge.nextRec = g.nextRec + 1 ∧ (d ∈ journalDies s → mget (mramOf u d).journal (g.nextRec % 8388608) = some (recordBytes e g.nextRec)) ∧
      (activeDie s = some d → mramOf u (otherDie d) = (mramOf s (otherDie d)).canon) ∧ (g.q = {} → g.own = [] → u.gauge.writing = none))) ∧
    ((g.writing = none ∨ journalSent s = true) → Gives .journalWriteDone s [] (fun _ => True)) ∧
    (gaugeRuns s = true → Gives .epochClose s [.gauge, .time, .regs, .ports, .out, .confluence, .switch] (fun u =>
      u.nt.ns = max s.nt.ns (epochEnd s) ∧ u.gauge.closed = g.cur ∧ u.gauge.closedStart = g.curStart ∧ u.gauge.cur = [] ∧ u.gauge.epochStart = u.nt.ns ∧
      u.gauge.epochFrom = u.nt.ns ∧ u.gauge.epochCommits = 0 ∧ u.gauge.epochRecords = 0 ∧ u.gauge.lifeLeft = lifeMonths g.tat ∧
      bitOf (rd u (pgGau 0 + oIrqStat)) 2 = true)) ∧
    (gaugeRuns s = false → Gives .epochClose s [] (fun _ => True)) ∧
    (s.supply.vin = true → s.supply.vaux = true → Gives (.temperatureSecond temp vin vaux vbat) s [.gauge, .time, .supply] (fun u =>
      u.nt.ns = max s.nt.ns (g.lastSecond + 1000000000) ∧ u.gauge.lastSecond = u.nt.ns ∧
      u.gauge.tat = g.tat.set (tatBin temp) (min (g.tat.getD (tatBin temp) 0 + 1) 0xFFFFFFFF) ∧ u.gauge.hiVin = max g.hiVin vin ∧
      u.gauge.hiVaux = max g.hiVaux vaux ∧ (g.loVin ≠ 0 → u.gauge.loVin = min g.loVin vin) ∧ (g.loVin = 0 → u.gauge.loVin = vin) ∧
      (g.loVbat ≠ 0 → u.gauge.loVbat = min g.loVbat vbat) ∧
      (g.tat.any (fun k => k != 0) = true → u.gauge.loTemp = min g.loTemp temp ∧ u.gauge.hiTemp = max g.hiTemp temp) ∧
      u.supply.temp = temp ∧ u.supply.vbatMv = vbat ∧ u.gauge.cur = g.cur)) ∧
    ((s.supply.vin = false ∨ s.supply.vaux = false) → Gives (.temperatureSecond temp vin vaux vbat) s [] (fun _ => True)) ∧
    (serving s = true → g.replay.state = 1 → Gives .replaySessionEnd s [.gauge, .time, .regs, .ports, .out] (fun u =>
      u.gauge = { g with replay := { g.replay with state := 2 } } ∧ u.nt.ns = max s.nt.ns g.replay.ends ∧
      bitOf (rd u (pgRpl .d0 + oIrqStat)) 2 = true ∧ bitOf (rd u (pgRpl .d1 + oIrqStat)) 2 = true)) ∧
    ((serving s = false ∨ g.replay.state ≠ 1) → Gives .replaySessionEnd s [] (fun _ => True))
end

