-- ==== Sys2Proof/Laws/Draw.lean ====
section
/-!
SUPPORT. What a generate call does to the draws of a step: a call served by a seeded instance, or by a seed that waits, is
never left dry.
-/
namespace Sys2Proof.Laws

open Sys2Proof.Machine

/-- The draws can be served: the instance holds a seed younger than a second and has made at most `n` generate calls. -/
def Wet (n : Nat) (r : Rnd) : Prop :=
  r.dry = false ∧ r.replayed = none ∧ ∃ i, r.inst = some i ∧ i.calls ≤ n ∧ r.nt < i.seedNt + 1000000000

theorem Wet.mono {n m : Nat} {r : Rnd} (h : Wet n r) (k : n ≤ m) : Wet m r := by
  obtain ⟨a, b, i, c, d, e⟩ := h
  exact ⟨a, b, i, c, Nat.le_trans d k, e⟩

/-- A call on a served instance is answered and counted. -/
theorem rndGen_wet {n : Nat} {r : Rnd} (h : Wet n r) (k : n < 65536) (len : Nat) : Wet (n + 1) (rndGen r len).2 := by
  obtain ⟨a, b, i, c, d, e⟩ := h
  have hr : rndReady r = r := by
    have : rndNeedsSeed r = false := by
      simp only [rndNeedsSeed, c, Bool.or_eq_false_iff, decide_eq_false_iff_not]; omega
    simp [rndReady, this]
  unfold rndGen
  rw [b]
  simp only [hr, a, c, Bool.false_eq_true, if_false]
  exact ⟨rfl, b, _, rfl, Nat.succ_le_succ d, e⟩

/-- A scalar takes at most as many calls as its fuel. -/
theorem drawScalar_wet (f : Nat) (c : Curve) {n : Nat} {r : Rnd} (h : Wet n r) (k : n + f < 65536) :
    Wet (n + f) (drawScalar f c r).2 := by
  induction f generalizing n r with
  | zero => exact h
  | succ f ih =>
    have g := rndGen_wet h (by omega) c.len
    simp only [drawScalar]
    split
    · exact g.mono (by omega)
    · split
      · exact g.mono (by omega)
      · exact (ih g (by omega)).mono (by omega)

/-- A signature takes at most 1,000 calls an attempt. -/
theorem ecdsaDraw_wet (f : Nat) (c : Curve) (d : Nat) (dg : Bytes) {n : Nat} {r : Rnd} (h : Wet n r) (k : n + f * 1000 < 65536) :
    Wet (n + f * 1000) (ecdsaDraw f c d dg r).2.2 := by
  induction f generalizing n r with
  | zero => exact h.mono (Nat.le_add_right _ _)
  | succ f ih =>
    have k1 : n + 1000 < 65536 := by omega
    have g := drawScalar_wet (n := n) (r := r) 1000 c h k1
    simp only [ecdsaDraw]
    split
    · exact g.mono (by omega)
    · split
      · exact (ih g (by omega)).mono (by omega)
      · exact g.mono (by omega)

/-- The signature of an attestation statement leaves its draws served. -/
theorem signStatement_wet (s : State) (body : Bytes) {r : Rnd} (h : Wet 0 r) : (signStatement s body r).2.dry = false :=
  (rndGen_wet (ecdsaDraw_wet 10 p384 (identityScalar s) (hash .sha384 body) h (by omega)) (by omega) 32).1

/-- The draws of an instance that holds a young seed. -/
theorem rndOf_wet {s : State} {n : Nat} {i : Drbg} (h : mget s.drbg n = some i) (c : i.calls ≤ 0) (d : s.nt.ns < i.seedNt + 1000000000) :
    Wet 0 (rndOf s n) := ⟨rfl, rfl, i, h, c, d⟩

theorem opAttestKey_wet (s : State) (t : Step) (i : FnIn) {r : Rnd} (h : Wet 0 r) : (opAttestKey s t i r).2.dry = false :=
  signStatement_wet s _ h

theorem opAttestModule_wet (s : State) (t : Step) (i : FnIn) {r : Rnd} (h : Wet 0 r) : (opAttestModule s t i r).2.dry = false :=
  signStatement_wet s _ h

end Sys2Proof.Laws
end

