-- ==== Sys2Proof/Laws/Sparse.lean ====
section
/-!
SUPPORT. Sparse tables: a read after a write, what a write leaves alone, and that every operation keeps the canonical form.
-/
namespace Sys2Proof.Laws

open Sys2Proof.Machine

variable {β : Type}

/-! ### Tables without defaults -/

@[simp] theorem mget_nil (k : Nat) : mget ([] : List (Nat × β)) k = none := rfl

theorem mget_cons (a : Nat) (v : β) (r : List (Nat × β)) (k : Nat) :
    mget ((a, v) :: r) k = if a = k then some v else mget r k := rfl

@[simp] theorem mget_mput_self (m : List (Nat × β)) (k : Nat) (v : β) : mget (mput m k v) k = some v := by
  induction m with
  | nil => simp [mput, mget]
  | cons e r ih =>
    obtain ⟨a, w⟩ := e
    unfold mput
    split
    · simp [mget]
    · split
      · simp [mget]
      · next h1 h2 => simp [mget, ih, Ne.symm h2]

theorem mget_mput_other (m : List (Nat × β)) {k j : Nat} (v : β) (h : k ≠ j) : mget (mput m k v) j = mget m j := by
  induction m with
  | nil => simp [mput, mget, h]
  | cons e r ih =>
    obtain ⟨a, w⟩ := e
    unfold mput
    split
    · simp [mget, h]
    · split
      · next h2 => subst h2; simp [mget, h]
      · simp [mget, ih]

theorem mget_mput (m : List (Nat × β)) (k j : Nat) (v : β) : mget (mput m k v) j = if k = j then some v else mget m j := by
  split
  · next h => subst h; simp
  · next h => exact mget_mput_other m v h

@[simp] theorem mget_mdel_self (m : List (Nat × β)) (k : Nat) : mget (mdel m k) k = none := by
  induction m with
  | nil => rfl
  | cons e r ih =>
    obtain ⟨a, w⟩ := e
    unfold mdel
    split
    · exact ih
    · next h => simp [mget, h, ih]

theorem mget_mdel_other (m : List (Nat × β)) {k j : Nat} (h : k ≠ j) : mget (mdel m k) j = mget m j := by
  induction m with
  | nil => rfl
  | cons e r ih =>
    obtain ⟨a, w⟩ := e
    unfold mdel
    split
    · next h2 => subst h2; simp [mget, h, ih]
    · simp [mget, ih]

theorem mget_mdel (m : List (Nat × β)) (k j : Nat) : mget (mdel m k) j = if k = j then none else mget m j := by
  split
  · next h => subst h; simp
  · next h => exact mget_mdel_other m h

/-! ### The canonical form is kept -/

theorem mwfFrom_mono {lo lo' : Nat} {m : List (Nat × β)} (h : mwfFrom lo m = true) (hl : lo' ≤ lo) : mwfFrom lo' m = true := by
  cases m with
  | nil => rfl
  | cons e r =>
    obtain ⟨a, w⟩ := e
    simp only [mwfFrom, Bool.and_eq_true, decide_eq_true_eq] at h ⊢
    exact ⟨by omega, h.2⟩

theorem mput_wfFrom {lo : Nat} {m : List (Nat × β)} {k : Nat} (v : β) (h : mwfFrom lo m = true) (hk : lo ≤ k) :
    mwfFrom lo (mput m k v) = true := by
  induction m generalizing lo with
  | nil => simp [mput, mwfFrom, hk]
  | cons e r ih =>
    obtain ⟨a, w⟩ := e
    simp only [mwfFrom, Bool.and_eq_true, decide_eq_true_eq] at h
    unfold mput
    split
    · next hlt =>
      simp only [mwfFrom, Bool.and_eq_true, decide_eq_true_eq]
      exact ⟨hk, by omega, h.2⟩
    · split
      · next h2 => subst h2; simp only [mwfFrom, Bool.and_eq_true, decide_eq_true_eq]; exact ⟨hk, h.2⟩
      · simp only [mwfFrom, Bool.and_eq_true, decide_eq_true_eq]
        exact ⟨h.1, ih h.2 (by omega)⟩

theorem mdel_wfFrom {lo : Nat} {m : List (Nat × β)} (k : Nat) (h : mwfFrom lo m = true) : mwfFrom lo (mdel m k) = true := by
  induction m generalizing lo with
  | nil => rfl
  | cons e r ih =>
    obtain ⟨a, w⟩ := e
    simp only [mwfFrom, Bool.and_eq_true, decide_eq_true_eq] at h
    unfold mdel
    split
    · exact mwfFrom_mono (ih h.2) (by omega)
    · simp only [mwfFrom, Bool.and_eq_true, decide_eq_true_eq]
      exact ⟨h.1, ih h.2⟩

theorem mput_wf {m : List (Nat × β)} {k : Nat} (v : β) (h : mwf m = true) : mwf (mput m k v) = true :=
  mput_wfFrom v h (Nat.zero_le k)

theorem mdel_wf {m : List (Nat × β)} (k : Nat) (h : mwf m = true) : mwf (mdel m k) = true := mdel_wfFrom k h

/-- A read of a key below every listed key finds nothing. -/
theorem mget_low {lo k : Nat} {m : List (Nat × β)} (h : mwfFrom lo m = true) (hk : k < lo) : mget m k = none := by
  induction m generalizing lo with
  | nil => rfl
  | cons e r ih =>
    obtain ⟨a, w⟩ := e
    simp only [mwfFrom, Bool.and_eq_true, decide_eq_true_eq] at h
    have : a ≠ k := by omega
    simp only [mget, this, if_false]
    exact ih h.2 (by omega)

theorem mput_mem {m : List (Nat × β)} {k : Nat} {v : β} {e : Nat × β} (h : e ∈ mput m k v) : e = (k, v) ∨ e ∈ m := by
  induction m with
  | nil => simp [mput] at h; exact .inl h
  | cons x r ih =>
    obtain ⟨a, w⟩ := x
    unfold mput at h
    split at h
    · simp only [List.mem_cons] at h ⊢; exact h
    · split at h
      · simp only [List.mem_cons] at h ⊢; rcases h with h | h
        · exact .inl h
        · exact .inr (.inr h)
      · simp only [List.mem_cons] at h ⊢; rcases h with h | h
        · exact .inr (.inl h)
        · rcases ih h with h | h
          · exact .inl h
          · exact .inr (.inr h)

theorem mdel_mem {m : List (Nat × β)} {k : Nat} {e : Nat × β} (h : e ∈ mdel m k) : e ∈ m := by
  induction m with
  | nil => exact h
  | cons x r ih =>
    obtain ⟨a, w⟩ := x
    unfold mdel at h
    split at h
    · exact List.mem_cons_of_mem _ (ih h)
    · simp only [List.mem_cons] at h ⊢; rcases h with h | h
      · exact .inl h
      · exact .inr (ih h)

/-! ### Tables with defaults -/

variable [DecidableEq β]

@[simp] theorem sget_sset_self (d : Nat → β) (m : List (Nat × β)) (k : Nat) (v : β) : sget d (sset d m k v) k = v := by
  unfold sset sget
  split
  · next h => simp [h]
  · simp

theorem sget_sset_other (d : Nat → β) (m : List (Nat × β)) {k j : Nat} (v : β) (h : k ≠ j) :
    sget d (sset d m k v) j = sget d m j := by
  unfold sset sget
  split
  · rw [mget_mdel_other m h]
  · rw [mget_mput_other m v h]

theorem sget_sset (d : Nat → β) (m : List (Nat × β)) (k j : Nat) (v : β) :
    sget d (sset d m k v) j = if k = j then v else sget d m j := by
  split
  · next h => subst h; simp
  · next h => exact sget_sset_other d m v h

theorem sset_swf {d : Nat → β} {m : List (Nat × β)} (k : Nat) (v : β) (h : swf d m = true) : swf d (sset d m k v) = true := by
  simp only [swf, Bool.and_eq_true, List.all_eq_true] at h ⊢
  unfold sset
  split
  · exact ⟨mdel_wf k h.1, fun e he => h.2 e (mdel_mem he)⟩
  · next hv =>
    refine ⟨mput_wf v h.1, fun e he => ?_⟩
    rcases mput_mem he with h1 | h1
    · subst h1; simpa using hv
    · exact h.2 e h1

@[simp] theorem scanon_swf (d : Nat → β) (m : List (Nat × β)) : swf d (scanon d m) = true := by
  induction m with
  | nil => rfl
  | cons e r ih => exact sset_swf e.1 e.2 ih

@[simp] theorem sget_scanon (d : Nat → β) (m : List (Nat × β)) (k : Nat) : sget d (scanon d m) k = sget d m k := by
  induction m with
  | nil => rfl
  | cons e r ih =>
    obtain ⟨a, v⟩ := e
    show sget d (sset d (scanon d r) a v) k = _
    rw [sget_sset, ih]
    simp only [sget, mget]
    split <;> simp

omit [DecidableEq β] in
@[simp] theorem mcanon_wf (m : List (Nat × β)) : mwf (mcanon m) = true := by
  induction m with
  | nil => rfl
  | cons e r ih => exact mput_wf e.2 ih

omit [DecidableEq β] in
@[simp] theorem mget_mcanon (m : List (Nat × β)) (k : Nat) : mget (mcanon m) k = mget m k := by
  induction m with
  | nil => rfl
  | cons e r ih =>
    obtain ⟨a, v⟩ := e
    show mget (mput (mcanon r) a v) k = _
    rw [mget_mput, ih]
    simp only [mget]

/-- A table in canonical form is left as it is. -/
theorem scanon_of_swf {d : Nat → β} {m : List (Nat × β)} (h : swf d m = true) : scanon d m = m := by
  have key : ∀ (m : List (Nat × β)) (lo : Nat), mwfFrom lo m = true → (∀ e ∈ m, e.2 ≠ d e.1) → scanon d m = m := by
    intro m
    induction m with
    | nil => intro _ _ _; rfl
    | cons e r ih =>
      obtain ⟨a, v⟩ := e
      intro lo hw hd
      simp only [mwfFrom, Bool.and_eq_true, decide_eq_true_eq] at hw
      have hr := ih (a + 1) hw.2 (fun e he => hd e (List.mem_cons_of_mem _ he))
      show sset d (scanon d r) a v = (a, v) :: r
      rw [hr]
      have hv : v ≠ d a := hd (a, v) (by simp)
      simp only [sset, hv, if_false]
      cases r with
      | nil => rfl
      | cons x q =>
        obtain ⟨b, w⟩ := x
        have h2 := hw.2
        simp only [mwfFrom, Bool.and_eq_true, decide_eq_true_eq] at h2
        have : a < b := by omega
        simp [mput, this]
  simp only [swf, Bool.and_eq_true, List.all_eq_true] at h
  exact key m 0 h.1 (fun e he => by simpa using h.2 e he)

end Sys2Proof.Laws
end

