-- ==== Sys2Proof/Laws/State.lean ====
section
/-!
SUPPORT. The fields of the state after each named update: an update changes its own field and leaves every other.
-/
namespace Sys2Proof.Laws

open Sys2Proof.Machine

variable (s : State)

/-! ### wr -/

@[simp] theorem wr_portA (a : Nat) (v : Word) : (wr s a v).portA = s.portA := rfl
@[simp] theorem wr_portB (a : Nat) (v : Word) : (wr s a v).portB = s.portB := rfl
@[simp] theorem wr_tieB (a : Nat) (v : Word) : (wr s a v).tieB = s.tieB := rfl
@[simp] theorem wr_sems (a : Nat) (v : Word) : (wr s a v).sems = s.sems := rfl
@[simp] theorem wr_wardenWaiting (a : Nat) (v : Word) : (wr s a v).wardenWaiting = s.wardenWaiting := rfl
@[simp] theorem wr_slices (a : Nat) (v : Word) : (wr s a v).slices = s.slices := rfl
@[simp] theorem wr_rings (a : Nat) (v : Word) : (wr s a v).rings = s.rings := rfl
@[simp] theorem wr_nt (a : Nat) (v : Word) : (wr s a v).nt = s.nt := rfl
@[simp] theorem wr_die0 (a : Nat) (v : Word) : (wr s a v).die0 = s.die0 := rfl
@[simp] theorem wr_die1 (a : Nat) (v : Word) : (wr s a v).die1 = s.die1 := rfl
@[simp] theorem wr_sw (a : Nat) (v : Word) : (wr s a v).sw = s.sw := rfl
@[simp] theorem wr_mram0 (a : Nat) (v : Word) : (wr s a v).mram0 = s.mram0 := rfl
@[simp] theorem wr_mram1 (a : Nat) (v : Word) : (wr s a v).mram1 = s.mram1 := rfl
@[simp] theorem wr_vault (a : Nat) (v : Word) : (wr s a v).vault = s.vault := rfl
@[simp] theorem wr_conf (a : Nat) (v : Word) : (wr s a v).conf = s.conf := rfl
@[simp] theorem wr_cores (a : Nat) (v : Word) : (wr s a v).cores = s.cores := rfl
@[simp] theorem wr_kst (a : Nat) (v : Word) : (wr s a v).kst = s.kst := rfl
@[simp] theorem wr_engines (a : Nat) (v : Word) : (wr s a v).engines = s.engines := rfl
@[simp] theorem wr_pipes (a : Nat) (v : Word) : (wr s a v).pipes = s.pipes := rfl
@[simp] theorem wr_lanes (a : Nat) (v : Word) : (wr s a v).lanes = s.lanes := rfl
@[simp] theorem wr_passes (a : Nat) (v : Word) : (wr s a v).passes = s.passes := rfl
@[simp] theorem wr_streams (a : Nat) (v : Word) : (wr s a v).streams = s.streams := rfl
@[simp] theorem wr_streamSeq (a : Nat) (v : Word) : (wr s a v).streamSeq = s.streamSeq := rfl
@[simp] theorem wr_btc (a : Nat) (v : Word) : (wr s a v).btc = s.btc := rfl
@[simp] theorem wr_btcClock (a : Nat) (v : Word) : (wr s a v).btcClock = s.btcClock := rfl
@[simp] theorem wr_rng0 (a : Nat) (v : Word) : (wr s a v).rng0 = s.rng0 := rfl
@[simp] theorem wr_rng1 (a : Nat) (v : Word) : (wr s a v).rng1 = s.rng1 := rfl
@[simp] theorem wr_drbg (a : Nat) (v : Word) : (wr s a v).drbg = s.drbg := rfl
@[simp] theorem wr_measOwner (a : Nat) (v : Word) : (wr s a v).measOwner = s.measOwner := rfl
@[simp] theorem wr_sram0 (a : Nat) (v : Word) : (wr s a v).sram0 = s.sram0 := rfl
@[simp] theorem wr_sram1 (a : Nat) (v : Word) : (wr s a v).sram1 = s.sram1 := rfl
@[simp] theorem wr_banks (a : Nat) (v : Word) : (wr s a v).banks = s.banks := rfl
@[simp] theorem wr_rules (a : Nat) (v : Word) : (wr s a v).rules = s.rules := rfl
@[simp] theorem wr_supply (a : Nat) (v : Word) : (wr s a v).supply = s.supply := rfl
@[simp] theorem wr_lev (a : Nat) (v : Word) : (wr s a v).lev = s.lev := rfl
@[simp] theorem wr_life (a : Nat) (v : Word) : (wr s a v).life = s.life := rfl
@[simp] theorem wr_cer (a : Nat) (v : Word) : (wr s a v).cer = s.cer := rfl
@[simp] theorem wr_rosters (a : Nat) (v : Word) : (wr s a v).rosters = s.rosters := rfl
@[simp] theorem wr_zeroConf (a : Nat) (v : Word) : (wr s a v).zeroConf = s.zeroConf := rfl
@[simp] theorem wr_card0 (a : Nat) (v : Word) : (wr s a v).card0 = s.card0 := rfl
@[simp] theorem wr_card1 (a : Nat) (v : Word) : (wr s a v).card1 = s.card1 := rfl
@[simp] theorem wr_starts (a : Nat) (v : Word) : (wr s a v).starts = s.starts := rfl
@[simp] theorem wr_gauge (a : Nat) (v : Word) : (wr s a v).gauge = s.gauge := rfl
@[simp] theorem wr_out (a : Nat) (v : Word) : (wr s a v).out = s.out := rfl
@[simp] theorem wr_freeCount (a : Nat) (v : Word) : (wr s a v).freeCount = s.freeCount := rfl
@[simp] theorem wr_pending (a : Nat) (v : Word) : (wr s a v).pending = s.pending := rfl

/-! ### bump -/

@[simp] theorem bump_portA (a lo n k : Nat) : (bump s a lo n k).portA = s.portA := rfl
@[simp] theorem bump_portB (a lo n k : Nat) : (bump s a lo n k).portB = s.portB := rfl
@[simp] theorem bump_tieB (a lo n k : Nat) : (bump s a lo n k).tieB = s.tieB := rfl
@[simp] theorem bump_sems (a lo n k : Nat) : (bump s a lo n k).sems = s.sems := rfl
@[simp] theorem bump_wardenWaiting (a lo n k : Nat) : (bump s a lo n k).wardenWaiting = s.wardenWaiting := rfl
@[simp] theorem bump_slices (a lo n k : Nat) : (bump s a lo n k).slices = s.slices := rfl
@[simp] theorem bump_rings (a lo n k : Nat) : (bump s a lo n k).rings = s.rings := rfl
@[simp] theorem bump_nt (a lo n k : Nat) : (bump s a lo n k).nt = s.nt := rfl
@[simp] theorem bump_die0 (a lo n k : Nat) : (bump s a lo n k).die0 = s.die0 := rfl
@[simp] theorem bump_die1 (a lo n k : Nat) : (bump s a lo n k).die1 = s.die1 := rfl
@[simp] theorem bump_sw (a lo n k : Nat) : (bump s a lo n k).sw = s.sw := rfl
@[simp] theorem bump_mram0 (a lo n k : Nat) : (bump s a lo n k).mram0 = s.mram0 := rfl
@[simp] theorem bump_mram1 (a lo n k : Nat) : (bump s a lo n k).mram1 = s.mram1 := rfl
@[simp] theorem bump_vault (a lo n k : Nat) : (bump s a lo n k).vault = s.vault := rfl
@[simp] theorem bump_conf (a lo n k : Nat) : (bump s a lo n k).conf = s.conf := rfl
@[simp] theorem bump_cores (a lo n k : Nat) : (bump s a lo n k).cores = s.cores := rfl
@[simp] theorem bump_kst (a lo n k : Nat) : (bump s a lo n k).kst = s.kst := rfl
@[simp] theorem bump_engines (a lo n k : Nat) : (bump s a lo n k).engines = s.engines := rfl
@[simp] theorem bump_pipes (a lo n k : Nat) : (bump s a lo n k).pipes = s.pipes := rfl
@[simp] theorem bump_lanes (a lo n k : Nat) : (bump s a lo n k).lanes = s.lanes := rfl
@[simp] theorem bump_passes (a lo n k : Nat) : (bump s a lo n k).passes = s.passes := rfl
@[simp] theorem bump_streams (a lo n k : Nat) : (bump s a lo n k).streams = s.streams := rfl
@[simp] theorem bump_streamSeq (a lo n k : Nat) : (bump s a lo n k).streamSeq = s.streamSeq := rfl
@[simp] theorem bump_btc (a lo n k : Nat) : (bump s a lo n k).btc = s.btc := rfl
@[simp] theorem bump_btcClock (a lo n k : Nat) : (bump s a lo n k).btcClock = s.btcClock := rfl
@[simp] theorem bump_rng0 (a lo n k : Nat) : (bump s a lo n k).rng0 = s.rng0 := rfl
@[simp] theorem bump_rng1 (a lo n k : Nat) : (bump s a lo n k).rng1 = s.rng1 := rfl
@[simp] theorem bump_drbg (a lo n k : Nat) : (bump s a lo n k).drbg = s.drbg := rfl
@[simp] theorem bump_measOwner (a lo n k : Nat) : (bump s a lo n k).measOwner = s.measOwner := rfl
@[simp] theorem bump_sram0 (a lo n k : Nat) : (bump s a lo n k).sram0 = s.sram0 := rfl
@[simp] theorem bump_sram1 (a lo n k : Nat) : (bump s a lo n k).sram1 = s.sram1 := rfl
@[simp] theorem bump_banks (a lo n k : Nat) : (bump s a lo n k).banks = s.banks := rfl
@[simp] theorem bump_rules (a lo n k : Nat) : (bump s a lo n k).rules = s.rules := rfl
@[simp] theorem bump_supply (a lo n k : Nat) : (bump s a lo n k).supply = s.supply := rfl
@[simp] theorem bump_lev (a lo n k : Nat) : (bump s a lo n k).lev = s.lev := rfl
@[simp] theorem bump_life (a lo n k : Nat) : (bump s a lo n k).life = s.life := rfl
@[simp] theorem bump_cer (a lo n k : Nat) : (bump s a lo n k).cer = s.cer := rfl
@[simp] theorem bump_rosters (a lo n k : Nat) : (bump s a lo n k).rosters = s.rosters := rfl
@[simp] theorem bump_zeroConf (a lo n k : Nat) : (bump s a lo n k).zeroConf = s.zeroConf := rfl
@[simp] theorem bump_card0 (a lo n k : Nat) : (bump s a lo n k).card0 = s.card0 := rfl
@[simp] theorem bump_card1 (a lo n k : Nat) : (bump s a lo n k).card1 = s.card1 := rfl
@[simp] theorem bump_starts (a lo n k : Nat) : (bump s a lo n k).starts = s.starts := rfl
@[simp] theorem bump_gauge (a lo n k : Nat) : (bump s a lo n k).gauge = s.gauge := rfl
@[simp] theorem bump_out (a lo n k : Nat) : (bump s a lo n k).out = s.out := rfl
@[simp] theorem bump_freeCount (a lo n k : Nat) : (bump s a lo n k).freeCount = s.freeCount := rfl
@[simp] theorem bump_pending (a lo n k : Nat) : (bump s a lo n k).pending = s.pending := rfl

/-! ### wrF -/

@[simp] theorem wrF_portA (a lo n v : Nat) : (wrF s a lo n v).portA = s.portA := rfl
@[simp] theorem wrF_portB (a lo n v : Nat) : (wrF s a lo n v).portB = s.portB := rfl
@[simp] theorem wrF_tieB (a lo n v : Nat) : (wrF s a lo n v).tieB = s.tieB := rfl
@[simp] theorem wrF_sems (a lo n v : Nat) : (wrF s a lo n v).sems = s.sems := rfl
@[simp] theorem wrF_wardenWaiting (a lo n v : Nat) : (wrF s a lo n v).wardenWaiting = s.wardenWaiting := rfl
@[simp] theorem wrF_slices (a lo n v : Nat) : (wrF s a lo n v).slices = s.slices := rfl
@[simp] theorem wrF_rings (a lo n v : Nat) : (wrF s a lo n v).rings = s.rings := rfl
@[simp] theorem wrF_nt (a lo n v : Nat) : (wrF s a lo n v).nt = s.nt := rfl
@[simp] theorem wrF_die0 (a lo n v : Nat) : (wrF s a lo n v).die0 = s.die0 := rfl
@[simp] theorem wrF_die1 (a lo n v : Nat) : (wrF s a lo n v).die1 = s.die1 := rfl
@[simp] theorem wrF_sw (a lo n v : Nat) : (wrF s a lo n v).sw = s.sw := rfl
@[simp] theorem wrF_mram0 (a lo n v : Nat) : (wrF s a lo n v).mram0 = s.mram0 := rfl
@[simp] theorem wrF_mram1 (a lo n v : Nat) : (wrF s a lo n v).mram1 = s.mram1 := rfl
@[simp] theorem wrF_vault (a lo n v : Nat) : (wrF s a lo n v).vault = s.vault := rfl
@[simp] theorem wrF_conf (a lo n v : Nat) : (wrF s a lo n v).conf = s.conf := rfl
@[simp] theorem wrF_cores (a lo n v : Nat) : (wrF s a lo n v).cores = s.cores := rfl
@[simp] theorem wrF_kst (a lo n v : Nat) : (wrF s a lo n v).kst = s.kst := rfl
@[simp] theorem wrF_engines (a lo n v : Nat) : (wrF s a lo n v).engines = s.engines := rfl
@[simp] theorem wrF_pipes (a lo n v : Nat) : (wrF s a lo n v).pipes = s.pipes := rfl
@[simp] theorem wrF_lanes (a lo n v : Nat) : (wrF s a lo n v).lanes = s.lanes := rfl
@[simp] theorem wrF_passes (a lo n v : Nat) : (wrF s a lo n v).passes = s.passes := rfl
@[simp] theorem wrF_streams (a lo n v : Nat) : (wrF s a lo n v).streams = s.streams := rfl
@[simp] theorem wrF_streamSeq (a lo n v : Nat) : (wrF s a lo n v).streamSeq = s.streamSeq := rfl
@[simp] theorem wrF_btc (a lo n v : Nat) : (wrF s a lo n v).btc = s.btc := rfl
@[simp] theorem wrF_btcClock (a lo n v : Nat) : (wrF s a lo n v).btcClock = s.btcClock := rfl
@[simp] theorem wrF_rng0 (a lo n v : Nat) : (wrF s a lo n v).rng0 = s.rng0 := rfl
@[simp] theorem wrF_rng1 (a lo n v : Nat) : (wrF s a lo n v).rng1 = s.rng1 := rfl
@[simp] theorem wrF_drbg (a lo n v : Nat) : (wrF s a lo n v).drbg = s.drbg := rfl
@[simp] theorem wrF_measOwner (a lo n v : Nat) : (wrF s a lo n v).measOwner = s.measOwner := rfl
@[simp] theorem wrF_sram0 (a lo n v : Nat) : (wrF s a lo n v).sram0 = s.sram0 := rfl
@[simp] theorem wrF_sram1 (a lo n v : Nat) : (wrF s a lo n v).sram1 = s.sram1 := rfl
@[simp] theorem wrF_banks (a lo n v : Nat) : (wrF s a lo n v).banks = s.banks := rfl
@[simp] theorem wrF_rules (a lo n v : Nat) : (wrF s a lo n v).rules = s.rules := rfl
@[simp] theorem wrF_supply (a lo n v : Nat) : (wrF s a lo n v).supply = s.supply := rfl
@[simp] theorem wrF_lev (a lo n v : Nat) : (wrF s a lo n v).lev = s.lev := rfl
@[simp] theorem wrF_life (a lo n v : Nat) : (wrF s a lo n v).life = s.life := rfl
@[simp] theorem wrF_cer (a lo n v : Nat) : (wrF s a lo n v).cer = s.cer := rfl
@[simp] theorem wrF_rosters (a lo n v : Nat) : (wrF s a lo n v).rosters = s.rosters := rfl
@[simp] theorem wrF_zeroConf (a lo n v : Nat) : (wrF s a lo n v).zeroConf = s.zeroConf := rfl
@[simp] theorem wrF_card0 (a lo n v : Nat) : (wrF s a lo n v).card0 = s.card0 := rfl
@[simp] theorem wrF_card1 (a lo n v : Nat) : (wrF s a lo n v).card1 = s.card1 := rfl
@[simp] theorem wrF_starts (a lo n v : Nat) : (wrF s a lo n v).starts = s.starts := rfl
@[simp] theorem wrF_gauge (a lo n v : Nat) : (wrF s a lo n v).gauge = s.gauge := rfl
@[simp] theorem wrF_out (a lo n v : Nat) : (wrF s a lo n v).out = s.out := rfl
@[simp] theorem wrF_freeCount (a lo n v : Nat) : (wrF s a lo n v).freeCount = s.freeCount := rfl
@[simp] theorem wrF_pending (a lo n v : Nat) : (wrF s a lo n v).pending = s.pending := rfl

/-! ### rearm -/

@[simp] theorem rearm_portA (pg : Nat) : (rearm s pg).portA = s.portA := by simp only [rearm, wr_portA]
@[simp] theorem rearm_portB (pg : Nat) : (rearm s pg).portB = s.portB := by simp only [rearm, wr_portB]
@[simp] theorem rearm_tieB (pg : Nat) : (rearm s pg).tieB = s.tieB := by simp only [rearm, wr_tieB]
@[simp] theorem rearm_sems (pg : Nat) : (rearm s pg).sems = s.sems := by simp only [rearm, wr_sems]
@[simp] theorem rearm_wardenWaiting (pg : Nat) : (rearm s pg).wardenWaiting = s.wardenWaiting := by simp only [rearm, wr_wardenWaiting]
@[simp] theorem rearm_slices (pg : Nat) : (rearm s pg).slices = s.slices := by simp only [rearm, wr_slices]
@[simp] theorem rearm_rings (pg : Nat) : (rearm s pg).rings = s.rings := by simp only [rearm, wr_rings]
@[simp] theorem rearm_nt (pg : Nat) : (rearm s pg).nt = s.nt := by simp only [rearm, wr_nt]
@[simp] theorem rearm_die0 (pg : Nat) : (rearm s pg).die0 = s.die0 := by simp only [rearm, wr_die0]
@[simp] theorem rearm_die1 (pg : Nat) : (rearm s pg).die1 = s.die1 := by simp only [rearm, wr_die1]
@[simp] theorem rearm_sw (pg : Nat) : (rearm s pg).sw = s.sw := by simp only [rearm, wr_sw]
@[simp] theorem rearm_mram0 (pg : Nat) : (rearm s pg).mram0 = s.mram0 := by simp only [rearm, wr_mram0]
@[simp] theorem rearm_mram1 (pg : Nat) : (rearm s pg).mram1 = s.mram1 := by simp only [rearm, wr_mram1]
@[simp] theorem rearm_vault (pg : Nat) : (rearm s pg).vault = s.vault := by simp only [rearm, wr_vault]
@[simp] theorem rearm_conf (pg : Nat) : (rearm s pg).conf = s.conf := by simp only [rearm, wr_conf]
@[simp] theorem rearm_cores (pg : Nat) : (rearm s pg).cores = s.cores := by simp only [rearm, wr_cores]
@[simp] theorem rearm_kst (pg : Nat) : (rearm s pg).kst = s.kst := by simp only [rearm, wr_kst]
@[simp] theorem rearm_engines (pg : Nat) : (rearm s pg).engines = s.engines := by simp only [rearm, wr_engines]
@[simp] theorem rearm_pipes (pg : Nat) : (rearm s pg).pipes = s.pipes := by simp only [rearm, wr_pipes]
@[simp] theorem rearm_lanes (pg : Nat) : (rearm s pg).lanes = s.lanes := by simp only [rearm, wr_lanes]
@[simp] theorem rearm_passes (pg : Nat) : (rearm s pg).passes = s.passes := by simp only [rearm, wr_passes]
@[simp] theorem rearm_streams (pg : Nat) : (rearm s pg).streams = s.streams := by simp only [rearm, wr_streams]
@[simp] theorem rearm_streamSeq (pg : Nat) : (rearm s pg).streamSeq = s.streamSeq := by simp only [rearm, wr_streamSeq]
@[simp] theorem rearm_btc (pg : Nat) : (rearm s pg).btc = s.btc := by simp only [rearm, wr_btc]
@[simp] theorem rearm_btcClock (pg : Nat) : (rearm s pg).btcClock = s.btcClock := by simp only [rearm, wr_btcClock]
@[simp] theorem rearm_rng0 (pg : Nat) : (rearm s pg).rng0 = s.rng0 := by simp only [rearm, wr_rng0]
@[simp] theorem rearm_rng1 (pg : Nat) : (rearm s pg).rng1 = s.rng1 := by simp only [rearm, wr_rng1]
@[simp] theorem rearm_drbg (pg : Nat) : (rearm s pg).drbg = s.drbg := by simp only [rearm, wr_drbg]
@[simp] theorem rearm_measOwner (pg : Nat) : (rearm s pg).measOwner = s.measOwner := by simp only [rearm, wr_measOwner]
@[simp] theorem rearm_sram0 (pg : Nat) : (rearm s pg).sram0 = s.sram0 := by simp only [rearm, wr_sram0]
@[simp] theorem rearm_sram1 (pg : Nat) : (rearm s pg).sram1 = s.sram1 := by simp only [rearm, wr_sram1]
@[simp] theorem rearm_banks (pg : Nat) : (rearm s pg).banks = s.banks := by simp only [rearm, wr_banks]
@[simp] theorem rearm_rules (pg : Nat) : (rearm s pg).rules = s.rules := by simp only [rearm, wr_rules]
@[simp] theorem rearm_supply (pg : Nat) : (rearm s pg).supply = s.supply := by simp only [rearm, wr_supply]
@[simp] theorem rearm_lev (pg : Nat) : (rearm s pg).lev = s.lev := by simp only [rearm, wr_lev]
@[simp] theorem rearm_life (pg : Nat) : (rearm s pg).life = s.life := by simp only [rearm, wr_life]
@[simp] theorem rearm_cer (pg : Nat) : (rearm s pg).cer = s.cer := by simp only [rearm, wr_cer]
@[simp] theorem rearm_rosters (pg : Nat) : (rearm s pg).rosters = s.rosters := by simp only [rearm, wr_rosters]
@[simp] theorem rearm_zeroConf (pg : Nat) : (rearm s pg).zeroConf = s.zeroConf := by simp only [rearm, wr_zeroConf]
@[simp] theorem rearm_card0 (pg : Nat) : (rearm s pg).card0 = s.card0 := by simp only [rearm, wr_card0]
@[simp] theorem rearm_card1 (pg : Nat) : (rearm s pg).card1 = s.card1 := by simp only [rearm, wr_card1]
@[simp] theorem rearm_starts (pg : Nat) : (rearm s pg).starts = s.starts := by simp only [rearm, wr_starts]
@[simp] theorem rearm_gauge (pg : Nat) : (rearm s pg).gauge = s.gauge := by simp only [rearm, wr_gauge]
@[simp] theorem rearm_out (pg : Nat) : (rearm s pg).out = s.out := by simp only [rearm, wr_out]
@[simp] theorem rearm_freeCount (pg : Nat) : (rearm s pg).freeCount = s.freeCount := by simp only [rearm, wr_freeCount]
@[simp] theorem rearm_pending (pg : Nat) : (rearm s pg).pending = s.pending := by simp only [rearm, wr_pending]

/-! ### setPort -/

@[simp] theorem setPort_regs (p : Port) (v : PortState) : (setPort s p v).regs = s.regs := by cases p <;> rfl
@[simp] theorem setPort_tieB (p : Port) (v : PortState) : (setPort s p v).tieB = s.tieB := by cases p <;> rfl
@[simp] theorem setPort_sems (p : Port) (v : PortState) : (setPort s p v).sems = s.sems := by cases p <;> rfl
@[simp] theorem setPort_wardenWaiting (p : Port) (v : PortState) : (setPort s p v).wardenWaiting = s.wardenWaiting := by cases p <;> rfl
@[simp] theorem setPort_slices (p : Port) (v : PortState) : (setPort s p v).slices = s.slices := by cases p <;> rfl
@[simp] theorem setPort_rings (p : Port) (v : PortState) : (setPort s p v).rings = s.rings := by cases p <;> rfl
@[simp] theorem setPort_nt (p : Port) (v : PortState) : (setPort s p v).nt = s.nt := by cases p <;> rfl
@[simp] theorem setPort_die0 (p : Port) (v : PortState) : (setPort s p v).die0 = s.die0 := by cases p <;> rfl
@[simp] theorem setPort_die1 (p : Port) (v : PortState) : (setPort s p v).die1 = s.die1 := by cases p <;> rfl
@[simp] theorem setPort_sw (p : Port) (v : PortState) : (setPort s p v).sw = s.sw := by cases p <;> rfl
@[simp] theorem setPort_mram0 (p : Port) (v : PortState) : (setPort s p v).mram0 = s.mram0 := by cases p <;> rfl
@[simp] theorem setPort_mram1 (p : Port) (v : PortState) : (setPort s p v).mram1 = s.mram1 := by cases p <;> rfl
@[simp] theorem setPort_vault (p : Port) (v : PortState) : (setPort s p v).vault = s.vault := by cases p <;> rfl
@[simp] theorem setPort_conf (p : Port) (v : PortState) : (setPort s p v).conf = s.conf := by cases p <;> rfl
@[simp] theorem setPort_cores (p : Port) (v : PortState) : (setPort s p v).cores = s.cores := by cases p <;> rfl
@[simp] theorem setPort_kst (p : Port) (v : PortState) : (setPort s p v).kst = s.kst := by cases p <;> rfl
@[simp] theorem setPort_engines (p : Port) (v : PortState) : (setPort s p v).engines = s.engines := by cases p <;> rfl
@[simp] theorem setPort_pipes (p : Port) (v : PortState) : (setPort s p v).pipes = s.pipes := by cases p <;> rfl
@[simp] theorem setPort_lanes (p : Port) (v : PortState) : (setPort s p v).lanes = s.lanes := by cases p <;> rfl
@[simp] theorem setPort_passes (p : Port) (v : PortState) : (setPort s p v).passes = s.passes := by cases p <;> rfl
@[simp] theorem setPort_streams (p : Port) (v : PortState) : (setPort s p v).streams = s.streams := by cases p <;> rfl
@[simp] theorem setPort_streamSeq (p : Port) (v : PortState) : (setPort s p v).streamSeq = s.streamSeq := by cases p <;> rfl
@[simp] theorem setPort_btc (p : Port) (v : PortState) : (setPort s p v).btc = s.btc := by cases p <;> rfl
@[simp] theorem setPort_btcClock (p : Port) (v : PortState) : (setPort s p v).btcClock = s.btcClock := by cases p <;> rfl
@[simp] theorem setPort_rng0 (p : Port) (v : PortState) : (setPort s p v).rng0 = s.rng0 := by cases p <;> rfl
@[simp] theorem setPort_rng1 (p : Port) (v : PortState) : (setPort s p v).rng1 = s.rng1 := by cases p <;> rfl
@[simp] theorem setPort_drbg (p : Port) (v : PortState) : (setPort s p v).drbg = s.drbg := by cases p <;> rfl
@[simp] theorem setPort_measOwner (p : Port) (v : PortState) : (setPort s p v).measOwner = s.measOwner := by cases p <;> rfl
@[simp] theorem setPort_sram0 (p : Port) (v : PortState) : (setPort s p v).sram0 = s.sram0 := by cases p <;> rfl
@[simp] theorem setPort_sram1 (p : Port) (v : PortState) : (setPort s p v).sram1 = s.sram1 := by cases p <;> rfl
@[simp] theorem setPort_banks (p : Port) (v : PortState) : (setPort s p v).banks = s.banks := by cases p <;> rfl
@[simp] theorem setPort_rules (p : Port) (v : PortState) : (setPort s p v).rules = s.rules := by cases p <;> rfl
@[simp] theorem setPort_supply (p : Port) (v : PortState) : (setPort s p v).supply = s.supply := by cases p <;> rfl
@[simp] theorem setPort_lev (p : Port) (v : PortState) : (setPort s p v).lev = s.lev := by cases p <;> rfl
@[simp] theorem setPort_life (p : Port) (v : PortState) : (setPort s p v).life = s.life := by cases p <;> rfl
@[simp] theorem setPort_cer (p : Port) (v : PortState) : (setPort s p v).cer = s.cer := by cases p <;> rfl
@[simp] theorem setPort_rosters (p : Port) (v : PortState) : (setPort s p v).rosters = s.rosters := by cases p <;> rfl
@[simp] theorem setPort_zeroConf (p : Port) (v : PortState) : (setPort s p v).zeroConf = s.zeroConf := by cases p <;> rfl
@[simp] theorem setPort_card0 (p : Port) (v : PortState) : (setPort s p v).card0 = s.card0 := by cases p <;> rfl
@[simp] theorem setPort_card1 (p : Port) (v : PortState) : (setPort s p v).card1 = s.card1 := by cases p <;> rfl
@[simp] theorem setPort_starts (p : Port) (v : PortState) : (setPort s p v).starts = s.starts := by cases p <;> rfl
@[simp] theorem setPort_gauge (p : Port) (v : PortState) : (setPort s p v).gauge = s.gauge := by cases p <;> rfl
@[simp] theorem setPort_out (p : Port) (v : PortState) : (setPort s p v).out = s.out := by cases p <;> rfl
@[simp] theorem setPort_freeCount (p : Port) (v : PortState) : (setPort s p v).freeCount = s.freeCount := by cases p <;> rfl
@[simp] theorem setPort_pending (p : Port) (v : PortState) : (setPort s p v).pending = s.pending := by cases p <;> rfl

/-! ### setDie -/

@[simp] theorem setDie_regs (d : Die) (v : DieState) : (setDie s d v).regs = s.regs := by cases d <;> rfl
@[simp] theorem setDie_portA (d : Die) (v : DieState) : (setDie s d v).portA = s.portA := by cases d <;> rfl
@[simp] theorem setDie_portB (d : Die) (v : DieState) : (setDie s d v).portB = s.portB := by cases d <;> rfl
@[simp] theorem setDie_tieB (d : Die) (v : DieState) : (setDie s d v).tieB = s.tieB := by cases d <;> rfl
@[simp] theorem setDie_sems (d : Die) (v : DieState) : (setDie s d v).sems = s.sems := by cases d <;> rfl
@[simp] theorem setDie_wardenWaiting (d : Die) (v : DieState) : (setDie s d v).wardenWaiting = s.wardenWaiting := by cases d <;> rfl
@[simp] theorem setDie_slices (d : Die) (v : DieState) : (setDie s d v).slices = s.slices := by cases d <;> rfl
@[simp] theorem setDie_rings (d : Die) (v : DieState) : (setDie s d v).rings = s.rings := by cases d <;> rfl
@[simp] theorem setDie_nt (d : Die) (v : DieState) : (setDie s d v).nt = s.nt := by cases d <;> rfl
@[simp] theorem setDie_sw (d : Die) (v : DieState) : (setDie s d v).sw = s.sw := by cases d <;> rfl
@[simp] theorem setDie_mram0 (d : Die) (v : DieState) : (setDie s d v).mram0 = s.mram0 := by cases d <;> rfl
@[simp] theorem setDie_mram1 (d : Die) (v : DieState) : (setDie s d v).mram1 = s.mram1 := by cases d <;> rfl
@[simp] theorem setDie_vault (d : Die) (v : DieState) : (setDie s d v).vault = s.vault := by cases d <;> rfl
@[simp] theorem setDie_conf (d : Die) (v : DieState) : (setDie s d v).conf = s.conf := by cases d <;> rfl
@[simp] theorem setDie_cores (d : Die) (v : DieState) : (setDie s d v).cores = s.cores := by cases d <;> rfl
@[simp] theorem setDie_kst (d : Die) (v : DieState) : (setDie s d v).kst = s.kst := by cases d <;> rfl
@[simp] theorem setDie_engines (d : Die) (v : DieState) : (setDie s d v).engines = s.engines := by cases d <;> rfl
@[simp] theorem setDie_pipes (d : Die) (v : DieState) : (setDie s d v).pipes = s.pipes := by cases d <;> rfl
@[simp] theorem setDie_lanes (d : Die) (v : DieState) : (setDie s d v).lanes = s.lanes := by cases d <;> rfl
@[simp] theorem setDie_passes (d : Die) (v : DieState) : (setDie s d v).passes = s.passes := by cases d <;> rfl
@[simp] theorem setDie_streams (d : Die) (v : DieState) : (setDie s d v).streams = s.streams := by cases d <;> rfl
@[simp] theorem setDie_streamSeq (d : Die) (v : DieState) : (setDie s d v).streamSeq = s.streamSeq := by cases d <;> rfl
@[simp] theorem setDie_btc (d : Die) (v : DieState) : (setDie s d v).btc = s.btc := by cases d <;> rfl
@[simp] theorem setDie_btcClock (d : Die) (v : DieState) : (setDie s d v).btcClock = s.btcClock := by cases d <;> rfl
@[simp] theorem setDie_rng0 (d : Die) (v : DieState) : (setDie s d v).rng0 = s.rng0 := by cases d <;> rfl
@[simp] theorem setDie_rng1 (d : Die) (v : DieState) : (setDie s d v).rng1 = s.rng1 := by cases d <;> rfl
@[simp] theorem setDie_drbg (d : Die) (v : DieState) : (setDie s d v).drbg = s.drbg := by cases d <;> rfl
@[simp] theorem setDie_measOwner (d : Die) (v : DieState) : (setDie s d v).measOwner = s.measOwner := by cases d <;> rfl
@[simp] theorem setDie_sram0 (d : Die) (v : DieState) : (setDie s d v).sram0 = s.sram0 := by cases d <;> rfl
@[simp] theorem setDie_sram1 (d : Die) (v : DieState) : (setDie s d v).sram1 = s.sram1 := by cases d <;> rfl
@[simp] theorem setDie_banks (d : Die) (v : DieState) : (setDie s d v).banks = s.banks := by cases d <;> rfl
@[simp] theorem setDie_rules (d : Die) (v : DieState) : (setDie s d v).rules = s.rules := by cases d <;> rfl
@[simp] theorem setDie_supply (d : Die) (v : DieState) : (setDie s d v).supply = s.supply := by cases d <;> rfl
@[simp] theorem setDie_lev (d : Die) (v : DieState) : (setDie s d v).lev = s.lev := by cases d <;> rfl
@[simp] theorem setDie_life (d : Die) (v : DieState) : (setDie s d v).life = s.life := by cases d <;> rfl
@[simp] theorem setDie_cer (d : Die) (v : DieState) : (setDie s d v).cer = s.cer := by cases d <;> rfl
@[simp] theorem setDie_rosters (d : Die) (v : DieState) : (setDie s d v).rosters = s.rosters := by cases d <;> rfl
@[simp] theorem setDie_zeroConf (d : Die) (v : DieState) : (setDie s d v).zeroConf = s.zeroConf := by cases d <;> rfl
@[simp] theorem setDie_card0 (d : Die) (v : DieState) : (setDie s d v).card0 = s.card0 := by cases d <;> rfl
@[simp] theorem setDie_card1 (d : Die) (v : DieState) : (setDie s d v).card1 = s.card1 := by cases d <;> rfl
@[simp] theorem setDie_starts (d : Die) (v : DieState) : (setDie s d v).starts = s.starts := by cases d <;> rfl
@[simp] theorem setDie_gauge (d : Die) (v : DieState) : (setDie s d v).gauge = s.gauge := by cases d <;> rfl
@[simp] theorem setDie_out (d : Die) (v : DieState) : (setDie s d v).out = s.out := by cases d <;> rfl
@[simp] theorem setDie_freeCount (d : Die) (v : DieState) : (setDie s d v).freeCount = s.freeCount := by cases d <;> rfl
@[simp] theorem setDie_pending (d : Die) (v : DieState) : (setDie s d v).pending = s.pending := by cases d <;> rfl

/-! ### setMram -/

@[simp] theorem setMram_regs (d : Die) (v : Mram) : (setMram s d v).regs = s.regs := by cases d <;> rfl
@[simp] theorem setMram_portA (d : Die) (v : Mram) : (setMram s d v).portA = s.portA := by cases d <;> rfl
@[simp] theorem setMram_portB (d : Die) (v : Mram) : (setMram s d v).portB = s.portB := by cases d <;> rfl
@[simp] theorem setMram_tieB (d : Die) (v : Mram) : (setMram s d v).tieB = s.tieB := by cases d <;> rfl
@[simp] theorem setMram_sems (d : Die) (v : Mram) : (setMram s d v).sems = s.sems := by cases d <;> rfl
@[simp] theorem setMram_wardenWaiting (d : Die) (v : Mram) : (setMram s d v).wardenWaiting = s.wardenWaiting := by cases d <;> rfl
@[simp] theorem setMram_slices (d : Die) (v : Mram) : (setMram s d v).slices = s.slices := by cases d <;> rfl
@[simp] theorem setMram_rings (d : Die) (v : Mram) : (setMram s d v).rings = s.rings := by cases d <;> rfl
@[simp] theorem setMram_nt (d : Die) (v : Mram) : (setMram s d v).nt = s.nt := by cases d <;> rfl
@[simp] theorem setMram_die0 (d : Die) (v : Mram) : (setMram s d v).die0 = s.die0 := by cases d <;> rfl
@[simp] theorem setMram_die1 (d : Die) (v : Mram) : (setMram s d v).die1 = s.die1 := by cases d <;> rfl
@[simp] theorem setMram_sw (d : Die) (v : Mram) : (setMram s d v).sw = s.sw := by cases d <;> rfl
@[simp] theorem setMram_vault (d : Die) (v : Mram) : (setMram s d v).vault = s.vault := by cases d <;> rfl
@[simp] theorem setMram_conf (d : Die) (v : Mram) : (setMram s d v).conf = s.conf := by cases d <;> rfl
@[simp] theorem setMram_cores (d : Die) (v : Mram) : (setMram s d v).cores = s.cores := by cases d <;> rfl
@[simp] theorem setMram_kst (d : Die) (v : Mram) : (setMram s d v).kst = s.kst := by cases d <;> rfl
@[simp] theorem setMram_engines (d : Die) (v : Mram) : (setMram s d v).engines = s.engines := by cases d <;> rfl
@[simp] theorem setMram_pipes (d : Die) (v : Mram) : (setMram s d v).pipes = s.pipes := by cases d <;> rfl
@[simp] theorem setMram_lanes (d : Die) (v : Mram) : (setMram s d v).lanes = s.lanes := by cases d <;> rfl
@[simp] theorem setMram_passes (d : Die) (v : Mram) : (setMram s d v).passes = s.passes := by cases d <;> rfl
@[simp] theorem setMram_streams (d : Die) (v : Mram) : (setMram s d v).streams = s.streams := by cases d <;> rfl
@[simp] theorem setMram_streamSeq (d : Die) (v : Mram) : (setMram s d v).streamSeq = s.streamSeq := by cases d <;> rfl
@[simp] theorem setMram_btc (d : Die) (v : Mram) : (setMram s d v).btc = s.btc := by cases d <;> rfl
@[simp] theorem setMram_btcClock (d : Die) (v : Mram) : (setMram s d v).btcClock = s.btcClock := by cases d <;> rfl
@[simp] theorem setMram_rng0 (d : Die) (v : Mram) : (setMram s d v).rng0 = s.rng0 := by cases d <;> rfl
@[simp] theorem setMram_rng1 (d : Die) (v : Mram) : (setMram s d v).rng1 = s.rng1 := by cases d <;> rfl
@[simp] theorem setMram_drbg (d : Die) (v : Mram) : (setMram s d v).drbg = s.drbg := by cases d <;> rfl
@[simp] theorem setMram_measOwner (d : Die) (v : Mram) : (setMram s d v).measOwner = s.measOwner := by cases d <;> rfl
@[simp] theorem setMram_sram0 (d : Die) (v : Mram) : (setMram s d v).sram0 = s.sram0 := by cases d <;> rfl
@[simp] theorem setMram_sram1 (d : Die) (v : Mram) : (setMram s d v).sram1 = s.sram1 := by cases d <;> rfl
@[simp] theorem setMram_banks (d : Die) (v : Mram) : (setMram s d v).banks = s.banks := by cases d <;> rfl
@[simp] theorem setMram_rules (d : Die) (v : Mram) : (setMram s d v).rules = s.rules := by cases d <;> rfl
@[simp] theorem setMram_supply (d : Die) (v : Mram) : (setMram s d v).supply = s.supply := by cases d <;> rfl
@[simp] theorem setMram_lev (d : Die) (v : Mram) : (setMram s d v).lev = s.lev := by cases d <;> rfl
@[simp] theorem setMram_life (d : Die) (v : Mram) : (setMram s d v).life = s.life := by cases d <;> rfl
@[simp] theorem setMram_cer (d : Die) (v : Mram) : (setMram s d v).cer = s.cer := by cases d <;> rfl
@[simp] theorem setMram_rosters (d : Die) (v : Mram) : (setMram s d v).rosters = s.rosters := by cases d <;> rfl
@[simp] theorem setMram_zeroConf (d : Die) (v : Mram) : (setMram s d v).zeroConf = s.zeroConf := by cases d <;> rfl
@[simp] theorem setMram_card0 (d : Die) (v : Mram) : (setMram s d v).card0 = s.card0 := by cases d <;> rfl
@[simp] theorem setMram_card1 (d : Die) (v : Mram) : (setMram s d v).card1 = s.card1 := by cases d <;> rfl
@[simp] theorem setMram_starts (d : Die) (v : Mram) : (setMram s d v).starts = s.starts := by cases d <;> rfl
@[simp] theorem setMram_gauge (d : Die) (v : Mram) : (setMram s d v).gauge = s.gauge := by cases d <;> rfl
@[simp] theorem setMram_out (d : Die) (v : Mram) : (setMram s d v).out = s.out := by cases d <;> rfl
@[simp] theorem setMram_freeCount (d : Die) (v : Mram) : (setMram s d v).freeCount = s.freeCount := by cases d <;> rfl
@[simp] theorem setMram_pending (d : Die) (v : Mram) : (setMram s d v).pending = s.pending := by cases d <;> rfl

/-! ### setSlice -/

@[simp] theorem setSlice_regs (n : Nat) (v : Slice) : (setSlice s n v).regs = s.regs := rfl
@[simp] theorem setSlice_portA (n : Nat) (v : Slice) : (setSlice s n v).portA = s.portA := rfl
@[simp] theorem setSlice_portB (n : Nat) (v : Slice) : (setSlice s n v).portB = s.portB := rfl
@[simp] theorem setSlice_tieB (n : Nat) (v : Slice) : (setSlice s n v).tieB = s.tieB := rfl
@[simp] theorem setSlice_sems (n : Nat) (v : Slice) : (setSlice s n v).sems = s.sems := rfl
@[simp] theorem setSlice_wardenWaiting (n : Nat) (v : Slice) : (setSlice s n v).wardenWaiting = s.wardenWaiting := rfl
@[simp] theorem setSlice_rings (n : Nat) (v : Slice) : (setSlice s n v).rings = s.rings := rfl
@[simp] theorem setSlice_nt (n : Nat) (v : Slice) : (setSlice s n v).nt = s.nt := rfl
@[simp] theorem setSlice_die0 (n : Nat) (v : Slice) : (setSlice s n v).die0 = s.die0 := rfl
@[simp] theorem setSlice_die1 (n : Nat) (v : Slice) : (setSlice s n v).die1 = s.die1 := rfl
@[simp] theorem setSlice_sw (n : Nat) (v : Slice) : (setSlice s n v).sw = s.sw := rfl
@[simp] theorem setSlice_mram0 (n : Nat) (v : Slice) : (setSlice s n v).mram0 = s.mram0 := rfl
@[simp] theorem setSlice_mram1 (n : Nat) (v : Slice) : (setSlice s n v).mram1 = s.mram1 := rfl
@[simp] theorem setSlice_vault (n : Nat) (v : Slice) : (setSlice s n v).vault = s.vault := rfl
@[simp] theorem setSlice_conf (n : Nat) (v : Slice) : (setSlice s n v).conf = s.conf := rfl
@[simp] theorem setSlice_cores (n : Nat) (v : Slice) : (setSlice s n v).cores = s.cores := rfl
@[simp] theorem setSlice_kst (n : Nat) (v : Slice) : (setSlice s n v).kst = s.kst := rfl
@[simp] theorem setSlice_engines (n : Nat) (v : Slice) : (setSlice s n v).engines = s.engines := rfl
@[simp] theorem setSlice_pipes (n : Nat) (v : Slice) : (setSlice s n v).pipes = s.pipes := rfl
@[simp] theorem setSlice_lanes (n : Nat) (v : Slice) : (setSlice s n v).lanes = s.lanes := rfl
@[simp] theorem setSlice_passes (n : Nat) (v : Slice) : (setSlice s n v).passes = s.passes := rfl
@[simp] theorem setSlice_streams (n : Nat) (v : Slice) : (setSlice s n v).streams = s.streams := rfl
@[simp] theorem setSlice_streamSeq (n : Nat) (v : Slice) : (setSlice s n v).streamSeq = s.streamSeq := rfl
@[simp] theorem setSlice_btc (n : Nat) (v : Slice) : (setSlice s n v).btc = s.btc := rfl
@[simp] theorem setSlice_btcClock (n : Nat) (v : Slice) : (setSlice s n v).btcClock = s.btcClock := rfl
@[simp] theorem setSlice_rng0 (n : Nat) (v : Slice) : (setSlice s n v).rng0 = s.rng0 := rfl
@[simp] theorem setSlice_rng1 (n : Nat) (v : Slice) : (setSlice s n v).rng1 = s.rng1 := rfl
@[simp] theorem setSlice_drbg (n : Nat) (v : Slice) : (setSlice s n v).drbg = s.drbg := rfl
@[simp] theorem setSlice_measOwner (n : Nat) (v : Slice) : (setSlice s n v).measOwner = s.measOwner := rfl
@[simp] theorem setSlice_sram0 (n : Nat) (v : Slice) : (setSlice s n v).sram0 = s.sram0 := rfl
@[simp] theorem setSlice_sram1 (n : Nat) (v : Slice) : (setSlice s n v).sram1 = s.sram1 := rfl
@[simp] theorem setSlice_banks (n : Nat) (v : Slice) : (setSlice s n v).banks = s.banks := rfl
@[simp] theorem setSlice_rules (n : Nat) (v : Slice) : (setSlice s n v).rules = s.rules := rfl
@[simp] theorem setSlice_supply (n : Nat) (v : Slice) : (setSlice s n v).supply = s.supply := rfl
@[simp] theorem setSlice_lev (n : Nat) (v : Slice) : (setSlice s n v).lev = s.lev := rfl
@[simp] theorem setSlice_life (n : Nat) (v : Slice) : (setSlice s n v).life = s.life := rfl
@[simp] theorem setSlice_cer (n : Nat) (v : Slice) : (setSlice s n v).cer = s.cer := rfl
@[simp] theorem setSlice_rosters (n : Nat) (v : Slice) : (setSlice s n v).rosters = s.rosters := rfl
@[simp] theorem setSlice_zeroConf (n : Nat) (v : Slice) : (setSlice s n v).zeroConf = s.zeroConf := rfl
@[simp] theorem setSlice_card0 (n : Nat) (v : Slice) : (setSlice s n v).card0 = s.card0 := rfl
@[simp] theorem setSlice_card1 (n : Nat) (v : Slice) : (setSlice s n v).card1 = s.card1 := rfl
@[simp] theorem setSlice_starts (n : Nat) (v : Slice) : (setSlice s n v).starts = s.starts := rfl
@[simp] theorem setSlice_gauge (n : Nat) (v : Slice) : (setSlice s n v).gauge = s.gauge := rfl
@[simp] theorem setSlice_out (n : Nat) (v : Slice) : (setSlice s n v).out = s.out := rfl
@[simp] theorem setSlice_freeCount (n : Nat) (v : Slice) : (setSlice s n v).freeCount = s.freeCount := rfl
@[simp] theorem setSlice_pending (n : Nat) (v : Slice) : (setSlice s n v).pending = s.pending := rfl

/-! ### setRing -/

@[simp] theorem setRing_regs (n i : Nat) (v : Ring) : (setRing s n i v).regs = s.regs := rfl
@[simp] theorem setRing_portA (n i : Nat) (v : Ring) : (setRing s n i v).portA = s.portA := rfl
@[simp] theorem setRing_portB (n i : Nat) (v : Ring) : (setRing s n i v).portB = s.portB := rfl
@[simp] theorem setRing_tieB (n i : Nat) (v : Ring) : (setRing s n i v).tieB = s.tieB := rfl
@[simp] theorem setRing_sems (n i : Nat) (v : Ring) : (setRing s n i v).sems = s.sems := rfl
@[simp] theorem setRing_wardenWaiting (n i : Nat) (v : Ring) : (setRing s n i v).wardenWaiting = s.wardenWaiting := rfl
@[simp] theorem setRing_slices (n i : Nat) (v : Ring) : (setRing s n i v).slices = s.slices := rfl
@[simp] theorem setRing_nt (n i : Nat) (v : Ring) : (setRing s n i v).nt = s.nt := rfl
@[simp] theorem setRing_die0 (n i : Nat) (v : Ring) : (setRing s n i v).die0 = s.die0 := rfl
@[simp] theorem setRing_die1 (n i : Nat) (v : Ring) : (setRing s n i v).die1 = s.die1 := rfl
@[simp] theorem setRing_sw (n i : Nat) (v : Ring) : (setRing s n i v).sw = s.sw := rfl
@[simp] theorem setRing_mram0 (n i : Nat) (v : Ring) : (setRing s n i v).mram0 = s.mram0 := rfl
@[simp] theorem setRing_mram1 (n i : Nat) (v : Ring) : (setRing s n i v).mram1 = s.mram1 := rfl
@[simp] theorem setRing_vault (n i : Nat) (v : Ring) : (setRing s n i v).vault = s.vault := rfl
@[simp] theorem setRing_conf (n i : Nat) (v : Ring) : (setRing s n i v).conf = s.conf := rfl
@[simp] theorem setRing_cores (n i : Nat) (v : Ring) : (setRing s n i v).cores = s.cores := rfl
@[simp] theorem setRing_kst (n i : Nat) (v : Ring) : (setRing s n i v).kst = s.kst := rfl
@[simp] theorem setRing_engines (n i : Nat) (v : Ring) : (setRing s n i v).engines = s.engines := rfl
@[simp] theorem setRing_pipes (n i : Nat) (v : Ring) : (setRing s n i v).pipes = s.pipes := rfl
@[simp] theorem setRing_lanes (n i : Nat) (v : Ring) : (setRing s n i v).lanes = s.lanes := rfl
@[simp] theorem setRing_passes (n i : Nat) (v : Ring) : (setRing s n i v).passes = s.passes := rfl
@[simp] theorem setRing_streams (n i : Nat) (v : Ring) : (setRing s n i v).streams = s.streams := rfl
@[simp] theorem setRing_streamSeq (n i : Nat) (v : Ring) : (setRing s n i v).streamSeq = s.streamSeq := rfl
@[simp] theorem setRing_btc (n i : Nat) (v : Ring) : (setRing s n i v).btc = s.btc := rfl
@[simp] theorem setRing_btcClock (n i : Nat) (v : Ring) : (setRing s n i v).btcClock = s.btcClock := rfl
@[simp] theorem setRing_rng0 (n i : Nat) (v : Ring) : (setRing s n i v).rng0 = s.rng0 := rfl
@[simp] theorem setRing_rng1 (n i : Nat) (v : Ring) : (setRing s n i v).rng1 = s.rng1 := rfl
@[simp] theorem setRing_drbg (n i : Nat) (v : Ring) : (setRing s n i v).drbg = s.drbg := rfl
@[simp] theorem setRing_measOwner (n i : Nat) (v : Ring) : (setRing s n i v).measOwner = s.measOwner := rfl
@[simp] theorem setRing_sram0 (n i : Nat) (v : Ring) : (setRing s n i v).sram0 = s.sram0 := rfl
@[simp] theorem setRing_sram1 (n i : Nat) (v : Ring) : (setRing s n i v).sram1 = s.sram1 := rfl
@[simp] theorem setRing_banks (n i : Nat) (v : Ring) : (setRing s n i v).banks = s.banks := rfl
@[simp] theorem setRing_rules (n i : Nat) (v : Ring) : (setRing s n i v).rules = s.rules := rfl
@[simp] theorem setRing_supply (n i : Nat) (v : Ring) : (setRing s n i v).supply = s.supply := rfl
@[simp] theorem setRing_lev (n i : Nat) (v : Ring) : (setRing s n i v).lev = s.lev := rfl
@[simp] theorem setRing_life (n i : Nat) (v : Ring) : (setRing s n i v).life = s.life := rfl
@[simp] theorem setRing_cer (n i : Nat) (v : Ring) : (setRing s n i v).cer = s.cer := rfl
@[simp] theorem setRing_rosters (n i : Nat) (v : Ring) : (setRing s n i v).rosters = s.rosters := rfl
@[simp] theorem setRing_zeroConf (n i : Nat) (v : Ring) : (setRing s n i v).zeroConf = s.zeroConf := rfl
@[simp] theorem setRing_card0 (n i : Nat) (v : Ring) : (setRing s n i v).card0 = s.card0 := rfl
@[simp] theorem setRing_card1 (n i : Nat) (v : Ring) : (setRing s n i v).card1 = s.card1 := rfl
@[simp] theorem setRing_starts (n i : Nat) (v : Ring) : (setRing s n i v).starts = s.starts := rfl
@[simp] theorem setRing_gauge (n i : Nat) (v : Ring) : (setRing s n i v).gauge = s.gauge := rfl
@[simp] theorem setRing_out (n i : Nat) (v : Ring) : (setRing s n i v).out = s.out := rfl
@[simp] theorem setRing_freeCount (n i : Nat) (v : Ring) : (setRing s n i v).freeCount = s.freeCount := rfl
@[simp] theorem setRing_pending (n i : Nat) (v : Ring) : (setRing s n i v).pending = s.pending := rfl

/-! ### setSem -/

@[simp] theorem setSem_regs (n : Nat) (v : Sem) : (setSem s n v).regs = s.regs := rfl
@[simp] theorem setSem_portA (n : Nat) (v : Sem) : (setSem s n v).portA = s.portA := rfl
@[simp] theorem setSem_portB (n : Nat) (v : Sem) : (setSem s n v).portB = s.portB := rfl
@[simp] theorem setSem_tieB (n : Nat) (v : Sem) : (setSem s n v).tieB = s.tieB := rfl
@[simp] theorem setSem_wardenWaiting (n : Nat) (v : Sem) : (setSem s n v).wardenWaiting = s.wardenWaiting := rfl
@[simp] theorem setSem_slices (n : Nat) (v : Sem) : (setSem s n v).slices = s.slices := rfl
@[simp] theorem setSem_rings (n : Nat) (v : Sem) : (setSem s n v).rings = s.rings := rfl
@[simp] theorem setSem_nt (n : Nat) (v : Sem) : (setSem s n v).nt = s.nt := rfl
@[simp] theorem setSem_die0 (n : Nat) (v : Sem) : (setSem s n v).die0 = s.die0 := rfl
@[simp] theorem setSem_die1 (n : Nat) (v : Sem) : (setSem s n v).die1 = s.die1 := rfl
@[simp] theorem setSem_sw (n : Nat) (v : Sem) : (setSem s n v).sw = s.sw := rfl
@[simp] theorem setSem_mram0 (n : Nat) (v : Sem) : (setSem s n v).mram0 = s.mram0 := rfl
@[simp] theorem setSem_mram1 (n : Nat) (v : Sem) : (setSem s n v).mram1 = s.mram1 := rfl
@[simp] theorem setSem_vault (n : Nat) (v : Sem) : (setSem s n v).vault = s.vault := rfl
@[simp] theorem setSem_conf (n : Nat) (v : Sem) : (setSem s n v).conf = s.conf := rfl
@[simp] theorem setSem_cores (n : Nat) (v : Sem) : (setSem s n v).cores = s.cores := rfl
@[simp] theorem setSem_kst (n : Nat) (v : Sem) : (setSem s n v).kst = s.kst := rfl
@[simp] theorem setSem_engines (n : Nat) (v : Sem) : (setSem s n v).engines = s.engines := rfl
@[simp] theorem setSem_pipes (n : Nat) (v : Sem) : (setSem s n v).pipes = s.pipes := rfl
@[simp] theorem setSem_lanes (n : Nat) (v : Sem) : (setSem s n v).lanes = s.lanes := rfl
@[simp] theorem setSem_passes (n : Nat) (v : Sem) : (setSem s n v).passes = s.passes := rfl
@[simp] theorem setSem_streams (n : Nat) (v : Sem) : (setSem s n v).streams = s.streams := rfl
@[simp] theorem setSem_streamSeq (n : Nat) (v : Sem) : (setSem s n v).streamSeq = s.streamSeq := rfl
@[simp] theorem setSem_btc (n : Nat) (v : Sem) : (setSem s n v).btc = s.btc := rfl
@[simp] theorem setSem_btcClock (n : Nat) (v : Sem) : (setSem s n v).btcClock = s.btcClock := rfl
@[simp] theorem setSem_rng0 (n : Nat) (v : Sem) : (setSem s n v).rng0 = s.rng0 := rfl
@[simp] theorem setSem_rng1 (n : Nat) (v : Sem) : (setSem s n v).rng1 = s.rng1 := rfl
@[simp] theorem setSem_drbg (n : Nat) (v : Sem) : (setSem s n v).drbg = s.drbg := rfl
@[simp] theorem setSem_measOwner (n : Nat) (v : Sem) : (setSem s n v).measOwner = s.measOwner := rfl
@[simp] theorem setSem_sram0 (n : Nat) (v : Sem) : (setSem s n v).sram0 = s.sram0 := rfl
@[simp] theorem setSem_sram1 (n : Nat) (v : Sem) : (setSem s n v).sram1 = s.sram1 := rfl
@[simp] theorem setSem_banks (n : Nat) (v : Sem) : (setSem s n v).banks = s.banks := rfl
@[simp] theorem setSem_rules (n : Nat) (v : Sem) : (setSem s n v).rules = s.rules := rfl
@[simp] theorem setSem_supply (n : Nat) (v : Sem) : (setSem s n v).supply = s.supply := rfl
@[simp] theorem setSem_lev (n : Nat) (v : Sem) : (setSem s n v).lev = s.lev := rfl
@[simp] theorem setSem_life (n : Nat) (v : Sem) : (setSem s n v).life = s.life := rfl
@[simp] theorem setSem_cer (n : Nat) (v : Sem) : (setSem s n v).cer = s.cer := rfl
@[simp] theorem setSem_rosters (n : Nat) (v : Sem) : (setSem s n v).rosters = s.rosters := rfl
@[simp] theorem setSem_zeroConf (n : Nat) (v : Sem) : (setSem s n v).zeroConf = s.zeroConf := rfl
@[simp] theorem setSem_card0 (n : Nat) (v : Sem) : (setSem s n v).card0 = s.card0 := rfl
@[simp] theorem setSem_card1 (n : Nat) (v : Sem) : (setSem s n v).card1 = s.card1 := rfl
@[simp] theorem setSem_starts (n : Nat) (v : Sem) : (setSem s n v).starts = s.starts := rfl
@[simp] theorem setSem_gauge (n : Nat) (v : Sem) : (setSem s n v).gauge = s.gauge := rfl
@[simp] theorem setSem_out (n : Nat) (v : Sem) : (setSem s n v).out = s.out := rfl
@[simp] theorem setSem_freeCount (n : Nat) (v : Sem) : (setSem s n v).freeCount = s.freeCount := rfl
@[simp] theorem setSem_pending (n : Nat) (v : Sem) : (setSem s n v).pending = s.pending := rfl

/-! ### setCore -/

@[simp] theorem setCore_regs (c : Nat) (v : Core) : (setCore s c v).regs = s.regs := rfl
@[simp] theorem setCore_portA (c : Nat) (v : Core) : (setCore s c v).portA = s.portA := rfl
@[simp] theorem setCore_portB (c : Nat) (v : Core) : (setCore s c v).portB = s.portB := rfl
@[simp] theorem setCore_tieB (c : Nat) (v : Core) : (setCore s c v).tieB = s.tieB := rfl
@[simp] theorem setCore_sems (c : Nat) (v : Core) : (setCore s c v).sems = s.sems := rfl
@[simp] theorem setCore_wardenWaiting (c : Nat) (v : Core) : (setCore s c v).wardenWaiting = s.wardenWaiting := rfl
@[simp] theorem setCore_slices (c : Nat) (v : Core) : (setCore s c v).slices = s.slices := rfl
@[simp] theorem setCore_rings (c : Nat) (v : Core) : (setCore s c v).rings = s.rings := rfl
@[simp] theorem setCore_nt (c : Nat) (v : Core) : (setCore s c v).nt = s.nt := rfl
@[simp] theorem setCore_die0 (c : Nat) (v : Core) : (setCore s c v).die0 = s.die0 := rfl
@[simp] theorem setCore_die1 (c : Nat) (v : Core) : (setCore s c v).die1 = s.die1 := rfl
@[simp] theorem setCore_sw (c : Nat) (v : Core) : (setCore s c v).sw = s.sw := rfl
@[simp] theorem setCore_mram0 (c : Nat) (v : Core) : (setCore s c v).mram0 = s.mram0 := rfl
@[simp] theorem setCore_mram1 (c : Nat) (v : Core) : (setCore s c v).mram1 = s.mram1 := rfl
@[simp] theorem setCore_vault (c : Nat) (v : Core) : (setCore s c v).vault = s.vault := rfl
@[simp] theorem setCore_conf (c : Nat) (v : Core) : (setCore s c v).conf = s.conf := rfl
@[simp] theorem setCore_kst (c : Nat) (v : Core) : (setCore s c v).kst = s.kst := rfl
@[simp] theorem setCore_engines (c : Nat) (v : Core) : (setCore s c v).engines = s.engines := rfl
@[simp] theorem setCore_pipes (c : Nat) (v : Core) : (setCore s c v).pipes = s.pipes := rfl
@[simp] theorem setCore_lanes (c : Nat) (v : Core) : (setCore s c v).lanes = s.lanes := rfl
@[simp] theorem setCore_passes (c : Nat) (v : Core) : (setCore s c v).passes = s.passes := rfl
@[simp] theorem setCore_streams (c : Nat) (v : Core) : (setCore s c v).streams = s.streams := rfl
@[simp] theorem setCore_streamSeq (c : Nat) (v : Core) : (setCore s c v).streamSeq = s.streamSeq := rfl
@[simp] theorem setCore_btc (c : Nat) (v : Core) : (setCore s c v).btc = s.btc := rfl
@[simp] theorem setCore_btcClock (c : Nat) (v : Core) : (setCore s c v).btcClock = s.btcClock := rfl
@[simp] theorem setCore_rng0 (c : Nat) (v : Core) : (setCore s c v).rng0 = s.rng0 := rfl
@[simp] theorem setCore_rng1 (c : Nat) (v : Core) : (setCore s c v).rng1 = s.rng1 := rfl
@[simp] theorem setCore_drbg (c : Nat) (v : Core) : (setCore s c v).drbg = s.drbg := rfl
@[simp] theorem setCore_measOwner (c : Nat) (v : Core) : (setCore s c v).measOwner = s.measOwner := rfl
@[simp] theorem setCore_sram0 (c : Nat) (v : Core) : (setCore s c v).sram0 = s.sram0 := rfl
@[simp] theorem setCore_sram1 (c : Nat) (v : Core) : (setCore s c v).sram1 = s.sram1 := rfl
@[simp] theorem setCore_banks (c : Nat) (v : Core) : (setCore s c v).banks = s.banks := rfl
@[simp] theorem setCore_rules (c : Nat) (v : Core) : (setCore s c v).rules = s.rules := rfl
@[simp] theorem setCore_supply (c : Nat) (v : Core) : (setCore s c v).supply = s.supply := rfl
@[simp] theorem setCore_lev (c : Nat) (v : Core) : (setCore s c v).lev = s.lev := rfl
@[simp] theorem setCore_life (c : Nat) (v : Core) : (setCore s c v).life = s.life := rfl
@[simp] theorem setCore_cer (c : Nat) (v : Core) : (setCore s c v).cer = s.cer := rfl
@[simp] theorem setCore_rosters (c : Nat) (v : Core) : (setCore s c v).rosters = s.rosters := rfl
@[simp] theorem setCore_zeroConf (c : Nat) (v : Core) : (setCore s c v).zeroConf = s.zeroConf := rfl
@[simp] theorem setCore_card0 (c : Nat) (v : Core) : (setCore s c v).card0 = s.card0 := rfl
@[simp] theorem setCore_card1 (c : Nat) (v : Core) : (setCore s c v).card1 = s.card1 := rfl
@[simp] theorem setCore_starts (c : Nat) (v : Core) : (setCore s c v).starts = s.starts := rfl
@[simp] theorem setCore_gauge (c : Nat) (v : Core) : (setCore s c v).gauge = s.gauge := rfl
@[simp] theorem setCore_out (c : Nat) (v : Core) : (setCore s c v).out = s.out := rfl
@[simp] theorem setCore_freeCount (c : Nat) (v : Core) : (setCore s c v).freeCount = s.freeCount := rfl
@[simp] theorem setCore_pending (c : Nat) (v : Core) : (setCore s c v).pending = s.pending := rfl

/-! ### setStep -/

@[simp] theorem setStep_regs (k : Nat) (v : Step) : (setStep s k v).regs = s.regs := rfl
@[simp] theorem setStep_portA (k : Nat) (v : Step) : (setStep s k v).portA = s.portA := rfl
@[simp] theorem setStep_portB (k : Nat) (v : Step) : (setStep s k v).portB = s.portB := rfl
@[simp] theorem setStep_tieB (k : Nat) (v : Step) : (setStep s k v).tieB = s.tieB := rfl
@[simp] theorem setStep_sems (k : Nat) (v : Step) : (setStep s k v).sems = s.sems := rfl
@[simp] theorem setStep_wardenWaiting (k : Nat) (v : Step) : (setStep s k v).wardenWaiting = s.wardenWaiting := rfl
@[simp] theorem setStep_slices (k : Nat) (v : Step) : (setStep s k v).slices = s.slices := rfl
@[simp] theorem setStep_rings (k : Nat) (v : Step) : (setStep s k v).rings = s.rings := rfl
@[simp] theorem setStep_nt (k : Nat) (v : Step) : (setStep s k v).nt = s.nt := rfl
@[simp] theorem setStep_die0 (k : Nat) (v : Step) : (setStep s k v).die0 = s.die0 := rfl
@[simp] theorem setStep_die1 (k : Nat) (v : Step) : (setStep s k v).die1 = s.die1 := rfl
@[simp] theorem setStep_sw (k : Nat) (v : Step) : (setStep s k v).sw = s.sw := rfl
@[simp] theorem setStep_mram0 (k : Nat) (v : Step) : (setStep s k v).mram0 = s.mram0 := rfl
@[simp] theorem setStep_mram1 (k : Nat) (v : Step) : (setStep s k v).mram1 = s.mram1 := rfl
@[simp] theorem setStep_vault (k : Nat) (v : Step) : (setStep s k v).vault = s.vault := rfl
@[simp] theorem setStep_cores (k : Nat) (v : Step) : (setStep s k v).cores = s.cores := rfl
@[simp] theorem setStep_kst (k : Nat) (v : Step) : (setStep s k v).kst = s.kst := rfl
@[simp] theorem setStep_engines (k : Nat) (v : Step) : (setStep s k v).engines = s.engines := rfl
@[simp] theorem setStep_pipes (k : Nat) (v : Step) : (setStep s k v).pipes = s.pipes := rfl
@[simp] theorem setStep_lanes (k : Nat) (v : Step) : (setStep s k v).lanes = s.lanes := rfl
@[simp] theorem setStep_passes (k : Nat) (v : Step) : (setStep s k v).passes = s.passes := rfl
@[simp] theorem setStep_streams (k : Nat) (v : Step) : (setStep s k v).streams = s.streams := rfl
@[simp] theorem setStep_streamSeq (k : Nat) (v : Step) : (setStep s k v).streamSeq = s.streamSeq := rfl
@[simp] theorem setStep_btc (k : Nat) (v : Step) : (setStep s k v).btc = s.btc := rfl
@[simp] theorem setStep_btcClock (k : Nat) (v : Step) : (setStep s k v).btcClock = s.btcClock := rfl
@[simp] theorem setStep_rng0 (k : Nat) (v : Step) : (setStep s k v).rng0 = s.rng0 := rfl
@[simp] theorem setStep_rng1 (k : Nat) (v : Step) : (setStep s k v).rng1 = s.rng1 := rfl
@[simp] theorem setStep_drbg (k : Nat) (v : Step) : (setStep s k v).drbg = s.drbg := rfl
@[simp] theorem setStep_measOwner (k : Nat) (v : Step) : (setStep s k v).measOwner = s.measOwner := rfl
@[simp] theorem setStep_sram0 (k : Nat) (v : Step) : (setStep s k v).sram0 = s.sram0 := rfl
@[simp] theorem setStep_sram1 (k : Nat) (v : Step) : (setStep s k v).sram1 = s.sram1 := rfl
@[simp] theorem setStep_banks (k : Nat) (v : Step) : (setStep s k v).banks = s.banks := rfl
@[simp] theorem setStep_rules (k : Nat) (v : Step) : (setStep s k v).rules = s.rules := rfl
@[simp] theorem setStep_supply (k : Nat) (v : Step) : (setStep s k v).supply = s.supply := rfl
@[simp] theorem setStep_lev (k : Nat) (v : Step) : (setStep s k v).lev = s.lev := rfl
@[simp] theorem setStep_life (k : Nat) (v : Step) : (setStep s k v).life = s.life := rfl
@[simp] theorem setStep_cer (k : Nat) (v : Step) : (setStep s k v).cer = s.cer := rfl
@[simp] theorem setStep_rosters (k : Nat) (v : Step) : (setStep s k v).rosters = s.rosters := rfl
@[simp] theorem setStep_zeroConf (k : Nat) (v : Step) : (setStep s k v).zeroConf = s.zeroConf := rfl
@[simp] theorem setStep_card0 (k : Nat) (v : Step) : (setStep s k v).card0 = s.card0 := rfl
@[simp] theorem setStep_card1 (k : Nat) (v : Step) : (setStep s k v).card1 = s.card1 := rfl
@[simp] theorem setStep_starts (k : Nat) (v : Step) : (setStep s k v).starts = s.starts := rfl
@[simp] theorem setStep_gauge (k : Nat) (v : Step) : (setStep s k v).gauge = s.gauge := rfl
@[simp] theorem setStep_out (k : Nat) (v : Step) : (setStep s k v).out = s.out := rfl
@[simp] theorem setStep_freeCount (k : Nat) (v : Step) : (setStep s k v).freeCount = s.freeCount := rfl
@[simp] theorem setStep_pending (k : Nat) (v : Step) : (setStep s k v).pending = s.pending := rfl

/-! ### delStep -/

@[simp] theorem delStep_regs (k : Nat) : (delStep s k).regs = s.regs := rfl
@[simp] theorem delStep_portA (k : Nat) : (delStep s k).portA = s.portA := rfl
@[simp] theorem delStep_portB (k : Nat) : (delStep s k).portB = s.portB := rfl
@[simp] theorem delStep_tieB (k : Nat) : (delStep s k).tieB = s.tieB := rfl
@[simp] theorem delStep_sems (k : Nat) : (delStep s k).sems = s.sems := rfl
@[simp] theorem delStep_wardenWaiting (k : Nat) : (delStep s k).wardenWaiting = s.wardenWaiting := rfl
@[simp] theorem delStep_slices (k : Nat) : (delStep s k).slices = s.slices := rfl
@[simp] theorem delStep_rings (k : Nat) : (delStep s k).rings = s.rings := rfl
@[simp] theorem delStep_nt (k : Nat) : (delStep s k).nt = s.nt := rfl
@[simp] theorem delStep_die0 (k : Nat) : (delStep s k).die0 = s.die0 := rfl
@[simp] theorem delStep_die1 (k : Nat) : (delStep s k).die1 = s.die1 := rfl
@[simp] theorem delStep_sw (k : Nat) : (delStep s k).sw = s.sw := rfl
@[simp] theorem delStep_mram0 (k : Nat) : (delStep s k).mram0 = s.mram0 := rfl
@[simp] theorem delStep_mram1 (k : Nat) : (delStep s k).mram1 = s.mram1 := rfl
@[simp] theorem delStep_vault (k : Nat) : (delStep s k).vault = s.vault := rfl
@[simp] theorem delStep_cores (k : Nat) : (delStep s k).cores = s.cores := rfl
@[simp] theorem delStep_kst (k : Nat) : (delStep s k).kst = s.kst := rfl
@[simp] theorem delStep_engines (k : Nat) : (delStep s k).engines = s.engines := rfl
@[simp] theorem delStep_pipes (k : Nat) : (delStep s k).pipes = s.pipes := rfl
@[simp] theorem delStep_lanes (k : Nat) : (delStep s k).lanes = s.lanes := rfl
@[simp] theorem delStep_passes (k : Nat) : (delStep s k).passes = s.passes := rfl
@[simp] theorem delStep_streams (k : Nat) : (delStep s k).streams = s.streams := rfl
@[simp] theorem delStep_streamSeq (k : Nat) : (delStep s k).streamSeq = s.streamSeq := rfl
@[simp] theorem delStep_btc (k : Nat) : (delStep s k).btc = s.btc := rfl
@[simp] theorem delStep_btcClock (k : Nat) : (delStep s k).btcClock = s.btcClock := rfl
@[simp] theorem delStep_rng0 (k : Nat) : (delStep s k).rng0 = s.rng0 := rfl
@[simp] theorem delStep_rng1 (k : Nat) : (delStep s k).rng1 = s.rng1 := rfl
@[simp] theorem delStep_drbg (k : Nat) : (delStep s k).drbg = s.drbg := rfl
@[simp] theorem delStep_measOwner (k : Nat) : (delStep s k).measOwner = s.measOwner := rfl
@[simp] theorem delStep_sram0 (k : Nat) : (delStep s k).sram0 = s.sram0 := rfl
@[simp] theorem delStep_sram1 (k : Nat) : (delStep s k).sram1 = s.sram1 := rfl
@[simp] theorem delStep_banks (k : Nat) : (delStep s k).banks = s.banks := rfl
@[simp] theorem delStep_rules (k : Nat) : (delStep s k).rules = s.rules := rfl
@[simp] theorem delStep_supply (k : Nat) : (delStep s k).supply = s.supply := rfl
@[simp] theorem delStep_lev (k : Nat) : (delStep s k).lev = s.lev := rfl
@[simp] theorem delStep_life (k : Nat) : (delStep s k).life = s.life := rfl
@[simp] theorem delStep_cer (k : Nat) : (delStep s k).cer = s.cer := rfl
@[simp] theorem delStep_rosters (k : Nat) : (delStep s k).rosters = s.rosters := rfl
@[simp] theorem delStep_zeroConf (k : Nat) : (delStep s k).zeroConf = s.zeroConf := rfl
@[simp] theorem delStep_card0 (k : Nat) : (delStep s k).card0 = s.card0 := rfl
@[simp] theorem delStep_card1 (k : Nat) : (delStep s k).card1 = s.card1 := rfl
@[simp] theorem delStep_starts (k : Nat) : (delStep s k).starts = s.starts := rfl
@[simp] theorem delStep_gauge (k : Nat) : (delStep s k).gauge = s.gauge := rfl
@[simp] theorem delStep_out (k : Nat) : (delStep s k).out = s.out := rfl
@[simp] theorem delStep_freeCount (k : Nat) : (delStep s k).freeCount = s.freeCount := rfl
@[simp] theorem delStep_pending (k : Nat) : (delStep s k).pending = s.pending := rfl

/-! ### send -/

@[simp] theorem send_regs (o : HostOut) : (send s o).regs = s.regs := rfl
@[simp] theorem send_portA (o : HostOut) : (send s o).portA = s.portA := rfl
@[simp] theorem send_portB (o : HostOut) : (send s o).portB = s.portB := rfl
@[simp] theorem send_tieB (o : HostOut) : (send s o).tieB = s.tieB := rfl
@[simp] theorem send_sems (o : HostOut) : (send s o).sems = s.sems := rfl
@[simp] theorem send_wardenWaiting (o : HostOut) : (send s o).wardenWaiting = s.wardenWaiting := rfl
@[simp] theorem send_slices (o : HostOut) : (send s o).slices = s.slices := rfl
@[simp] theorem send_rings (o : HostOut) : (send s o).rings = s.rings := rfl
@[simp] theorem send_nt (o : HostOut) : (send s o).nt = s.nt := rfl
@[simp] theorem send_die0 (o : HostOut) : (send s o).die0 = s.die0 := rfl
@[simp] theorem send_die1 (o : HostOut) : (send s o).die1 = s.die1 := rfl
@[simp] theorem send_sw (o : HostOut) : (send s o).sw = s.sw := rfl
@[simp] theorem send_mram0 (o : HostOut) : (send s o).mram0 = s.mram0 := rfl
@[simp] theorem send_mram1 (o : HostOut) : (send s o).mram1 = s.mram1 := rfl
@[simp] theorem send_vault (o : HostOut) : (send s o).vault = s.vault := rfl
@[simp] theorem send_conf (o : HostOut) : (send s o).conf = s.conf := rfl
@[simp] theorem send_cores (o : HostOut) : (send s o).cores = s.cores := rfl
@[simp] theorem send_kst (o : HostOut) : (send s o).kst = s.kst := rfl
@[simp] theorem send_engines (o : HostOut) : (send s o).engines = s.engines := rfl
@[simp] theorem send_pipes (o : HostOut) : (send s o).pipes = s.pipes := rfl
@[simp] theorem send_lanes (o : HostOut) : (send s o).lanes = s.lanes := rfl
@[simp] theorem send_passes (o : HostOut) : (send s o).passes = s.passes := rfl
@[simp] theorem send_streams (o : HostOut) : (send s o).streams = s.streams := rfl
@[simp] theorem send_streamSeq (o : HostOut) : (send s o).streamSeq = s.streamSeq := rfl
@[simp] theorem send_btc (o : HostOut) : (send s o).btc = s.btc := rfl
@[simp] theorem send_btcClock (o : HostOut) : (send s o).btcClock = s.btcClock := rfl
@[simp] theorem send_rng0 (o : HostOut) : (send s o).rng0 = s.rng0 := rfl
@[simp] theorem send_rng1 (o : HostOut) : (send s o).rng1 = s.rng1 := rfl
@[simp] theorem send_drbg (o : HostOut) : (send s o).drbg = s.drbg := rfl
@[simp] theorem send_measOwner (o : HostOut) : (send s o).measOwner = s.measOwner := rfl
@[simp] theorem send_sram0 (o : HostOut) : (send s o).sram0 = s.sram0 := rfl
@[simp] theorem send_sram1 (o : HostOut) : (send s o).sram1 = s.sram1 := rfl
@[simp] theorem send_banks (o : HostOut) : (send s o).banks = s.banks := rfl
@[simp] theorem send_rules (o : HostOut) : (send s o).rules = s.rules := rfl
@[simp] theorem send_supply (o : HostOut) : (send s o).supply = s.supply := rfl
@[simp] theorem send_lev (o : HostOut) : (send s o).lev = s.lev := rfl
@[simp] theorem send_life (o : HostOut) : (send s o).life = s.life := rfl
@[simp] theorem send_cer (o : HostOut) : (send s o).cer = s.cer := rfl
@[simp] theorem send_rosters (o : HostOut) : (send s o).rosters = s.rosters := rfl
@[simp] theorem send_zeroConf (o : HostOut) : (send s o).zeroConf = s.zeroConf := rfl
@[simp] theorem send_card0 (o : HostOut) : (send s o).card0 = s.card0 := rfl
@[simp] theorem send_card1 (o : HostOut) : (send s o).card1 = s.card1 := rfl
@[simp] theorem send_starts (o : HostOut) : (send s o).starts = s.starts := rfl
@[simp] theorem send_gauge (o : HostOut) : (send s o).gauge = s.gauge := rfl
@[simp] theorem send_freeCount (o : HostOut) : (send s o).freeCount = s.freeCount := rfl
@[simp] theorem send_pending (o : HostOut) : (send s o).pending = s.pending := rfl

/-! ### reach -/

@[simp] theorem reach_regs (t : Nat) : (reach s t).regs = s.regs := rfl
@[simp] theorem reach_portA (t : Nat) : (reach s t).portA = s.portA := rfl
@[simp] theorem reach_portB (t : Nat) : (reach s t).portB = s.portB := rfl
@[simp] theorem reach_tieB (t : Nat) : (reach s t).tieB = s.tieB := rfl
@[simp] theorem reach_sems (t : Nat) : (reach s t).sems = s.sems := rfl
@[simp] theorem reach_wardenWaiting (t : Nat) : (reach s t).wardenWaiting = s.wardenWaiting := rfl
@[simp] theorem reach_slices (t : Nat) : (reach s t).slices = s.slices := rfl
@[simp] theorem reach_rings (t : Nat) : (reach s t).rings = s.rings := rfl
@[simp] theorem reach_die0 (t : Nat) : (reach s t).die0 = s.die0 := rfl
@[simp] theorem reach_die1 (t : Nat) : (reach s t).die1 = s.die1 := rfl
@[simp] theorem reach_sw (t : Nat) : (reach s t).sw = s.sw := rfl
@[simp] theorem reach_mram0 (t : Nat) : (reach s t).mram0 = s.mram0 := rfl
@[simp] theorem reach_mram1 (t : Nat) : (reach s t).mram1 = s.mram1 := rfl
@[simp] theorem reach_vault (t : Nat) : (reach s t).vault = s.vault := rfl
@[simp] theorem reach_conf (t : Nat) : (reach s t).conf = s.conf := rfl
@[simp] theorem reach_cores (t : Nat) : (reach s t).cores = s.cores := rfl
@[simp] theorem reach_kst (t : Nat) : (reach s t).kst = s.kst := rfl
@[simp] theorem reach_engines (t : Nat) : (reach s t).engines = s.engines := rfl
@[simp] theorem reach_pipes (t : Nat) : (reach s t).pipes = s.pipes := rfl
@[simp] theorem reach_lanes (t : Nat) : (reach s t).lanes = s.lanes := rfl
@[simp] theorem reach_passes (t : Nat) : (reach s t).passes = s.passes := rfl
@[simp] theorem reach_streams (t : Nat) : (reach s t).streams = s.streams := rfl
@[simp] theorem reach_streamSeq (t : Nat) : (reach s t).streamSeq = s.streamSeq := rfl
@[simp] theorem reach_btc (t : Nat) : (reach s t).btc = s.btc := rfl
@[simp] theorem reach_btcClock (t : Nat) : (reach s t).btcClock = s.btcClock := rfl
@[simp] theorem reach_rng0 (t : Nat) : (reach s t).rng0 = s.rng0 := rfl
@[simp] theorem reach_rng1 (t : Nat) : (reach s t).rng1 = s.rng1 := rfl
@[simp] theorem reach_drbg (t : Nat) : (reach s t).drbg = s.drbg := rfl
@[simp] theorem reach_measOwner (t : Nat) : (reach s t).measOwner = s.measOwner := rfl
@[simp] theorem reach_sram0 (t : Nat) : (reach s t).sram0 = s.sram0 := rfl
@[simp] theorem reach_sram1 (t : Nat) : (reach s t).sram1 = s.sram1 := rfl
@[simp] theorem reach_banks (t : Nat) : (reach s t).banks = s.banks := rfl
@[simp] theorem reach_rules (t : Nat) : (reach s t).rules = s.rules := rfl
@[simp] theorem reach_supply (t : Nat) : (reach s t).supply = s.supply := rfl
@[simp] theorem reach_lev (t : Nat) : (reach s t).lev = s.lev := rfl
@[simp] theorem reach_life (t : Nat) : (reach s t).life = s.life := rfl
@[simp] theorem reach_cer (t : Nat) : (reach s t).cer = s.cer := rfl
@[simp] theorem reach_rosters (t : Nat) : (reach s t).rosters = s.rosters := rfl
@[simp] theorem reach_zeroConf (t : Nat) : (reach s t).zeroConf = s.zeroConf := rfl
@[simp] theorem reach_card0 (t : Nat) : (reach s t).card0 = s.card0 := rfl
@[simp] theorem reach_card1 (t : Nat) : (reach s t).card1 = s.card1 := rfl
@[simp] theorem reach_starts (t : Nat) : (reach s t).starts = s.starts := rfl
@[simp] theorem reach_gauge (t : Nat) : (reach s t).gauge = s.gauge := rfl
@[simp] theorem reach_out (t : Nat) : (reach s t).out = s.out := rfl
@[simp] theorem reach_freeCount (t : Nat) : (reach s t).freeCount = s.freeCount := rfl
@[simp] theorem reach_pending (t : Nat) : (reach s t).pending = s.pending := rfl

/-! ### setRng -/

@[simp] theorem setRng_regs (d : Die) (r : Rng) : (setRng s d r).regs = s.regs := by cases d <;> rfl
@[simp] theorem setRng_portA (d : Die) (r : Rng) : (setRng s d r).portA = s.portA := by cases d <;> rfl
@[simp] theorem setRng_portB (d : Die) (r : Rng) : (setRng s d r).portB = s.portB := by cases d <;> rfl
@[simp] theorem setRng_tieB (d : Die) (r : Rng) : (setRng s d r).tieB = s.tieB := by cases d <;> rfl
@[simp] theorem setRng_sems (d : Die) (r : Rng) : (setRng s d r).sems = s.sems := by cases d <;> rfl
@[simp] theorem setRng_wardenWaiting (d : Die) (r : Rng) : (setRng s d r).wardenWaiting = s.wardenWaiting := by cases d <;> rfl
@[simp] theorem setRng_slices (d : Die) (r : Rng) : (setRng s d r).slices = s.slices := by cases d <;> rfl
@[simp] theorem setRng_rings (d : Die) (r : Rng) : (setRng s d r).rings = s.rings := by cases d <;> rfl
@[simp] theorem setRng_nt (d : Die) (r : Rng) : (setRng s d r).nt = s.nt := by cases d <;> rfl
@[simp] theorem setRng_die0 (d : Die) (r : Rng) : (setRng s d r).die0 = s.die0 := by cases d <;> rfl
@[simp] theorem setRng_die1 (d : Die) (r : Rng) : (setRng s d r).die1 = s.die1 := by cases d <;> rfl
@[simp] theorem setRng_sw (d : Die) (r : Rng) : (setRng s d r).sw = s.sw := by cases d <;> rfl
@[simp] theorem setRng_mram0 (d : Die) (r : Rng) : (setRng s d r).mram0 = s.mram0 := by cases d <;> rfl
@[simp] theorem setRng_mram1 (d : Die) (r : Rng) : (setRng s d r).mram1 = s.mram1 := by cases d <;> rfl
@[simp] theorem setRng_vault (d : Die) (r : Rng) : (setRng s d r).vault = s.vault := by cases d <;> rfl
@[simp] theorem setRng_conf (d : Die) (r : Rng) : (setRng s d r).conf = s.conf := by cases d <;> rfl
@[simp] theorem setRng_cores (d : Die) (r : Rng) : (setRng s d r).cores = s.cores := by cases d <;> rfl
@[simp] theorem setRng_kst (d : Die) (r : Rng) : (setRng s d r).kst = s.kst := by cases d <;> rfl
@[simp] theorem setRng_engines (d : Die) (r : Rng) : (setRng s d r).engines = s.engines := by cases d <;> rfl
@[simp] theorem setRng_pipes (d : Die) (r : Rng) : (setRng s d r).pipes = s.pipes := by cases d <;> rfl
@[simp] theorem setRng_lanes (d : Die) (r : Rng) : (setRng s d r).lanes = s.lanes := by cases d <;> rfl
@[simp] theorem setRng_passes (d : Die) (r : Rng) : (setRng s d r).passes = s.passes := by cases d <;> rfl
@[simp] theorem setRng_streams (d : Die) (r : Rng) : (setRng s d r).streams = s.streams := by cases d <;> rfl
@[simp] theorem setRng_streamSeq (d : Die) (r : Rng) : (setRng s d r).streamSeq = s.streamSeq := by cases d <;> rfl
@[simp] theorem setRng_btc (d : Die) (r : Rng) : (setRng s d r).btc = s.btc := by cases d <;> rfl
@[simp] theorem setRng_btcClock (d : Die) (r : Rng) : (setRng s d r).btcClock = s.btcClock := by cases d <;> rfl
@[simp] theorem setRng_drbg (d : Die) (r : Rng) : (setRng s d r).drbg = s.drbg := by cases d <;> rfl
@[simp] theorem setRng_measOwner (d : Die) (r : Rng) : (setRng s d r).measOwner = s.measOwner := by cases d <;> rfl
@[simp] theorem setRng_sram0 (d : Die) (r : Rng) : (setRng s d r).sram0 = s.sram0 := by cases d <;> rfl
@[simp] theorem setRng_sram1 (d : Die) (r : Rng) : (setRng s d r).sram1 = s.sram1 := by cases d <;> rfl
@[simp] theorem setRng_banks (d : Die) (r : Rng) : (setRng s d r).banks = s.banks := by cases d <;> rfl
@[simp] theorem setRng_rules (d : Die) (r : Rng) : (setRng s d r).rules = s.rules := by cases d <;> rfl
@[simp] theorem setRng_supply (d : Die) (r : Rng) : (setRng s d r).supply = s.supply := by cases d <;> rfl
@[simp] theorem setRng_lev (d : Die) (r : Rng) : (setRng s d r).lev = s.lev := by cases d <;> rfl
@[simp] theorem setRng_life (d : Die) (r : Rng) : (setRng s d r).life = s.life := by cases d <;> rfl
@[simp] theorem setRng_cer (d : Die) (r : Rng) : (setRng s d r).cer = s.cer := by cases d <;> rfl
@[simp] theorem setRng_rosters (d : Die) (r : Rng) : (setRng s d r).rosters = s.rosters := by cases d <;> rfl
@[simp] theorem setRng_zeroConf (d : Die) (r : Rng) : (setRng s d r).zeroConf = s.zeroConf := by cases d <;> rfl
@[simp] theorem setRng_card0 (d : Die) (r : Rng) : (setRng s d r).card0 = s.card0 := by cases d <;> rfl
@[simp] theorem setRng_card1 (d : Die) (r : Rng) : (setRng s d r).card1 = s.card1 := by cases d <;> rfl
@[simp] theorem setRng_starts (d : Die) (r : Rng) : (setRng s d r).starts = s.starts := by cases d <;> rfl
@[simp] theorem setRng_gauge (d : Die) (r : Rng) : (setRng s d r).gauge = s.gauge := by cases d <;> rfl
@[simp] theorem setRng_out (d : Die) (r : Rng) : (setRng s d r).out = s.out := by cases d <;> rfl
@[simp] theorem setRng_freeCount (d : Die) (r : Rng) : (setRng s d r).freeCount = s.freeCount := by cases d <;> rfl
@[simp] theorem setRng_pending (d : Die) (r : Rng) : (setRng s d r).pending = s.pending := by cases d <;> rfl

/-! ### setEngine -/

@[simp] theorem setEngine_regs (i : Nat) (e : Engine) : (setEngine s i e).regs = s.regs := rfl
@[simp] theorem setEngine_portA (i : Nat) (e : Engine) : (setEngine s i e).portA = s.portA := rfl
@[simp] theorem setEngine_portB (i : Nat) (e : Engine) : (setEngine s i e).portB = s.portB := rfl
@[simp] theorem setEngine_tieB (i : Nat) (e : Engine) : (setEngine s i e).tieB = s.tieB := rfl
@[simp] theorem setEngine_sems (i : Nat) (e : Engine) : (setEngine s i e).sems = s.sems := rfl
@[simp] theorem setEngine_wardenWaiting (i : Nat) (e : Engine) : (setEngine s i e).wardenWaiting = s.wardenWaiting := rfl
@[simp] theorem setEngine_slices (i : Nat) (e : Engine) : (setEngine s i e).slices = s.slices := rfl
@[simp] theorem setEngine_rings (i : Nat) (e : Engine) : (setEngine s i e).rings = s.rings := rfl
@[simp] theorem setEngine_nt (i : Nat) (e : Engine) : (setEngine s i e).nt = s.nt := rfl
@[simp] theorem setEngine_die0 (i : Nat) (e : Engine) : (setEngine s i e).die0 = s.die0 := rfl
@[simp] theorem setEngine_die1 (i : Nat) (e : Engine) : (setEngine s i e).die1 = s.die1 := rfl
@[simp] theorem setEngine_sw (i : Nat) (e : Engine) : (setEngine s i e).sw = s.sw := rfl
@[simp] theorem setEngine_mram0 (i : Nat) (e : Engine) : (setEngine s i e).mram0 = s.mram0 := rfl
@[simp] theorem setEngine_mram1 (i : Nat) (e : Engine) : (setEngine s i e).mram1 = s.mram1 := rfl
@[simp] theorem setEngine_vault (i : Nat) (e : Engine) : (setEngine s i e).vault = s.vault := rfl
@[simp] theorem setEngine_conf (i : Nat) (e : Engine) : (setEngine s i e).conf = s.conf := rfl
@[simp] theorem setEngine_cores (i : Nat) (e : Engine) : (setEngine s i e).cores = s.cores := rfl
@[simp] theorem setEngine_kst (i : Nat) (e : Engine) : (setEngine s i e).kst = s.kst := rfl
@[simp] theorem setEngine_pipes (i : Nat) (e : Engine) : (setEngine s i e).pipes = s.pipes := rfl
@[simp] theorem setEngine_lanes (i : Nat) (e : Engine) : (setEngine s i e).lanes = s.lanes := rfl
@[simp] theorem setEngine_passes (i : Nat) (e : Engine) : (setEngine s i e).passes = s.passes := rfl
@[simp] theorem setEngine_streams (i : Nat) (e : Engine) : (setEngine s i e).streams = s.streams := rfl
@[simp] theorem setEngine_streamSeq (i : Nat) (e : Engine) : (setEngine s i e).streamSeq = s.streamSeq := rfl
@[simp] theorem setEngine_btc (i : Nat) (e : Engine) : (setEngine s i e).btc = s.btc := rfl
@[simp] theorem setEngine_btcClock (i : Nat) (e : Engine) : (setEngine s i e).btcClock = s.btcClock := rfl
@[simp] theorem setEngine_rng0 (i : Nat) (e : Engine) : (setEngine s i e).rng0 = s.rng0 := rfl
@[simp] theorem setEngine_rng1 (i : Nat) (e : Engine) : (setEngine s i e).rng1 = s.rng1 := rfl
@[simp] theorem setEngine_drbg (i : Nat) (e : Engine) : (setEngine s i e).drbg = s.drbg := rfl
@[simp] theorem setEngine_measOwner (i : Nat) (e : Engine) : (setEngine s i e).measOwner = s.measOwner := rfl
@[simp] theorem setEngine_sram0 (i : Nat) (e : Engine) : (setEngine s i e).sram0 = s.sram0 := rfl
@[simp] theorem setEngine_sram1 (i : Nat) (e : Engine) : (setEngine s i e).sram1 = s.sram1 := rfl
@[simp] theorem setEngine_banks (i : Nat) (e : Engine) : (setEngine s i e).banks = s.banks := rfl
@[simp] theorem setEngine_rules (i : Nat) (e : Engine) : (setEngine s i e).rules = s.rules := rfl
@[simp] theorem setEngine_supply (i : Nat) (e : Engine) : (setEngine s i e).supply = s.supply := rfl
@[simp] theorem setEngine_lev (i : Nat) (e : Engine) : (setEngine s i e).lev = s.lev := rfl
@[simp] theorem setEngine_life (i : Nat) (e : Engine) : (setEngine s i e).life = s.life := rfl
@[simp] theorem setEngine_cer (i : Nat) (e : Engine) : (setEngine s i e).cer = s.cer := rfl
@[simp] theorem setEngine_rosters (i : Nat) (e : Engine) : (setEngine s i e).rosters = s.rosters := rfl
@[simp] theorem setEngine_zeroConf (i : Nat) (e : Engine) : (setEngine s i e).zeroConf = s.zeroConf := rfl
@[simp] theorem setEngine_card0 (i : Nat) (e : Engine) : (setEngine s i e).card0 = s.card0 := rfl
@[simp] theorem setEngine_card1 (i : Nat) (e : Engine) : (setEngine s i e).card1 = s.card1 := rfl
@[simp] theorem setEngine_starts (i : Nat) (e : Engine) : (setEngine s i e).starts = s.starts := rfl
@[simp] theorem setEngine_gauge (i : Nat) (e : Engine) : (setEngine s i e).gauge = s.gauge := rfl
@[simp] theorem setEngine_out (i : Nat) (e : Engine) : (setEngine s i e).out = s.out := rfl
@[simp] theorem setEngine_freeCount (i : Nat) (e : Engine) : (setEngine s i e).freeCount = s.freeCount := rfl
@[simp] theorem setEngine_pending (i : Nat) (e : Engine) : (setEngine s i e).pending = s.pending := rfl

/-! ### setPipe -/

@[simp] theorem setPipe_regs (i : Nat) (p : Pipe) : (setPipe s i p).regs = s.regs := rfl
@[simp] theorem setPipe_portA (i : Nat) (p : Pipe) : (setPipe s i p).portA = s.portA := rfl
@[simp] theorem setPipe_portB (i : Nat) (p : Pipe) : (setPipe s i p).portB = s.portB := rfl
@[simp] theorem setPipe_tieB (i : Nat) (p : Pipe) : (setPipe s i p).tieB = s.tieB := rfl
@[simp] theorem setPipe_sems (i : Nat) (p : Pipe) : (setPipe s i p).sems = s.sems := rfl
@[simp] theorem setPipe_wardenWaiting (i : Nat) (p : Pipe) : (setPipe s i p).wardenWaiting = s.wardenWaiting := rfl
@[simp] theorem setPipe_slices (i : Nat) (p : Pipe) : (setPipe s i p).slices = s.slices := rfl
@[simp] theorem setPipe_rings (i : Nat) (p : Pipe) : (setPipe s i p).rings = s.rings := rfl
@[simp] theorem setPipe_nt (i : Nat) (p : Pipe) : (setPipe s i p).nt = s.nt := rfl
@[simp] theorem setPipe_die0 (i : Nat) (p : Pipe) : (setPipe s i p).die0 = s.die0 := rfl
@[simp] theorem setPipe_die1 (i : Nat) (p : Pipe) : (setPipe s i p).die1 = s.die1 := rfl
@[simp] theorem setPipe_sw (i : Nat) (p : Pipe) : (setPipe s i p).sw = s.sw := rfl
@[simp] theorem setPipe_mram0 (i : Nat) (p : Pipe) : (setPipe s i p).mram0 = s.mram0 := rfl
@[simp] theorem setPipe_mram1 (i : Nat) (p : Pipe) : (setPipe s i p).mram1 = s.mram1 := rfl
@[simp] theorem setPipe_vault (i : Nat) (p : Pipe) : (setPipe s i p).vault = s.vault := rfl
@[simp] theorem setPipe_conf (i : Nat) (p : Pipe) : (setPipe s i p).conf = s.conf := rfl
@[simp] theorem setPipe_cores (i : Nat) (p : Pipe) : (setPipe s i p).cores = s.cores := rfl
@[simp] theorem setPipe_kst (i : Nat) (p : Pipe) : (setPipe s i p).kst = s.kst := rfl
@[simp] theorem setPipe_engines (i : Nat) (p : Pipe) : (setPipe s i p).engines = s.engines := rfl
@[simp] theorem setPipe_lanes (i : Nat) (p : Pipe) : (setPipe s i p).lanes = s.lanes := rfl
@[simp] theorem setPipe_passes (i : Nat) (p : Pipe) : (setPipe s i p).passes = s.passes := rfl
@[simp] theorem setPipe_streams (i : Nat) (p : Pipe) : (setPipe s i p).streams = s.streams := rfl
@[simp] theorem setPipe_streamSeq (i : Nat) (p : Pipe) : (setPipe s i p).streamSeq = s.streamSeq := rfl
@[simp] theorem setPipe_btc (i : Nat) (p : Pipe) : (setPipe s i p).btc = s.btc := rfl
@[simp] theorem setPipe_btcClock (i : Nat) (p : Pipe) : (setPipe s i p).btcClock = s.btcClock := rfl
@[simp] theorem setPipe_rng0 (i : Nat) (p : Pipe) : (setPipe s i p).rng0 = s.rng0 := rfl
@[simp] theorem setPipe_rng1 (i : Nat) (p : Pipe) : (setPipe s i p).rng1 = s.rng1 := rfl
@[simp] theorem setPipe_drbg (i : Nat) (p : Pipe) : (setPipe s i p).drbg = s.drbg := rfl
@[simp] theorem setPipe_measOwner (i : Nat) (p : Pipe) : (setPipe s i p).measOwner = s.measOwner := rfl
@[simp] theorem setPipe_sram0 (i : Nat) (p : Pipe) : (setPipe s i p).sram0 = s.sram0 := rfl
@[simp] theorem setPipe_sram1 (i : Nat) (p : Pipe) : (setPipe s i p).sram1 = s.sram1 := rfl
@[simp] theorem setPipe_banks (i : Nat) (p : Pipe) : (setPipe s i p).banks = s.banks := rfl
@[simp] theorem setPipe_rules (i : Nat) (p : Pipe) : (setPipe s i p).rules = s.rules := rfl
@[simp] theorem setPipe_supply (i : Nat) (p : Pipe) : (setPipe s i p).supply = s.supply := rfl
@[simp] theorem setPipe_lev (i : Nat) (p : Pipe) : (setPipe s i p).lev = s.lev := rfl
@[simp] theorem setPipe_life (i : Nat) (p : Pipe) : (setPipe s i p).life = s.life := rfl
@[simp] theorem setPipe_cer (i : Nat) (p : Pipe) : (setPipe s i p).cer = s.cer := rfl
@[simp] theorem setPipe_rosters (i : Nat) (p : Pipe) : (setPipe s i p).rosters = s.rosters := rfl
@[simp] theorem setPipe_zeroConf (i : Nat) (p : Pipe) : (setPipe s i p).zeroConf = s.zeroConf := rfl
@[simp] theorem setPipe_card0 (i : Nat) (p : Pipe) : (setPipe s i p).card0 = s.card0 := rfl
@[simp] theorem setPipe_card1 (i : Nat) (p : Pipe) : (setPipe s i p).card1 = s.card1 := rfl
@[simp] theorem setPipe_starts (i : Nat) (p : Pipe) : (setPipe s i p).starts = s.starts := rfl
@[simp] theorem setPipe_gauge (i : Nat) (p : Pipe) : (setPipe s i p).gauge = s.gauge := rfl
@[simp] theorem setPipe_out (i : Nat) (p : Pipe) : (setPipe s i p).out = s.out := rfl
@[simp] theorem setPipe_freeCount (i : Nat) (p : Pipe) : (setPipe s i p).freeCount = s.freeCount := rfl
@[simp] theorem setPipe_pending (i : Nat) (p : Pipe) : (setPipe s i p).pending = s.pending := rfl

/-! ### setLane -/

@[simp] theorem setLane_regs (c : Nat) (l : Lane) : (setLane s c l).regs = s.regs := rfl
@[simp] theorem setLane_portA (c : Nat) (l : Lane) : (setLane s c l).portA = s.portA := rfl
@[simp] theorem setLane_portB (c : Nat) (l : Lane) : (setLane s c l).portB = s.portB := rfl
@[simp] theorem setLane_tieB (c : Nat) (l : Lane) : (setLane s c l).tieB = s.tieB := rfl
@[simp] theorem setLane_sems (c : Nat) (l : Lane) : (setLane s c l).sems = s.sems := rfl
@[simp] theorem setLane_wardenWaiting (c : Nat) (l : Lane) : (setLane s c l).wardenWaiting = s.wardenWaiting := rfl
@[simp] theorem setLane_slices (c : Nat) (l : Lane) : (setLane s c l).slices = s.slices := rfl
@[simp] theorem setLane_rings (c : Nat) (l : Lane) : (setLane s c l).rings = s.rings := rfl
@[simp] theorem setLane_nt (c : Nat) (l : Lane) : (setLane s c l).nt = s.nt := rfl
@[simp] theorem setLane_die0 (c : Nat) (l : Lane) : (setLane s c l).die0 = s.die0 := rfl
@[simp] theorem setLane_die1 (c : Nat) (l : Lane) : (setLane s c l).die1 = s.die1 := rfl
@[simp] theorem setLane_sw (c : Nat) (l : Lane) : (setLane s c l).sw = s.sw := rfl
@[simp] theorem setLane_mram0 (c : Nat) (l : Lane) : (setLane s c l).mram0 = s.mram0 := rfl
@[simp] theorem setLane_mram1 (c : Nat) (l : Lane) : (setLane s c l).mram1 = s.mram1 := rfl
@[simp] theorem setLane_vault (c : Nat) (l : Lane) : (setLane s c l).vault = s.vault := rfl
@[simp] theorem setLane_conf (c : Nat) (l : Lane) : (setLane s c l).conf = s.conf := rfl
@[simp] theorem setLane_cores (c : Nat) (l : Lane) : (setLane s c l).cores = s.cores := rfl
@[simp] theorem setLane_kst (c : Nat) (l : Lane) : (setLane s c l).kst = s.kst := rfl
@[simp] theorem setLane_engines (c : Nat) (l : Lane) : (setLane s c l).engines = s.engines := rfl
@[simp] theorem setLane_pipes (c : Nat) (l : Lane) : (setLane s c l).pipes = s.pipes := rfl
@[simp] theorem setLane_passes (c : Nat) (l : Lane) : (setLane s c l).passes = s.passes := rfl
@[simp] theorem setLane_streams (c : Nat) (l : Lane) : (setLane s c l).streams = s.streams := rfl
@[simp] theorem setLane_streamSeq (c : Nat) (l : Lane) : (setLane s c l).streamSeq = s.streamSeq := rfl
@[simp] theorem setLane_btc (c : Nat) (l : Lane) : (setLane s c l).btc = s.btc := rfl
@[simp] theorem setLane_btcClock (c : Nat) (l : Lane) : (setLane s c l).btcClock = s.btcClock := rfl
@[simp] theorem setLane_rng0 (c : Nat) (l : Lane) : (setLane s c l).rng0 = s.rng0 := rfl
@[simp] theorem setLane_rng1 (c : Nat) (l : Lane) : (setLane s c l).rng1 = s.rng1 := rfl
@[simp] theorem setLane_drbg (c : Nat) (l : Lane) : (setLane s c l).drbg = s.drbg := rfl
@[simp] theorem setLane_measOwner (c : Nat) (l : Lane) : (setLane s c l).measOwner = s.measOwner := rfl
@[simp] theorem setLane_sram0 (c : Nat) (l : Lane) : (setLane s c l).sram0 = s.sram0 := rfl
@[simp] theorem setLane_sram1 (c : Nat) (l : Lane) : (setLane s c l).sram1 = s.sram1 := rfl
@[simp] theorem setLane_banks (c : Nat) (l : Lane) : (setLane s c l).banks = s.banks := rfl
@[simp] theorem setLane_rules (c : Nat) (l : Lane) : (setLane s c l).rules = s.rules := rfl
@[simp] theorem setLane_supply (c : Nat) (l : Lane) : (setLane s c l).supply = s.supply := rfl
@[simp] theorem setLane_lev (c : Nat) (l : Lane) : (setLane s c l).lev = s.lev := rfl
@[simp] theorem setLane_life (c : Nat) (l : Lane) : (setLane s c l).life = s.life := rfl
@[simp] theorem setLane_cer (c : Nat) (l : Lane) : (setLane s c l).cer = s.cer := rfl
@[simp] theorem setLane_rosters (c : Nat) (l : Lane) : (setLane s c l).rosters = s.rosters := rfl
@[simp] theorem setLane_zeroConf (c : Nat) (l : Lane) : (setLane s c l).zeroConf = s.zeroConf := rfl
@[simp] theorem setLane_card0 (c : Nat) (l : Lane) : (setLane s c l).card0 = s.card0 := rfl
@[simp] theorem setLane_card1 (c : Nat) (l : Lane) : (setLane s c l).card1 = s.card1 := rfl
@[simp] theorem setLane_starts (c : Nat) (l : Lane) : (setLane s c l).starts = s.starts := rfl
@[simp] theorem setLane_gauge (c : Nat) (l : Lane) : (setLane s c l).gauge = s.gauge := rfl
@[simp] theorem setLane_out (c : Nat) (l : Lane) : (setLane s c l).out = s.out := rfl
@[simp] theorem setLane_freeCount (c : Nat) (l : Lane) : (setLane s c l).freeCount = s.freeCount := rfl
@[simp] theorem setLane_pending (c : Nat) (l : Lane) : (setLane s c l).pending = s.pending := rfl

/-! ### setRules -/

@[simp] theorem setRules_regs (c : Nat) (r : RuleSets) : (setRules s c r).regs = s.regs := rfl
@[simp] theorem setRules_portA (c : Nat) (r : RuleSets) : (setRules s c r).portA = s.portA := rfl
@[simp] theorem setRules_portB (c : Nat) (r : RuleSets) : (setRules s c r).portB = s.portB := rfl
@[simp] theorem setRules_tieB (c : Nat) (r : RuleSets) : (setRules s c r).tieB = s.tieB := rfl
@[simp] theorem setRules_sems (c : Nat) (r : RuleSets) : (setRules s c r).sems = s.sems := rfl
@[simp] theorem setRules_wardenWaiting (c : Nat) (r : RuleSets) : (setRules s c r).wardenWaiting = s.wardenWaiting := rfl
@[simp] theorem setRules_slices (c : Nat) (r : RuleSets) : (setRules s c r).slices = s.slices := rfl
@[simp] theorem setRules_rings (c : Nat) (r : RuleSets) : (setRules s c r).rings = s.rings := rfl
@[simp] theorem setRules_nt (c : Nat) (r : RuleSets) : (setRules s c r).nt = s.nt := rfl
@[simp] theorem setRules_die0 (c : Nat) (r : RuleSets) : (setRules s c r).die0 = s.die0 := rfl
@[simp] theorem setRules_die1 (c : Nat) (r : RuleSets) : (setRules s c r).die1 = s.die1 := rfl
@[simp] theorem setRules_sw (c : Nat) (r : RuleSets) : (setRules s c r).sw = s.sw := rfl
@[simp] theorem setRules_mram0 (c : Nat) (r : RuleSets) : (setRules s c r).mram0 = s.mram0 := rfl
@[simp] theorem setRules_mram1 (c : Nat) (r : RuleSets) : (setRules s c r).mram1 = s.mram1 := rfl
@[simp] theorem setRules_vault (c : Nat) (r : RuleSets) : (setRules s c r).vault = s.vault := rfl
@[simp] theorem setRules_conf (c : Nat) (r : RuleSets) : (setRules s c r).conf = s.conf := rfl
@[simp] theorem setRules_cores (c : Nat) (r : RuleSets) : (setRules s c r).cores = s.cores := rfl
@[simp] theorem setRules_kst (c : Nat) (r : RuleSets) : (setRules s c r).kst = s.kst := rfl
@[simp] theorem setRules_engines (c : Nat) (r : RuleSets) : (setRules s c r).engines = s.engines := rfl
@[simp] theorem setRules_pipes (c : Nat) (r : RuleSets) : (setRules s c r).pipes = s.pipes := rfl
@[simp] theorem setRules_lanes (c : Nat) (r : RuleSets) : (setRules s c r).lanes = s.lanes := rfl
@[simp] theorem setRules_passes (c : Nat) (r : RuleSets) : (setRules s c r).passes = s.passes := rfl
@[simp] theorem setRules_streams (c : Nat) (r : RuleSets) : (setRules s c r).streams = s.streams := rfl
@[simp] theorem setRules_streamSeq (c : Nat) (r : RuleSets) : (setRules s c r).streamSeq = s.streamSeq := rfl
@[simp] theorem setRules_btc (c : Nat) (r : RuleSets) : (setRules s c r).btc = s.btc := rfl
@[simp] theorem setRules_btcClock (c : Nat) (r : RuleSets) : (setRules s c r).btcClock = s.btcClock := rfl
@[simp] theorem setRules_rng0 (c : Nat) (r : RuleSets) : (setRules s c r).rng0 = s.rng0 := rfl
@[simp] theorem setRules_rng1 (c : Nat) (r : RuleSets) : (setRules s c r).rng1 = s.rng1 := rfl
@[simp] theorem setRules_drbg (c : Nat) (r : RuleSets) : (setRules s c r).drbg = s.drbg := rfl
@[simp] theorem setRules_measOwner (c : Nat) (r : RuleSets) : (setRules s c r).measOwner = s.measOwner := rfl
@[simp] theorem setRules_sram0 (c : Nat) (r : RuleSets) : (setRules s c r).sram0 = s.sram0 := rfl
@[simp] theorem setRules_sram1 (c : Nat) (r : RuleSets) : (setRules s c r).sram1 = s.sram1 := rfl
@[simp] theorem setRules_banks (c : Nat) (r : RuleSets) : (setRules s c r).banks = s.banks := rfl
@[simp] theorem setRules_supply (c : Nat) (r : RuleSets) : (setRules s c r).supply = s.supply := rfl
@[simp] theorem setRules_lev (c : Nat) (r : RuleSets) : (setRules s c r).lev = s.lev := rfl
@[simp] theorem setRules_life (c : Nat) (r : RuleSets) : (setRules s c r).life = s.life := rfl
@[simp] theorem setRules_cer (c : Nat) (r : RuleSets) : (setRules s c r).cer = s.cer := rfl
@[simp] theorem setRules_rosters (c : Nat) (r : RuleSets) : (setRules s c r).rosters = s.rosters := rfl
@[simp] theorem setRules_zeroConf (c : Nat) (r : RuleSets) : (setRules s c r).zeroConf = s.zeroConf := rfl
@[simp] theorem setRules_card0 (c : Nat) (r : RuleSets) : (setRules s c r).card0 = s.card0 := rfl
@[simp] theorem setRules_card1 (c : Nat) (r : RuleSets) : (setRules s c r).card1 = s.card1 := rfl
@[simp] theorem setRules_starts (c : Nat) (r : RuleSets) : (setRules s c r).starts = s.starts := rfl
@[simp] theorem setRules_gauge (c : Nat) (r : RuleSets) : (setRules s c r).gauge = s.gauge := rfl
@[simp] theorem setRules_out (c : Nat) (r : RuleSets) : (setRules s c r).out = s.out := rfl
@[simp] theorem setRules_freeCount (c : Nat) (r : RuleSets) : (setRules s c r).freeCount = s.freeCount := rfl
@[simp] theorem setRules_pending (c : Nat) (r : RuleSets) : (setRules s c r).pending = s.pending := rfl

/-! ### setBank -/

@[simp] theorem setBank_regs (d : Die) (b : Nat) (v : Bank) : (setBank s d b v).regs = s.regs := rfl
@[simp] theorem setBank_portA (d : Die) (b : Nat) (v : Bank) : (setBank s d b v).portA = s.portA := rfl
@[simp] theorem setBank_portB (d : Die) (b : Nat) (v : Bank) : (setBank s d b v).portB = s.portB := rfl
@[simp] theorem setBank_tieB (d : Die) (b : Nat) (v : Bank) : (setBank s d b v).tieB = s.tieB := rfl
@[simp] theorem setBank_sems (d : Die) (b : Nat) (v : Bank) : (setBank s d b v).sems = s.sems := rfl
@[simp] theorem setBank_wardenWaiting (d : Die) (b : Nat) (v : Bank) : (setBank s d b v).wardenWaiting = s.wardenWaiting := rfl
@[simp] theorem setBank_slices (d : Die) (b : Nat) (v : Bank) : (setBank s d b v).slices = s.slices := rfl
@[simp] theorem setBank_rings (d : Die) (b : Nat) (v : Bank) : (setBank s d b v).rings = s.rings := rfl
@[simp] theorem setBank_nt (d : Die) (b : Nat) (v : Bank) : (setBank s d b v).nt = s.nt := rfl
@[simp] theorem setBank_die0 (d : Die) (b : Nat) (v : Bank) : (setBank s d b v).die0 = s.die0 := rfl
@[simp] theorem setBank_die1 (d : Die) (b : Nat) (v : Bank) : (setBank s d b v).die1 = s.die1 := rfl
@[simp] theorem setBank_sw (d : Die) (b : Nat) (v : Bank) : (setBank s d b v).sw = s.sw := rfl
@[simp] theorem setBank_mram0 (d : Die) (b : Nat) (v : Bank) : (setBank s d b v).mram0 = s.mram0 := rfl
@[simp] theorem setBank_mram1 (d : Die) (b : Nat) (v : Bank) : (setBank s d b v).mram1 = s.mram1 := rfl
@[simp] theorem setBank_vault (d : Die) (b : Nat) (v : Bank) : (setBank s d b v).vault = s.vault := rfl
@[simp] theorem setBank_conf (d : Die) (b : Nat) (v : Bank) : (setBank s d b v).conf = s.conf := rfl
@[simp] theorem setBank_cores (d : Die) (b : Nat) (v : Bank) : (setBank s d b v).cores = s.cores := rfl
@[simp] theorem setBank_kst (d : Die) (b : Nat) (v : Bank) : (setBank s d b v).kst = s.kst := rfl
@[simp] theorem setBank_engines (d : Die) (b : Nat) (v : Bank) : (setBank s d b v).engines = s.engines := rfl
@[simp] theorem setBank_pipes (d : Die) (b : Nat) (v : Bank) : (setBank s d b v).pipes = s.pipes := rfl
@[simp] theorem setBank_lanes (d : Die) (b : Nat) (v : Bank) : (setBank s d b v).lanes = s.lanes := rfl
@[simp] theorem setBank_passes (d : Die) (b : Nat) (v : Bank) : (setBank s d b v).passes = s.passes := rfl
@[simp] theorem setBank_streams (d : Die) (b : Nat) (v : Bank) : (setBank s d b v).streams = s.streams := rfl
@[simp] theorem setBank_streamSeq (d : Die) (b : Nat) (v : Bank) : (setBank s d b v).streamSeq = s.streamSeq := rfl
@[simp] theorem setBank_btc (d : Die) (b : Nat) (v : Bank) : (setBank s d b v).btc = s.btc := rfl
@[simp] theorem setBank_btcClock (d : Die) (b : Nat) (v : Bank) : (setBank s d b v).btcClock = s.btcClock := rfl
@[simp] theorem setBank_rng0 (d : Die) (b : Nat) (v : Bank) : (setBank s d b v).rng0 = s.rng0 := rfl
@[simp] theorem setBank_rng1 (d : Die) (b : Nat) (v : Bank) : (setBank s d b v).rng1 = s.rng1 := rfl
@[simp] theorem setBank_drbg (d : Die) (b : Nat) (v : Bank) : (setBank s d b v).drbg = s.drbg := rfl
@[simp] theorem setBank_measOwner (d : Die) (b : Nat) (v : Bank) : (setBank s d b v).measOwner = s.measOwner := rfl
@[simp] theorem setBank_sram0 (d : Die) (b : Nat) (v : Bank) : (setBank s d b v).sram0 = s.sram0 := rfl
@[simp] theorem setBank_sram1 (d : Die) (b : Nat) (v : Bank) : (setBank s d b v).sram1 = s.sram1 := rfl
@[simp] theorem setBank_rules (d : Die) (b : Nat) (v : Bank) : (setBank s d b v).rules = s.rules := rfl
@[simp] theorem setBank_supply (d : Die) (b : Nat) (v : Bank) : (setBank s d b v).supply = s.supply := rfl
@[simp] theorem setBank_lev (d : Die) (b : Nat) (v : Bank) : (setBank s d b v).lev = s.lev := rfl
@[simp] theorem setBank_life (d : Die) (b : Nat) (v : Bank) : (setBank s d b v).life = s.life := rfl
@[simp] theorem setBank_cer (d : Die) (b : Nat) (v : Bank) : (setBank s d b v).cer = s.cer := rfl
@[simp] theorem setBank_rosters (d : Die) (b : Nat) (v : Bank) : (setBank s d b v).rosters = s.rosters := rfl
@[simp] theorem setBank_zeroConf (d : Die) (b : Nat) (v : Bank) : (setBank s d b v).zeroConf = s.zeroConf := rfl
@[simp] theorem setBank_card0 (d : Die) (b : Nat) (v : Bank) : (setBank s d b v).card0 = s.card0 := rfl
@[simp] theorem setBank_card1 (d : Die) (b : Nat) (v : Bank) : (setBank s d b v).card1 = s.card1 := rfl
@[simp] theorem setBank_starts (d : Die) (b : Nat) (v : Bank) : (setBank s d b v).starts = s.starts := rfl
@[simp] theorem setBank_gauge (d : Die) (b : Nat) (v : Bank) : (setBank s d b v).gauge = s.gauge := rfl
@[simp] theorem setBank_out (d : Die) (b : Nat) (v : Bank) : (setBank s d b v).out = s.out := rfl
@[simp] theorem setBank_freeCount (d : Die) (b : Nat) (v : Bank) : (setBank s d b v).freeCount = s.freeCount := rfl
@[simp] theorem setBank_pending (d : Die) (b : Nat) (v : Bank) : (setBank s d b v).pending = s.pending := rfl

/-! ### setReady -/

@[simp] theorem setReady_regs (level : Nat) (l : List Nat) : (setReady s level l).regs = s.regs := rfl
@[simp] theorem setReady_portA (level : Nat) (l : List Nat) : (setReady s level l).portA = s.portA := rfl
@[simp] theorem setReady_portB (level : Nat) (l : List Nat) : (setReady s level l).portB = s.portB := rfl
@[simp] theorem setReady_tieB (level : Nat) (l : List Nat) : (setReady s level l).tieB = s.tieB := rfl
@[simp] theorem setReady_sems (level : Nat) (l : List Nat) : (setReady s level l).sems = s.sems := rfl
@[simp] theorem setReady_wardenWaiting (level : Nat) (l : List Nat) : (setReady s level l).wardenWaiting = s.wardenWaiting := rfl
@[simp] theorem setReady_slices (level : Nat) (l : List Nat) : (setReady s level l).slices = s.slices := rfl
@[simp] theorem setReady_rings (level : Nat) (l : List Nat) : (setReady s level l).rings = s.rings := rfl
@[simp] theorem setReady_nt (level : Nat) (l : List Nat) : (setReady s level l).nt = s.nt := rfl
@[simp] theorem setReady_die0 (level : Nat) (l : List Nat) : (setReady s level l).die0 = s.die0 := rfl
@[simp] theorem setReady_die1 (level : Nat) (l : List Nat) : (setReady s level l).die1 = s.die1 := rfl
@[simp] theorem setReady_sw (level : Nat) (l : List Nat) : (setReady s level l).sw = s.sw := rfl
@[simp] theorem setReady_mram0 (level : Nat) (l : List Nat) : (setReady s level l).mram0 = s.mram0 := rfl
@[simp] theorem setReady_mram1 (level : Nat) (l : List Nat) : (setReady s level l).mram1 = s.mram1 := rfl
@[simp] theorem setReady_vault (level : Nat) (l : List Nat) : (setReady s level l).vault = s.vault := rfl
@[simp] theorem setReady_cores (level : Nat) (l : List Nat) : (setReady s level l).cores = s.cores := rfl
@[simp] theorem setReady_kst (level : Nat) (l : List Nat) : (setReady s level l).kst = s.kst := rfl
@[simp] theorem setReady_engines (level : Nat) (l : List Nat) : (setReady s level l).engines = s.engines := rfl
@[simp] theorem setReady_pipes (level : Nat) (l : List Nat) : (setReady s level l).pipes = s.pipes := rfl
@[simp] theorem setReady_lanes (level : Nat) (l : List Nat) : (setReady s level l).lanes = s.lanes := rfl
@[simp] theorem setReady_passes (level : Nat) (l : List Nat) : (setReady s level l).passes = s.passes := rfl
@[simp] theorem setReady_streams (level : Nat) (l : List Nat) : (setReady s level l).streams = s.streams := rfl
@[simp] theorem setReady_streamSeq (level : Nat) (l : List Nat) : (setReady s level l).streamSeq = s.streamSeq := rfl
@[simp] theorem setReady_btc (level : Nat) (l : List Nat) : (setReady s level l).btc = s.btc := rfl
@[simp] theorem setReady_btcClock (level : Nat) (l : List Nat) : (setReady s level l).btcClock = s.btcClock := rfl
@[simp] theorem setReady_rng0 (level : Nat) (l : List Nat) : (setReady s level l).rng0 = s.rng0 := rfl
@[simp] theorem setReady_rng1 (level : Nat) (l : List Nat) : (setReady s level l).rng1 = s.rng1 := rfl
@[simp] theorem setReady_drbg (level : Nat) (l : List Nat) : (setReady s level l).drbg = s.drbg := rfl
@[simp] theorem setReady_measOwner (level : Nat) (l : List Nat) : (setReady s level l).measOwner = s.measOwner := rfl
@[simp] theorem setReady_sram0 (level : Nat) (l : List Nat) : (setReady s level l).sram0 = s.sram0 := rfl
@[simp] theorem setReady_sram1 (level : Nat) (l : List Nat) : (setReady s level l).sram1 = s.sram1 := rfl
@[simp] theorem setReady_banks (level : Nat) (l : List Nat) : (setReady s level l).banks = s.banks := rfl
@[simp] theorem setReady_rules (level : Nat) (l : List Nat) : (setReady s level l).rules = s.rules := rfl
@[simp] theorem setReady_supply (level : Nat) (l : List Nat) : (setReady s level l).supply = s.supply := rfl
@[simp] theorem setReady_lev (level : Nat) (l : List Nat) : (setReady s level l).lev = s.lev := rfl
@[simp] theorem setReady_life (level : Nat) (l : List Nat) : (setReady s level l).life = s.life := rfl
@[simp] theorem setReady_cer (level : Nat) (l : List Nat) : (setReady s level l).cer = s.cer := rfl
@[simp] theorem setReady_rosters (level : Nat) (l : List Nat) : (setReady s level l).rosters = s.rosters := rfl
@[simp] theorem setReady_zeroConf (level : Nat) (l : List Nat) : (setReady s level l).zeroConf = s.zeroConf := rfl
@[simp] theorem setReady_card0 (level : Nat) (l : List Nat) : (setReady s level l).card0 = s.card0 := rfl
@[simp] theorem setReady_card1 (level : Nat) (l : List Nat) : (setReady s level l).card1 = s.card1 := rfl
@[simp] theorem setReady_starts (level : Nat) (l : List Nat) : (setReady s level l).starts = s.starts := rfl
@[simp] theorem setReady_gauge (level : Nat) (l : List Nat) : (setReady s level l).gauge = s.gauge := rfl
@[simp] theorem setReady_out (level : Nat) (l : List Nat) : (setReady s level l).out = s.out := rfl
@[simp] theorem setReady_freeCount (level : Nat) (l : List Nat) : (setReady s level l).freeCount = s.freeCount := rfl
@[simp] theorem setReady_pending (level : Nat) (l : List Nat) : (setReady s level l).pending = s.pending := rfl

/-! ### setBnl -/

@[simp] theorem setBnl_regs (level : Nat) (l : List Nat) : (setBnl s level l).regs = s.regs := rfl
@[simp] theorem setBnl_portA (level : Nat) (l : List Nat) : (setBnl s level l).portA = s.portA := rfl
@[simp] theorem setBnl_portB (level : Nat) (l : List Nat) : (setBnl s level l).portB = s.portB := rfl
@[simp] theorem setBnl_tieB (level : Nat) (l : List Nat) : (setBnl s level l).tieB = s.tieB := rfl
@[simp] theorem setBnl_sems (level : Nat) (l : List Nat) : (setBnl s level l).sems = s.sems := rfl
@[simp] theorem setBnl_wardenWaiting (level : Nat) (l : List Nat) : (setBnl s level l).wardenWaiting = s.wardenWaiting := rfl
@[simp] theorem setBnl_slices (level : Nat) (l : List Nat) : (setBnl s level l).slices = s.slices := rfl
@[simp] theorem setBnl_rings (level : Nat) (l : List Nat) : (setBnl s level l).rings = s.rings := rfl
@[simp] theorem setBnl_nt (level : Nat) (l : List Nat) : (setBnl s level l).nt = s.nt := rfl
@[simp] theorem setBnl_die0 (level : Nat) (l : List Nat) : (setBnl s level l).die0 = s.die0 := rfl
@[simp] theorem setBnl_die1 (level : Nat) (l : List Nat) : (setBnl s level l).die1 = s.die1 := rfl
@[simp] theorem setBnl_sw (level : Nat) (l : List Nat) : (setBnl s level l).sw = s.sw := rfl
@[simp] theorem setBnl_mram0 (level : Nat) (l : List Nat) : (setBnl s level l).mram0 = s.mram0 := rfl
@[simp] theorem setBnl_mram1 (level : Nat) (l : List Nat) : (setBnl s level l).mram1 = s.mram1 := rfl
@[simp] theorem setBnl_vault (level : Nat) (l : List Nat) : (setBnl s level l).vault = s.vault := rfl
@[simp] theorem setBnl_cores (level : Nat) (l : List Nat) : (setBnl s level l).cores = s.cores := rfl
@[simp] theorem setBnl_kst (level : Nat) (l : List Nat) : (setBnl s level l).kst = s.kst := rfl
@[simp] theorem setBnl_engines (level : Nat) (l : List Nat) : (setBnl s level l).engines = s.engines := rfl
@[simp] theorem setBnl_pipes (level : Nat) (l : List Nat) : (setBnl s level l).pipes = s.pipes := rfl
@[simp] theorem setBnl_lanes (level : Nat) (l : List Nat) : (setBnl s level l).lanes = s.lanes := rfl
@[simp] theorem setBnl_passes (level : Nat) (l : List Nat) : (setBnl s level l).passes = s.passes := rfl
@[simp] theorem setBnl_streams (level : Nat) (l : List Nat) : (setBnl s level l).streams = s.streams := rfl
@[simp] theorem setBnl_streamSeq (level : Nat) (l : List Nat) : (setBnl s level l).streamSeq = s.streamSeq := rfl
@[simp] theorem setBnl_btc (level : Nat) (l : List Nat) : (setBnl s level l).btc = s.btc := rfl
@[simp] theorem setBnl_btcClock (level : Nat) (l : List Nat) : (setBnl s level l).btcClock = s.btcClock := rfl
@[simp] theorem setBnl_rng0 (level : Nat) (l : List Nat) : (setBnl s level l).rng0 = s.rng0 := rfl
@[simp] theorem setBnl_rng1 (level : Nat) (l : List Nat) : (setBnl s level l).rng1 = s.rng1 := rfl
@[simp] theorem setBnl_drbg (level : Nat) (l : List Nat) : (setBnl s level l).drbg = s.drbg := rfl
@[simp] theorem setBnl_measOwner (level : Nat) (l : List Nat) : (setBnl s level l).measOwner = s.measOwner := rfl
@[simp] theorem setBnl_sram0 (level : Nat) (l : List Nat) : (setBnl s level l).sram0 = s.sram0 := rfl
@[simp] theorem setBnl_sram1 (level : Nat) (l : List Nat) : (setBnl s level l).sram1 = s.sram1 := rfl
@[simp] theorem setBnl_banks (level : Nat) (l : List Nat) : (setBnl s level l).banks = s.banks := rfl
@[simp] theorem setBnl_rules (level : Nat) (l : List Nat) : (setBnl s level l).rules = s.rules := rfl
@[simp] theorem setBnl_supply (level : Nat) (l : List Nat) : (setBnl s level l).supply = s.supply := rfl
@[simp] theorem setBnl_lev (level : Nat) (l : List Nat) : (setBnl s level l).lev = s.lev := rfl
@[simp] theorem setBnl_life (level : Nat) (l : List Nat) : (setBnl s level l).life = s.life := rfl
@[simp] theorem setBnl_cer (level : Nat) (l : List Nat) : (setBnl s level l).cer = s.cer := rfl
@[simp] theorem setBnl_rosters (level : Nat) (l : List Nat) : (setBnl s level l).rosters = s.rosters := rfl
@[simp] theorem setBnl_zeroConf (level : Nat) (l : List Nat) : (setBnl s level l).zeroConf = s.zeroConf := rfl
@[simp] theorem setBnl_card0 (level : Nat) (l : List Nat) : (setBnl s level l).card0 = s.card0 := rfl
@[simp] theorem setBnl_card1 (level : Nat) (l : List Nat) : (setBnl s level l).card1 = s.card1 := rfl
@[simp] theorem setBnl_starts (level : Nat) (l : List Nat) : (setBnl s level l).starts = s.starts := rfl
@[simp] theorem setBnl_gauge (level : Nat) (l : List Nat) : (setBnl s level l).gauge = s.gauge := rfl
@[simp] theorem setBnl_out (level : Nat) (l : List Nat) : (setBnl s level l).out = s.out := rfl
@[simp] theorem setBnl_freeCount (level : Nat) (l : List Nat) : (setBnl s level l).freeCount = s.freeCount := rfl
@[simp] theorem setBnl_pending (level : Nat) (l : List Nat) : (setBnl s level l).pending = s.pending := rfl

/-! ### setPipeList -/

@[simp] theorem setPipeList_regs (level : Nat) (l : List Nat) : (setPipeList s level l).regs = s.regs := rfl
@[simp] theorem setPipeList_portA (level : Nat) (l : List Nat) : (setPipeList s level l).portA = s.portA := rfl
@[simp] theorem setPipeList_portB (level : Nat) (l : List Nat) : (setPipeList s level l).portB = s.portB := rfl
@[simp] theorem setPipeList_tieB (level : Nat) (l : List Nat) : (setPipeList s level l).tieB = s.tieB := rfl
@[simp] theorem setPipeList_sems (level : Nat) (l : List Nat) : (setPipeList s level l).sems = s.sems := rfl
@[simp] theorem setPipeList_wardenWaiting (level : Nat) (l : List Nat) : (setPipeList s level l).wardenWaiting = s.wardenWaiting := rfl
@[simp] theorem setPipeList_slices (level : Nat) (l : List Nat) : (setPipeList s level l).slices = s.slices := rfl
@[simp] theorem setPipeList_rings (level : Nat) (l : List Nat) : (setPipeList s level l).rings = s.rings := rfl
@[simp] theorem setPipeList_nt (level : Nat) (l : List Nat) : (setPipeList s level l).nt = s.nt := rfl
@[simp] theorem setPipeList_die0 (level : Nat) (l : List Nat) : (setPipeList s level l).die0 = s.die0 := rfl
@[simp] theorem setPipeList_die1 (level : Nat) (l : List Nat) : (setPipeList s level l).die1 = s.die1 := rfl
@[simp] theorem setPipeList_sw (level : Nat) (l : List Nat) : (setPipeList s level l).sw = s.sw := rfl
@[simp] theorem setPipeList_mram0 (level : Nat) (l : List Nat) : (setPipeList s level l).mram0 = s.mram0 := rfl
@[simp] theorem setPipeList_mram1 (level : Nat) (l : List Nat) : (setPipeList s level l).mram1 = s.mram1 := rfl
@[simp] theorem setPipeList_vault (level : Nat) (l : List Nat) : (setPipeList s level l).vault = s.vault := rfl
@[simp] theorem setPipeList_cores (level : Nat) (l : List Nat) : (setPipeList s level l).cores = s.cores := rfl
@[simp] theorem setPipeList_kst (level : Nat) (l : List Nat) : (setPipeList s level l).kst = s.kst := rfl
@[simp] theorem setPipeList_engines (level : Nat) (l : List Nat) : (setPipeList s level l).engines = s.engines := rfl
@[simp] theorem setPipeList_pipes (level : Nat) (l : List Nat) : (setPipeList s level l).pipes = s.pipes := rfl
@[simp] theorem setPipeList_lanes (level : Nat) (l : List Nat) : (setPipeList s level l).lanes = s.lanes := rfl
@[simp] theorem setPipeList_passes (level : Nat) (l : List Nat) : (setPipeList s level l).passes = s.passes := rfl
@[simp] theorem setPipeList_streams (level : Nat) (l : List Nat) : (setPipeList s level l).streams = s.streams := rfl
@[simp] theorem setPipeList_streamSeq (level : Nat) (l : List Nat) : (setPipeList s level l).streamSeq = s.streamSeq := rfl
@[simp] theorem setPipeList_btc (level : Nat) (l : List Nat) : (setPipeList s level l).btc = s.btc := rfl
@[simp] theorem setPipeList_btcClock (level : Nat) (l : List Nat) : (setPipeList s level l).btcClock = s.btcClock := rfl
@[simp] theorem setPipeList_rng0 (level : Nat) (l : List Nat) : (setPipeList s level l).rng0 = s.rng0 := rfl
@[simp] theorem setPipeList_rng1 (level : Nat) (l : List Nat) : (setPipeList s level l).rng1 = s.rng1 := rfl
@[simp] theorem setPipeList_drbg (level : Nat) (l : List Nat) : (setPipeList s level l).drbg = s.drbg := rfl
@[simp] theorem setPipeList_measOwner (level : Nat) (l : List Nat) : (setPipeList s level l).measOwner = s.measOwner := rfl
@[simp] theorem setPipeList_sram0 (level : Nat) (l : List Nat) : (setPipeList s level l).sram0 = s.sram0 := rfl
@[simp] theorem setPipeList_sram1 (level : Nat) (l : List Nat) : (setPipeList s level l).sram1 = s.sram1 := rfl
@[simp] theorem setPipeList_banks (level : Nat) (l : List Nat) : (setPipeList s level l).banks = s.banks := rfl
@[simp] theorem setPipeList_rules (level : Nat) (l : List Nat) : (setPipeList s level l).rules = s.rules := rfl
@[simp] theorem setPipeList_supply (level : Nat) (l : List Nat) : (setPipeList s level l).supply = s.supply := rfl
@[simp] theorem setPipeList_lev (level : Nat) (l : List Nat) : (setPipeList s level l).lev = s.lev := rfl
@[simp] theorem setPipeList_life (level : Nat) (l : List Nat) : (setPipeList s level l).life = s.life := rfl
@[simp] theorem setPipeList_cer (level : Nat) (l : List Nat) : (setPipeList s level l).cer = s.cer := rfl
@[simp] theorem setPipeList_rosters (level : Nat) (l : List Nat) : (setPipeList s level l).rosters = s.rosters := rfl
@[simp] theorem setPipeList_zeroConf (level : Nat) (l : List Nat) : (setPipeList s level l).zeroConf = s.zeroConf := rfl
@[simp] theorem setPipeList_card0 (level : Nat) (l : List Nat) : (setPipeList s level l).card0 = s.card0 := rfl
@[simp] theorem setPipeList_card1 (level : Nat) (l : List Nat) : (setPipeList s level l).card1 = s.card1 := rfl
@[simp] theorem setPipeList_starts (level : Nat) (l : List Nat) : (setPipeList s level l).starts = s.starts := rfl
@[simp] theorem setPipeList_gauge (level : Nat) (l : List Nat) : (setPipeList s level l).gauge = s.gauge := rfl
@[simp] theorem setPipeList_out (level : Nat) (l : List Nat) : (setPipeList s level l).out = s.out := rfl
@[simp] theorem setPipeList_freeCount (level : Nat) (l : List Nat) : (setPipeList s level l).freeCount = s.freeCount := rfl
@[simp] theorem setPipeList_pending (level : Nat) (l : List Nat) : (setPipeList s level l).pending = s.pending := rfl

/-! ### mirrorSend -/

@[simp] theorem mirrorSend_regs (b : MirrorBody) : (mirrorSend s b).regs = s.regs := rfl
@[simp] theorem mirrorSend_portA (b : MirrorBody) : (mirrorSend s b).portA = s.portA := rfl
@[simp] theorem mirrorSend_portB (b : MirrorBody) : (mirrorSend s b).portB = s.portB := rfl
@[simp] theorem mirrorSend_tieB (b : MirrorBody) : (mirrorSend s b).tieB = s.tieB := rfl
@[simp] theorem mirrorSend_sems (b : MirrorBody) : (mirrorSend s b).sems = s.sems := rfl
@[simp] theorem mirrorSend_wardenWaiting (b : MirrorBody) : (mirrorSend s b).wardenWaiting = s.wardenWaiting := rfl
@[simp] theorem mirrorSend_slices (b : MirrorBody) : (mirrorSend s b).slices = s.slices := rfl
@[simp] theorem mirrorSend_rings (b : MirrorBody) : (mirrorSend s b).rings = s.rings := rfl
@[simp] theorem mirrorSend_nt (b : MirrorBody) : (mirrorSend s b).nt = s.nt := rfl
@[simp] theorem mirrorSend_die0 (b : MirrorBody) : (mirrorSend s b).die0 = s.die0 := rfl
@[simp] theorem mirrorSend_die1 (b : MirrorBody) : (mirrorSend s b).die1 = s.die1 := rfl
@[simp] theorem mirrorSend_mram0 (b : MirrorBody) : (mirrorSend s b).mram0 = s.mram0 := rfl
@[simp] theorem mirrorSend_mram1 (b : MirrorBody) : (mirrorSend s b).mram1 = s.mram1 := rfl
@[simp] theorem mirrorSend_vault (b : MirrorBody) : (mirrorSend s b).vault = s.vault := rfl
@[simp] theorem mirrorSend_conf (b : MirrorBody) : (mirrorSend s b).conf = s.conf := rfl
@[simp] theorem mirrorSend_cores (b : MirrorBody) : (mirrorSend s b).cores = s.cores := rfl
@[simp] theorem mirrorSend_kst (b : MirrorBody) : (mirrorSend s b).kst = s.kst := rfl
@[simp] theorem mirrorSend_engines (b : MirrorBody) : (mirrorSend s b).engines = s.engines := rfl
@[simp] theorem mirrorSend_pipes (b : MirrorBody) : (mirrorSend s b).pipes = s.pipes := rfl
@[simp] theorem mirrorSend_lanes (b : MirrorBody) : (mirrorSend s b).lanes = s.lanes := rfl
@[simp] theorem mirrorSend_passes (b : MirrorBody) : (mirrorSend s b).passes = s.passes := rfl
@[simp] theorem mirrorSend_streams (b : MirrorBody) : (mirrorSend s b).streams = s.streams := rfl
@[simp] theorem mirrorSend_streamSeq (b : MirrorBody) : (mirrorSend s b).streamSeq = s.streamSeq := rfl
@[simp] theorem mirrorSend_btc (b : MirrorBody) : (mirrorSend s b).btc = s.btc := rfl
@[simp] theorem mirrorSend_btcClock (b : MirrorBody) : (mirrorSend s b).btcClock = s.btcClock := rfl
@[simp] theorem mirrorSend_rng0 (b : MirrorBody) : (mirrorSend s b).rng0 = s.rng0 := rfl
@[simp] theorem mirrorSend_rng1 (b : MirrorBody) : (mirrorSend s b).rng1 = s.rng1 := rfl
@[simp] theorem mirrorSend_drbg (b : MirrorBody) : (mirrorSend s b).drbg = s.drbg := rfl
@[simp] theorem mirrorSend_measOwner (b : MirrorBody) : (mirrorSend s b).measOwner = s.measOwner := rfl
@[simp] theorem mirrorSend_sram0 (b : MirrorBody) : (mirrorSend s b).sram0 = s.sram0 := rfl
@[simp] theorem mirrorSend_sram1 (b : MirrorBody) : (mirrorSend s b).sram1 = s.sram1 := rfl
@[simp] theorem mirrorSend_banks (b : MirrorBody) : (mirrorSend s b).banks = s.banks := rfl
@[simp] theorem mirrorSend_rules (b : MirrorBody) : (mirrorSend s b).rules = s.rules := rfl
@[simp] theorem mirrorSend_supply (b : MirrorBody) : (mirrorSend s b).supply = s.supply := rfl
@[simp] theorem mirrorSend_lev (b : MirrorBody) : (mirrorSend s b).lev = s.lev := rfl
@[simp] theorem mirrorSend_life (b : MirrorBody) : (mirrorSend s b).life = s.life := rfl
@[simp] theorem mirrorSend_cer (b : MirrorBody) : (mirrorSend s b).cer = s.cer := rfl
@[simp] theorem mirrorSend_rosters (b : MirrorBody) : (mirrorSend s b).rosters = s.rosters := rfl
@[simp] theorem mirrorSend_zeroConf (b : MirrorBody) : (mirrorSend s b).zeroConf = s.zeroConf := rfl
@[simp] theorem mirrorSend_card0 (b : MirrorBody) : (mirrorSend s b).card0 = s.card0 := rfl
@[simp] theorem mirrorSend_card1 (b : MirrorBody) : (mirrorSend s b).card1 = s.card1 := rfl
@[simp] theorem mirrorSend_starts (b : MirrorBody) : (mirrorSend s b).starts = s.starts := rfl
@[simp] theorem mirrorSend_gauge (b : MirrorBody) : (mirrorSend s b).gauge = s.gauge := rfl
@[simp] theorem mirrorSend_out (b : MirrorBody) : (mirrorSend s b).out = s.out := rfl
@[simp] theorem mirrorSend_freeCount (b : MirrorBody) : (mirrorSend s b).freeCount = s.freeCount := rfl
@[simp] theorem mirrorSend_pending (b : MirrorBody) : (mirrorSend s b).pending = s.pending := rfl

/-! ### setTimer -/

@[simp] theorem setTimer_regs (half : Nat) (d : Die) (t : SlotTimer) : (setTimer s half d t).regs = s.regs := rfl
@[simp] theorem setTimer_portA (half : Nat) (d : Die) (t : SlotTimer) : (setTimer s half d t).portA = s.portA := rfl
@[simp] theorem setTimer_portB (half : Nat) (d : Die) (t : SlotTimer) : (setTimer s half d t).portB = s.portB := rfl
@[simp] theorem setTimer_tieB (half : Nat) (d : Die) (t : SlotTimer) : (setTimer s half d t).tieB = s.tieB := rfl
@[simp] theorem setTimer_sems (half : Nat) (d : Die) (t : SlotTimer) : (setTimer s half d t).sems = s.sems := rfl
@[simp] theorem setTimer_wardenWaiting (half : Nat) (d : Die) (t : SlotTimer) : (setTimer s half d t).wardenWaiting = s.wardenWaiting := rfl
@[simp] theorem setTimer_slices (half : Nat) (d : Die) (t : SlotTimer) : (setTimer s half d t).slices = s.slices := rfl
@[simp] theorem setTimer_rings (half : Nat) (d : Die) (t : SlotTimer) : (setTimer s half d t).rings = s.rings := rfl
@[simp] theorem setTimer_nt (half : Nat) (d : Die) (t : SlotTimer) : (setTimer s half d t).nt = s.nt := rfl
@[simp] theorem setTimer_die0 (half : Nat) (d : Die) (t : SlotTimer) : (setTimer s half d t).die0 = s.die0 := rfl
@[simp] theorem setTimer_die1 (half : Nat) (d : Die) (t : SlotTimer) : (setTimer s half d t).die1 = s.die1 := rfl
@[simp] theorem setTimer_mram0 (half : Nat) (d : Die) (t : SlotTimer) : (setTimer s half d t).mram0 = s.mram0 := rfl
@[simp] theorem setTimer_mram1 (half : Nat) (d : Die) (t : SlotTimer) : (setTimer s half d t).mram1 = s.mram1 := rfl
@[simp] theorem setTimer_vault (half : Nat) (d : Die) (t : SlotTimer) : (setTimer s half d t).vault = s.vault := rfl
@[simp] theorem setTimer_conf (half : Nat) (d : Die) (t : SlotTimer) : (setTimer s half d t).conf = s.conf := rfl
@[simp] theorem setTimer_cores (half : Nat) (d : Die) (t : SlotTimer) : (setTimer s half d t).cores = s.cores := rfl
@[simp] theorem setTimer_kst (half : Nat) (d : Die) (t : SlotTimer) : (setTimer s half d t).kst = s.kst := rfl
@[simp] theorem setTimer_engines (half : Nat) (d : Die) (t : SlotTimer) : (setTimer s half d t).engines = s.engines := rfl
@[simp] theorem setTimer_pipes (half : Nat) (d : Die) (t : SlotTimer) : (setTimer s half d t).pipes = s.pipes := rfl
@[simp] theorem setTimer_lanes (half : Nat) (d : Die) (t : SlotTimer) : (setTimer s half d t).lanes = s.lanes := rfl
@[simp] theorem setTimer_passes (half : Nat) (d : Die) (t : SlotTimer) : (setTimer s half d t).passes = s.passes := rfl
@[simp] theorem setTimer_streams (half : Nat) (d : Die) (t : SlotTimer) : (setTimer s half d t).streams = s.streams := rfl
@[simp] theorem setTimer_streamSeq (half : Nat) (d : Die) (t : SlotTimer) : (setTimer s half d t).streamSeq = s.streamSeq := rfl
@[simp] theorem setTimer_btc (half : Nat) (d : Die) (t : SlotTimer) : (setTimer s half d t).btc = s.btc := rfl
@[simp] theorem setTimer_btcClock (half : Nat) (d : Die) (t : SlotTimer) : (setTimer s half d t).btcClock = s.btcClock := rfl
@[simp] theorem setTimer_rng0 (half : Nat) (d : Die) (t : SlotTimer) : (setTimer s half d t).rng0 = s.rng0 := rfl
@[simp] theorem setTimer_rng1 (half : Nat) (d : Die) (t : SlotTimer) : (setTimer s half d t).rng1 = s.rng1 := rfl
@[simp] theorem setTimer_drbg (half : Nat) (d : Die) (t : SlotTimer) : (setTimer s half d t).drbg = s.drbg := rfl
@[simp] theorem setTimer_measOwner (half : Nat) (d : Die) (t : SlotTimer) : (setTimer s half d t).measOwner = s.measOwner := rfl
@[simp] theorem setTimer_sram0 (half : Nat) (d : Die) (t : SlotTimer) : (setTimer s half d t).sram0 = s.sram0 := rfl
@[simp] theorem setTimer_sram1 (half : Nat) (d : Die) (t : SlotTimer) : (setTimer s half d t).sram1 = s.sram1 := rfl
@[simp] theorem setTimer_banks (half : Nat) (d : Die) (t : SlotTimer) : (setTimer s half d t).banks = s.banks := rfl
@[simp] theorem setTimer_rules (half : Nat) (d : Die) (t : SlotTimer) : (setTimer s half d t).rules = s.rules := rfl
@[simp] theorem setTimer_supply (half : Nat) (d : Die) (t : SlotTimer) : (setTimer s half d t).supply = s.supply := rfl
@[simp] theorem setTimer_lev (half : Nat) (d : Die) (t : SlotTimer) : (setTimer s half d t).lev = s.lev := rfl
@[simp] theorem setTimer_life (half : Nat) (d : Die) (t : SlotTimer) : (setTimer s half d t).life = s.life := rfl
@[simp] theorem setTimer_cer (half : Nat) (d : Die) (t : SlotTimer) : (setTimer s half d t).cer = s.cer := rfl
@[simp] theorem setTimer_rosters (half : Nat) (d : Die) (t : SlotTimer) : (setTimer s half d t).rosters = s.rosters := rfl
@[simp] theorem setTimer_zeroConf (half : Nat) (d : Die) (t : SlotTimer) : (setTimer s half d t).zeroConf = s.zeroConf := rfl
@[simp] theorem setTimer_card0 (half : Nat) (d : Die) (t : SlotTimer) : (setTimer s half d t).card0 = s.card0 := rfl
@[simp] theorem setTimer_card1 (half : Nat) (d : Die) (t : SlotTimer) : (setTimer s half d t).card1 = s.card1 := rfl
@[simp] theorem setTimer_starts (half : Nat) (d : Die) (t : SlotTimer) : (setTimer s half d t).starts = s.starts := rfl
@[simp] theorem setTimer_gauge (half : Nat) (d : Die) (t : SlotTimer) : (setTimer s half d t).gauge = s.gauge := rfl
@[simp] theorem setTimer_out (half : Nat) (d : Die) (t : SlotTimer) : (setTimer s half d t).out = s.out := rfl
@[simp] theorem setTimer_freeCount (half : Nat) (d : Die) (t : SlotTimer) : (setTimer s half d t).freeCount = s.freeCount := rfl
@[simp] theorem setTimer_pending (half : Nat) (d : Die) (t : SlotTimer) : (setTimer s half d t).pending = s.pending := rfl

end Sys2Proof.Laws
end

