-- ==== Sys2Proof/Laws/Frame.lean ====
section
/-!
SUPPORT. What an update leaves as it was, in the terms of `Safety.Unchanged`: the laws of that relation, one lemma for
each named update, the canonical form, and the shared operations on interrupts, error captures and the journal.
-/
namespace Sys2Proof.Laws

open Sys2Proof.Machine Sys2Proof.Safety

variable {s t u : State} {ps qs : List Part}

/-! ### The relation -/

theorem sameStore_refl (m : Mram) : sameStore m m := by simp [sameStore]

theorem sameStore_trans {a b c : Mram} (h : sameStore a b) (g : sameStore b c) : sameStore a c := by
  obtain ⟨h1, h2, h3, h4, h5, h6, h7, h8, h9, h10, h11, h12⟩ := h
  obtain ⟨g1, g2, g3, g4, g5, g6, g7, g8, g9, g10, g11, g12⟩ := g
  exact ⟨fun x => (g1 x).trans (h1 x), fun x => (g2 x).trans (h2 x), fun x => (g3 x).trans (h3 x),
    fun x => (g4 x).trans (h4 x), fun x => (g5 x).trans (h5 x), fun x => (g6 x).trans (h6 x), fun x => (g7 x).trans (h7 x),
    g8.trans h8, g9.trans h9, g10.trans h10, g11.trans h11, g12.trans h12⟩

theorem same_refl (p : Part) (s : State) : p.same s s := by
  cases p <;> simp [Part.same, sameStore_refl, sameLife]

theorem same_trans {p : Part} (h : p.same s t) (g : p.same t u) : p.same s u := by
  cases p <;> simp only [Part.same] at h g ⊢
  case regs => exact fun a => (g a).trans (h a)
  case sems => exact ⟨fun a => (g.1 a).trans (h.1 a), g.2.1.trans h.2.1, g.2.2.trans h.2.2⟩
  case slices => exact ⟨fun a => (g.1 a).trans (h.1 a), g.2.trans h.2⟩
  case sram => exact ⟨fun a => (g.1 a).trans (h.1 a), fun a => (g.2 a).trans (h.2 a)⟩
  case rings => exact fun a b => (g a b).trans (h a b)
  case stores => exact ⟨sameStore_trans h.1 g.1, sameStore_trans h.2 g.2⟩
  case life => exact ⟨fun a => (g.1 a).trans (h.1 a), g.2.trans h.2⟩
  case ceremonies => exact ⟨g.1.trans h.1, fun a => (g.2 a).trans (h.2 a)⟩
  case ports => exact ⟨g.1.trans h.1, g.2.trans h.2⟩
  case dies => exact ⟨g.1.trans h.1, g.2.trans h.2⟩
  case cores => exact ⟨g.1.trans h.1, g.2.trans h.2⟩
  case engines => exact ⟨g.1.trans h.1, g.2.1.trans h.2.1, g.2.2.1.trans h.2.2.1, g.2.2.2.trans h.2.2.2⟩
  case streams => exact ⟨g.1.trans h.1, g.2.1.trans h.2.1, g.2.2.1.trans h.2.2.1, g.2.2.2.trans h.2.2.2⟩
  case random => exact ⟨g.1.trans h.1, g.2.1.trans h.2.1, g.2.2.trans h.2.2⟩
  case cards => exact ⟨g.1.trans h.1, g.2.trans h.2⟩
  all_goals exact g.trans h

end Sys2Proof.Laws

namespace Sys2Proof.Safety

open Sys2Proof.Machine Sys2Proof.Laws

variable {s t u : State} {ps qs : List Part}

theorem Unchanged.refl (ps : List Part) (s : State) : Unchanged ps s s := fun p _ => same_refl p s

theorem Unchanged.trans (h : Unchanged ps s t) (g : Unchanged ps t u) : Unchanged ps s u :=
  fun p hp => same_trans (h p hp) (g p hp)

theorem Unchanged.mono (h : Unchanged ps s t) (hs : ∀ p ∈ ps, p ∈ qs) : Unchanged qs s t :=
  fun p hp => h p (fun hq => hp (hs p hq))

end Sys2Proof.Safety

namespace Sys2Proof.Laws

open Sys2Proof.Machine Sys2Proof.Safety

variable {s t u : State} {ps qs : List Part}

/-! ### Updates -/

theorem wr_unchanged (a : Nat) (v : Word) : Unchanged [.regs] s (wr s a v) := by
  intro p hp; have h := same_refl p s; cases p <;> first | exact absurd (by decide) hp | exact h

theorem bump_unchanged (a lo n k : Nat) : Unchanged [.regs] s (bump s a lo n k) := wr_unchanged _ _

theorem wrF_unchanged (a lo n v : Nat) : Unchanged [.regs] s (wrF s a lo n v) := wr_unchanged _ _

theorem rearm_unchanged (pg : Nat) : Unchanged [.regs] s (rearm s pg) :=
  ((wr_unchanged _ _).trans (wr_unchanged _ _)).trans ((wr_unchanged _ _).trans (wr_unchanged _ _))

theorem setPort_unchanged (x : Port) (v : PortState) : Unchanged [.ports] s (setPort s x v) := by
  intro p hp; have h := same_refl p s; cases x <;> cases p <;> first | exact absurd (by decide) hp | exact h

theorem setDie_unchanged (d : Die) (v : DieState) : Unchanged [.dies] s (setDie s d v) := by
  intro p hp; have h := same_refl p s; cases d <;> cases p <;> first | exact absurd (by decide) hp | exact h

theorem setMram_unchanged (d : Die) (v : Mram) : Unchanged [.stores] s (setMram s d v) := by
  intro p hp; have h := same_refl p s; cases d <;> cases p <;> first | exact absurd (by decide) hp | exact h

theorem setSlice_unchanged (n : Nat) (v : Slice) : Unchanged [.slices] s (setSlice s n v) := by
  intro p hp; have h := same_refl p s; cases p <;> first | exact absurd (by decide) hp | exact h

theorem setRing_unchanged (n i : Nat) (v : Ring) : Unchanged [.rings] s (setRing s n i v) := by
  intro p hp; have h := same_refl p s; cases p <;> first | exact absurd (by decide) hp | exact h

theorem setSem_unchanged (n : Nat) (v : Sem) : Unchanged [.sems] s (setSem s n v) := by
  intro p hp; have h := same_refl p s; cases p <;> first | exact absurd (by decide) hp | exact h

theorem setCore_unchanged (c : Nat) (v : Core) : Unchanged [.cores] s (setCore s c v) := by
  intro p hp; have h := same_refl p s; cases p <;> first | exact absurd (by decide) hp | exact h

theorem setStep_unchanged (k : Nat) (v : Step) : Unchanged [.confluence] s (setStep s k v) := by
  intro p hp; have h := same_refl p s; cases p <;> first | exact absurd (by decide) hp | exact h

theorem send_unchanged (o : HostOut) : Unchanged [.out] s (send s o) := by
  intro p hp; have h := same_refl p s; cases p <;> first | exact absurd (by decide) hp | exact h

theorem reach_unchanged (n : Nat) : Unchanged [.time] s (reach s n) := by
  intro p hp; have h := same_refl p s; cases p <;> first | exact absurd (by decide) hp | exact h

theorem mirrorSend_unchanged (b : MirrorBody) : Unchanged [.switch] s (mirrorSend s b) := by
  intro p hp; have h := same_refl p s; cases p <;> first | exact absurd (by decide) hp | exact h

theorem setEngine_unchanged (i : Nat) (e : Engine) : Unchanged [.engines] s (setEngine s i e) := by
  intro p hp; have h := same_refl p s; cases p <;> first | exact absurd (by decide) hp | exact h

theorem setPipe_unchanged (i : Nat) (e : Pipe) : Unchanged [.engines] s (setPipe s i e) := by
  intro p hp; have h := same_refl p s; cases p <;> first | exact absurd (by decide) hp | exact h

theorem setLane_unchanged (i : Nat) (e : Lane) : Unchanged [.engines] s (setLane s i e) := by
  intro p hp; have h := same_refl p s; cases p <;> first | exact absurd (by decide) hp | exact h

theorem setRng_unchanged (d : Die) (r : Rng) : Unchanged [.random] s (setRng s d r) := by
  intro p hp; have h := same_refl p s; cases d <;> cases p <;> first | exact absurd (by decide) hp | exact h

theorem setBank_unchanged (d : Die) (b : Nat) (v : Bank) : Unchanged [.banks] s (setBank s d b v) := by
  intro p hp; have h := same_refl p s; cases p <;> first | exact absurd (by decide) hp | exact h

/-! ### The canonical form -/

@[simp] theorem rd_canon (s : State) (a : Nat) : rd s.canon a = rd s a := sget_scanon _ _ _

@[simp] theorem semOf_canon (s : State) (n : Nat) : semOf s.canon n = semOf s n := sget_scanon _ _ _

@[simp] theorem sliceOf_canon (s : State) (n : Nat) : sliceOf s.canon n = sliceOf s n := sget_scanon _ _ _

@[simp] theorem ringOf_canon (s : State) (n i : Nat) : ringOf s.canon n i = ringOf s n i := sget_scanon _ _ _

theorem sameStore_canon (m : Mram) : sameStore m m.canon := by simp [sameStore, Mram.canon]

theorem canon_wf (s : State) : s.canon.wf = true := by simp [State.wf, State.canon, Mram.wf, Mram.canon]

/-- Bringing a state into canonical form changes no part of it, nor does a change of its queue. -/
theorem canon_unchanged (s : State) (q : List Instr) : Unchanged [] s { s.canon with pending := q } := by
  intro p _
  have h := same_refl p s
  cases p
  case regs => exact rd_canon s
  case sems => exact ⟨semOf_canon s, rfl, rfl⟩
  case slices => exact ⟨sliceOf_canon s, rfl⟩
  case sram => exact ⟨fun w => sget_scanon _ _ _, fun w => sget_scanon _ _ _⟩
  case rings => exact ringOf_canon s
  case stores => exact ⟨sameStore_canon _, sameStore_canon _⟩
  case life => exact ⟨fun w => sget_scanon _ _ _, rfl⟩
  case ceremonies => exact ⟨rfl, fun w => sget_scanon _ _ _⟩
  all_goals exact h

/-- What every command answers: the state that it reaches, in canonical form, with the queue as it stood. -/
theorem endWith_unchanged (h : Unchanged ps s t) : Unchanged ps s { t.canon with pending := s.pending } :=
  h.trans ((canon_unchanged t s.pending).mono (by simp))

/-! ### Interrupts, captures, journal -/

theorem msixSend_unchanged (x : Port) (fn vec : Nat) : Unchanged [.ports, .out] s (msixSend s x fn vec) := by
  unfold msixSend
  dsimp only
  repeat' split
  · exact (setPort_unchanged _ _).mono (by decide)
  · exact (send_unchanged _).mono (by decide)
  all_goals exact .refl _ _

theorem pageIrq_unchanged (pg : Nat) : Unchanged [.ports, .out] s (pageIrq s pg) := by
  have step : ∀ (b : Bool) (u : State) (x : Port) (fn v : Nat), Unchanged [.ports, .out] u (if b = true then msixSend u x fn v else u) := by
    intro b u x fn v
    cases b
    · exact .refl _ _
    · exact msixSend_unchanged _ _ _
  exact (step _ s .a _ _).trans (step _ _ .b _ _)

theorem raiseBits_unchanged (pg : Nat) (b : Word) : Unchanged [.regs, .ports, .out] s (raiseBits s pg b) := by
  unfold raiseBits
  dsimp only
  split
  · exact ((wr_unchanged _ _).mono (by decide)).trans ((pageIrq_unchanged _).mono (by decide))
  · exact (wr_unchanged _ _).mono (by decide)

theorem raise_unchanged (pg bit : Nat) : Unchanged [.regs, .ports, .out] s (raise s pg bit) := raiseBits_unchanged _ _

theorem capture_unchanged (pg : Nat) (e : ErrIn) : Unchanged [.regs, .ports, .out] s (capture s pg e) := by
  unfold capture
  dsimp only
  split
  · exact (wr_unchanged _ _).mono (by decide)
  · exact ((wr_unchanged _ _).mono (by decide)).trans <| ((wr_unchanged _ _).mono (by decide)).trans <|
      ((wr_unchanged _ _).mono (by decide)).trans <| ((wr_unchanged _ _).mono (by decide)).trans (raise_unchanged _ _)

theorem captureAt_unchanged (pg : Nat) (who : Party) (c a : Nat) (n : Option Nat) :
    Unchanged [.regs, .ports, .out] s (captureAt s pg who c a n) := capture_unchanged _ _

theorem gauge_unchanged (g : Gauge) : Unchanged [.gauge] s { s with gauge := g } := by
  intro p hp; have h := same_refl p s; cases p <;> first | exact absurd (by decide) hp | exact h

theorem conf_unchanged (c : Confluence) : Unchanged [.confluence] s { s with conf := c } := by
  intro p hp; have h := same_refl p s; cases p <;> first | exact absurd (by decide) hp | exact h

theorem beginWrite_unchanged (e : JEvent) : Unchanged [.gauge, .switch] s (beginWrite s e) := by
  unfold beginWrite
  dsimp only
  split
  · exact ((gauge_unchanged _).mono (by decide)).trans ((mirrorSend_unchanged _).mono (by decide))
  · exact (gauge_unchanged _).mono (by decide)

theorem journalKick_unchanged : Unchanged [.gauge, .switch] s (journalKick s) := by
  unfold journalKick
  repeat' split
  · exact .refl _ _
  · exact ((gauge_unchanged _).mono (by decide)).trans (beginWrite_unchanged _)
  · exact ((gauge_unchanged _).mono (by decide)).trans (beginWrite_unchanged _)
  · exact .refl _ _
  · exact ((gauge_unchanged _).mono (by decide)).trans (beginWrite_unchanged _)

theorem oweFlag_unchanged (w : Nat) (e : JEvent) : Unchanged [.gauge] s (oweFlag s w e) := by
  unfold oweFlag
  split
  · exact gauge_unchanged _
  · exact .refl _ _

/-- Staging an event changes the journal's staging, its counters of lost and merged events, and, where its record leaves at
once, the mirror link. -/
theorem journal_unchanged (e : JEvent) : Unchanged [.regs, .gauge, .switch] s (journal s e) := by
  have staged : ∀ (g : Gauge) (w : Nat) (e : JEvent), Unchanged [.regs, .gauge, .switch] s (oweFlag { s with gauge := g } w e) :=
    fun g w e => ((gauge_unchanged g).mono (by decide)).trans ((oweFlag_unchanged w e).mono (by decide))
  unfold journal
  dsimp only
  split
  · split
    · exact (staged _ _ _).trans ((bump_unchanged _ _ _ _).mono (by decide))
    · exact staged _ _ _
  · refine Unchanged.trans ?_ (journalKick_unchanged.mono (by decide))
    split
    · exact (staged _ _ _).trans ((bump_unchanged _ _ _ _).mono (by decide))
    · split
      · exact (staged _ _ _).trans ((bump_unchanged _ _ _ _).mono (by decide))
      · exact staged _ _ _

theorem poolWatch_unchanged (n : Nat) : Unchanged [.regs, .ports, .out, .confluence] s (poolWatch n s) := by
  unfold poolWatch
  dsimp only
  split
  · exact ((conf_unchanged _).mono (by decide)).trans ((raise_unchanged _ _).mono (by decide))
  · exact (conf_unchanged _).mono (by decide)

theorem notify_unchanged (c d k i o n : Nat) : Unchanged [.regs, .ports, .out, .confluence] s (notify s c d k i o n) := by
  unfold notify
  dsimp only
  refine Unchanged.trans ?_ (poolWatch_unchanged _)
  split
  · exact (conf_unchanged _).mono (by decide)
  · exact ((conf_unchanged _).mono (by decide)).trans ((raise_unchanged _ _).mono (by decide))

theorem traceWrite_unchanged (k n : Nat) (b : List Byte) : Unchanged [.regs, .ports, .out, .confluence] s (traceWrite s k n b) := by
  unfold traceWrite
  dsimp only
  split
  · refine Unchanged.trans ?_ (poolWatch_unchanged _)
    split
    · exact ((conf_unchanged _).mono (by decide)).trans ((bump_unchanged _ _ _ _).mono (by decide))
    · exact ((conf_unchanged _).mono (by decide)).trans <| ((bump_unchanged _ _ _ _).mono (by decide)).trans <|
        ((raise_unchanged _ _).mono (by decide)).trans ((raise_unchanged _ _).mono (by decide))
  · exact (bump_unchanged _ _ _ _).mono (by decide)

/-- A guarded write without semaphore 0 is counted, captured and journalled, and changes nothing else (R56). -/
theorem rejectWrite_unchanged (who : Party) (pg a : Nat) :
    Unchanged [.regs, .ports, .out, .gauge, .switch] s (rejectWrite s who pg a) := by
  unfold rejectWrite
  exact ((bump_unchanged _ _ _ _).mono (by decide)).trans <|
    ((captureAt_unchanged _ _ _ _ _).mono (by decide)).trans ((journal_unchanged _).mono (by decide))

end Sys2Proof.Laws
end

