-- ==== Sys2Proof/Laws/Values.lean ====
section
/-!
SUPPORT. From what a meaning computes to what a command gives, and the values that the shared register operations leave:
a write, an event of a page (R43), an error capture (R47).
-/
namespace Sys2Proof.Laws

open Sys2Proof.Machine Sys2Proof.Safety

variable {s t m : State} {ps : List Part} {c : Instr} {P : State → Prop}

/-! ### What a command gives -/

/-- A meaning that ends with `m` gives what holds of `m` in its canonical form. -/
theorem gives_intro (h : exec c s = endWith s m) (u : Unchanged ps s m) (p : P { m.canon with pending := s.pending }) :
    Gives c s ps P := ⟨_, h, endWith_unchanged u, p⟩

/-- A meaning that ends with the further work that `m` makes due. -/
theorem givesThen_intro {after : State → State} (h : exec c s = endWith s (after m)) (u : Unchanged ps s m) (p : P m) :
    GivesThen c s after ps P := ⟨m, _, h, u, p, canon_unchanged _ _⟩

/-- A command that gives nothing but an unchanged state, where it has nothing to do. -/
theorem gives_nothing (h : exec c s = endWith s s) : Gives c s [] (fun _ => True) :=
  gives_intro h (Unchanged.refl _ _) trivial

/-! ### Registers -/

theorem rd_wr (a b : Nat) (v : Word) : rd (wr s a v) b = if a = b then v else rd s b := sget_sset _ _ _ _ _

@[simp] theorem rd_wr_same (a : Nat) (v : Word) : rd (wr s a v) a = v := by rw [rd_wr, if_pos rfl]

theorem rd_wr_other {a b : Nat} (v : Word) (h : a ≠ b) : rd (wr s a v) b = rd s b := by rw [rd_wr, if_neg h]

/-- A message that goes out changes no register. -/
@[simp] theorem rd_pageIrq (pg a : Nat) : rd (pageIrq s pg) a = rd s a :=
  (pageIrq_unchanged pg .regs (by decide)) a

/-- R43: events set their bits of the status register and no other register. -/
theorem rd_raiseBits (pg a : Nat) (b : Word) :
    rd (raiseBits s pg b) a = if pg + oIrqStat = a then rd s (pg + oIrqStat) ||| b else rd s a := by
  simp only [raiseBits]
  split <;> simp [rd_wr]

theorem rd_raise (pg bit a : Nat) :
    rd (raise s pg bit) a = if pg + oIrqStat = a then rd s (pg + oIrqStat) ||| BitVec.ofNat 64 (1 <<< bit) else rd s a :=
  rd_raiseBits _ _ _

/-- R47: the first error is captured whole. -/
theorem rd_capture_first (pg : Nat) (e : ErrIn) (h : bitOf (rd s (pg + oErr0)) 16 = false) :
    rd (capture s pg e) (pg + oErr0) = fld 0 16 e.cause ||| flag 16 true ||| fld 24 4 e.source ||| fld 32 32 1 ∧
    rd (capture s pg e) (pg + oErr1) = BitVec.ofNat 64 e.addr ∧
    rd (capture s pg e) (pg + oErr2) = (fld 0 32 e.tag ||| fld 32 10 (e.slice.getD 0) ||| flag 42 e.slice.isSome) ∧
    rd (capture s pg e) (pg + oErr3) = BitVec.ofNat 64 s.nt.ns ∧
    rd (capture s pg e) (pg + oIrqStat) = rd s (pg + oIrqStat) ||| 1 := by
  simp only [capture, h, Bool.false_eq_true, if_false]
  refine ⟨?_, ?_, ?_, ?_, ?_⟩ <;> simp [rd_raise, rd_wr, oErr0, oErr1, oErr2, oErr3, oIrqStat]

/-- R47: a later error changes only the count and the overflow bit. -/
theorem capture_later (pg : Nat) (e : ErrIn) (h : bitOf (rd s (pg + oErr0)) 16 = true) :
    capture s pg e = wr s (pg + oErr0) (bumpF (rd s (pg + oErr0)) 32 32 1 ||| flag 17 true) := by
  simp only [capture, h, if_true]

end Sys2Proof.Laws
end

