-- ==== Sys2Proof/Tests/Slice0.lean ====
section
/-!
SUPPORT. The model's own tests: the well-formedness smoke, values of the manual's examples and of the standards that it
names, single steps on small states, and for each statement states and operands that meet its hypotheses.
-/
namespace Sys2Proof.Tests

open Sys2Proof.Machine Sys2Proof.Safety

set_option Elab.async false

/-! ### Small states -/

/-- Duplex running: die 0 active, die 1 standby, both links and both mirror halves up, slice 5 active on both ports. -/
def served : State :=
  { State.reset with
    portA := { linkUp := true, speed := 3, width := 4, trained := true, msix := [(7, { addr := 0x1000, data := 9, masked := false })] }
    portB := { linkUp := true, speed := 3, width := 4, trained := true }
    slices := [(5, { mode := .active, portA := true, portB := true, pasidA := 1, pasidB := 2, keyBase := 64, keyCount := 64 })]
    die0 := { inService := true }
    die1 := { inService := true }
    sw := { token := some .d0, half0Up := true, half1Up := true }
    kst := { isOpen := true, rootId := 1 }
    life := { state := .owned, resolved := true }
    vault := { ownerRoot := some [] }
    starts := { due := none, step := 13 } }

/-- The same, Port A holding semaphore 0. -/
def guarded : State := { served with sems := [(0, { holder := some .portA, leaseEnd := 2000000000 })] }

/-- The state that an answer gives, or `s`. -/
def nextOf (o : Answer) (s : State) : State := match o with | .next t => t | _ => s

theorem nextIs {o : Answer} (s : State) (h : (match o with | .next _ => true | _ => false) = true) : o = .next (nextOf o s) := by
  cases o with
  | next t => rfl
  | fault f => cases h
  | refused r => cases h

/-- Bytes from hexadecimal digits. -/
def hex (t : String) : Bytes :=
  let v := t.toList.map (fun c => if c.toNat < 58 then c.toNat - 48 else c.toNat - 87)
  (List.range (v.length / 2)).map (fun j => BitVec.ofNat 8 (v.getD (2 * j) 0 * 16 + v.getD (2 * j + 1) 0))

/-! ### Well-formedness: for each check a command that it refuses, and the last operand that it lets through -/

def noFuse (w : Nat) : FuseRead := ⟨w, 0, 0, 0, 0, 0, 0⟩
def quietStart : StartReport :=
  { ms := 0, temp := 25, lockstep := true, detectors := [], fuses := [], secretBad := false, keptBad := false, die0 := true, die1 := true,
    rows := [], sectors := [], channel := true }

/-- Each operand one past its range. -/
theorem test_badCommands : (
  [.sliceDrain .a 1024 0, .ringEnable .a 0 8 0, .stepReady 262144, .eddyScrubDone 288 0, .eddyScrubDone 0 4, .bnlJobDone 28 true,
   .dataPassAccept 5, .streamIdleClose (2 ^ 32), .keyTxnFlip 128, .shadowHoming 8388608, .oldMaterialZeroise 0 (2 ^ 32),
   .ceremonyExpiry (2 ^ 32), .cardInserted 2, .mirrorHalfDown 2 [], .hazardReport 17 .base true true 0, .hazardReport 0 .base true true 0,
   .noiseBlockFail .d0 2 true true, .rowReplace .d0 64 0, .rowReplace .d0 0 8192, .sramUncorrectable .d0 0x8000480 0 false,
   .patrolPass .d0 [(2 ^ 27, true)], .unitFailed .d0 4 16, .spareSubstituted .d0 5,
       .leveeConfigWrite .portA 0 0x130 0] : List Instr).all (fun c => !c.wf) = true := by decide +kernel

/-- The rest: accesses, pages, lists, reports and the fields of single rows. -/
theorem test_badCommands2 : (
  [.registerWrite .warden .bar0 0x4000000 8 0 none, .registerWrite .portA .bar2 0x400000 8 0 none, .registerWrite .portA .bar0 0 3 0 none,
   .registerWrite .portA .bar0 0 8 0 (some ⟨true, 0x4000000, 8, 0⟩), .pgIrqStatClear .portA .bar0 0x10 0 0,
   .errRearm .portA .bar0 0 0 (some { cause := 65536, source := 0, addr := 0 }), .semTake .a 32, .descriptorFetch 0 0 (List.replicate 9 []),
   .descriptorParse 0 0 [⟨some [1], none⟩], .ringConfigWrite .a 0 0 0x20 0, .portLinkUp .a 0 1, .portLinkUp .a 6 1, .portLinkUp .a 1 3,
   .heartbeat .d0 0 false 256 0, .heartbeat .d0 0 false 0 4, .detectorFault 11, .detectorSelftest [(11, true)], .trustTimerExpiry 9,
   .cardSessionDone 0 16 [] [] [], .lccTokenWrite .portA 4 0, .fuseTempSense 25 true [noFuse 512], .integritySecondMismatch .d0 ⟨0, 0, [0],
       0⟩ 7 0 .warden, .unitSelftest .d0 7 1 true true,
   .integritySecondMismatch .d0 ⟨0, 0, [], 0⟩ 6 0 .warden,
   .mpuPreciseTrap 0 0 (2 ^ 32) 0, .msiXVectorUnmask .a 0 128, .msiXVectorUnmask .a 1 1920, .msiXVectorUnmask .a 2 0,
   .coldStart { quietStart with rows := [(0, 8192)] }, .warmStart { quietStart with fuses := [noFuse 512] },
   .warmStart { quietStart with sectors := [(2, 0)] }] : List Instr).all (fun c => !c.wf) = true := by decide +kernel

/-- The same operands at the end of their range. -/
theorem test_goodCommands : (
  [.sliceDrain .a 1023 0, .ringEnable .a 0 7 0, .stepReady 262143, .eddyScrubDone 287 3, .bnlJobDone 27 true, .dataPassAccept 4,
   .streamIdleClose (2 ^ 32 - 1), .keyTxnFlip 127, .shadowHoming 8388607, .cardInserted 1, .mirrorHalfDown 1 [], .hazardReport 16 .base true true 0,
   .noiseBlockFail .d0 1 true true, .rowReplace .d0 63 8191, .sramUncorrectable .d0 0x800047F 0 false, .unitFailed .d0 4 15,
       .unitSelftest .d0 7 2 true true,
   .integritySecondMismatch .d0 ⟨0, 0, [0], 0⟩ 6 0 .warden,
   .leveeConfigWrite .portA 0 0x128 0, .registerWrite .warden .bar0 0x3FFFFF8 8 0 none, .registerWrite .portA .bar2 0x3FFFF8 8 0 none,
   .pgIrqStatClear .portA .bar0 0x1000 0 0, .semTake .a 31, .descriptorFetch 0 0 (List.replicate 8 []), .portLinkUp .a 5 8,
   .heartbeat .d0 0 false 255 3, .detectorFault 10, .trustTimerExpiry 8, .msiXVectorUnmask .a 0 127,
       .coldStart quietStart] : List Instr).all (fun c => c.wf) = true := by decide +kernel

/-! ### The manual's examples -/

/-- The deadline example of the scope chapter. -/
theorem test_deadlineBytes : leBytes 8 1893456000129000000 = [0x40, 0x62, 0x85, 0x3D, 0x33, 0xE8, 0x46, 0x1A] := by decide +kernel

/-- The PVV example that needs the second scan (R140). -/
theorem test_pvvSecondScan : takeDigits 4 (nibbles (hex "ab4cdef0fbaecd9f")) = [4, 0, 9, 0] := by decide +kernel

/-- The card-code example. -/
theorem test_cvcScan : takeDigits 3 (nibbles (hex "f3b9ac07e51d6428")) = [3, 9, 0] := by decide +kernel

/-- The offset of Table 8 of the PIN chapter, and its packing. -/
theorem test_offset : bcdField 6 (subDigits [3, 9, 1, 7] [8, 2, 3, 0]) = hex "5787ffffffff" := by decide +kernel

/-- The token example: the tweak T of Table 5 of the token chapter. -/
theorem test_tokenTweak : tokenTweak (hex "010a101306040104c5197e0200000000" ++ hex "00000b31000000000000000000000000")
    [7, 3, 1, 5, 4, 2] [1, 4, 7, 3] = hex "c5197e027315421473" := by decide +kernel

/-- The padded block of Table 9 of the digest chapter. -/
theorem test_shaPadding : hashPad .sha256 (hex "5041593031") = hex "504159303180" ++ zeros 50 ++ hex "0000000000000028" := by decide +kernel

/-- The initial key's derivation data of Table 11 of the DUKPT chapter. -/
theorem test_dukptData : aesDukpt (hex "3a7e05c9d2148b6ff0931c5a6e27b4d8") 0x8001 0x20 (hex "5c31a70800049e21") =
    aesEnc (hex "3a7e05c9d2148b6ff0931c5a6e27b4d8") (hex "01018001000200805c31a70800049e21") := by decide +kernel

/-! ### Values of the standards (log entry 6) -/

/-- FIPS 197, appendix C.1. -/
theorem test_aes128 : aesEnc (hex "000102030405060708090a0b0c0d0e0f") (hex "00112233445566778899aabbccddeeff") =
    hex "69c4e0d86a7b0430d8cdb78070b4c55a" := by decide +kernel

/-- RFC 4493, example 2. -/
theorem test_cmac : cmac (.aes (hex "2b7e151628aed2a6abf7158809cf4f3c")) (hex "6bc1bee22e409f96e93d7e117393172a") =
    hex "070a16b46b4d4144f79bdd9dd04a287c" := by decide +kernel

/-- FIPS 180-4: SHA-256 and SHA-384 of abc. -/
theorem test_sha256 : hash .sha256 (ascii "abc") = hex "ba7816bf8f01cfea414140de5dae2223b00361a396177a9cb410ff61f20015ad" := by decide +kernel
theorem test_sha384 : hash .sha384 (ascii "abc") =
    hex "cb00753f45a35e8bb5a03d699ac65007272c32ab0eded1631a8b605a43ff5bed8086072ba1e7cc2358baeca134c825a7" := by decide +kernel

/-- ANSI X9.24-1: the initial key of the published key and serial number, and the key of its first transaction. -/
theorem test_ipek : ipek (hex "0123456789abcdeffedcba9876543210") (hex "ffff9876543210e00000") = hex "6ac292faa1315b4d858ab3a3d7d5933a" := by decide +kernel
theorem test_tdesDukpt : tdesCurrent (hex "0123456789abcdeffedcba9876543210") (hex "ffff9876543210e00001") =
    hex "042666b49184cfa368de9628d0397bc9" := by decide +kernel

/-- The generator doubled on P-256. -/
theorem test_p256 : (ptMul p256 2 (basePt p256)).map (·.1) = some 0x7cf27b188d034f7e8a52380304b51ac3c08969e277f21b35a60b48fc47669978 := by
  decide +kernel

/-! ### Single steps -/

/-- A step on an empty queue is one 40 ns cycle (log entry 3). -/
theorem test_idle : (nextOf (step served) served).nt.ns = served.nt.ns + 40 := by decide +kernel

/-- The command at the front runs and the rest waits. -/
theorem test_front :
    let t := nextOf (step { served with pending := [.semTake .a 3, .sliceDrain .a 5 1] }) served
    (semOf t 3).holder = some .portA ∧ t.pending = [.sliceDrain .a 5 1] := by decide +kernel

/-- R43: the set wins over the clear of the same cycle. -/
theorem test_setWins :
    rd (nextOf (execPgIrqStatClear .portA .bar0 (pgCfl .d0 0) 0x8 0x8 { guarded with regs := [(pgCfl .d0 0 + oIrqStat, 0x8)] }) guarded)
      (pgCfl .d0 0 + oIrqStat) = 0x8 := by decide +kernel

/-- R81: a drain makes the slice DRAINING, on the slice's own page. -/
theorem test_drain : (sliceOf (nextOf (execSliceDrain .a 5 1 served) served) 5).mode = .draining := by decide +kernel

/-- R55: a slice page that is not bound to the port answers nothing and changes nothing of the slice. -/
theorem test_unbound :
    let s := { served with slices := [(5, { sliceOf served 5 with portA := false })] }
    (sliceOf (nextOf (execSliceDrain .a 5 1 s) s) 5).mode = .active := by decide +kernel

/-! ### Hypotheses of the statements that quantify over states or runs alone -/

/-- A state whose queue is empty (`IdleStepAdvancesTime`). -/
theorem meets_IdleStepAdvancesTime : ∃ s : State, s.pending = [] ∧ s.nt.slewLeft = 0 := ⟨served, rfl, rfl⟩

/-- A state that meets the invariant, with a command waiting (`StepKeepsInvariant`). -/
theorem meets_StepKeepsInvariant : ∃ s : State, StateInv s ∧ s.pending ≠ [] :=
  ⟨{ guarded with pending := [.semTake .b 3] }, by unfold StateInv; decide +kernel⟩

/-- A queue of two commands, one of them in the prefix that runs (`CommandsRunInOrder`). -/
theorem meets_CommandsRunInOrder : ∃ (l r : List Instr) (s : State), s.pending = l ++ r ∧ l ≠ [] ∧ r ≠ [] :=
  ⟨[.semTake .a 3], [.wardenSemTake], { served with pending := [.semTake .a 3, .wardenSemTake] }, by decide +kernel⟩

/-! ### Hypotheses of the statements about commands -/

/-- A step of slice 5 in a phase. -/
def stp (ph : StepPhase) : Step := { desc := zeros 128, sg := [], sliceNo := 5, pair := 0, sqPos := 0, entry := 0, admNt := 0, level := 3, charge := 1, index := 0, last := 0, chain := 0, sequential := false, admitSeq := 0, phase := ph, ran := true, inputDone := true }
def r0 : Ring := { enable := true, mode := .running, home := 1, portNow := 1, sqTail := 8, cqTail := 4, sqHead := 4 }
def cer (a : Nat) (m : CerMode) : Ceremony := { domain := 6, action := a, mode := m, nonce := zeros 16, digest := [], params := leBytes 2 5 ++ zeros 200, keyPriv := zeros 48, keyPub := zeros 97, expires := 10^18 }

theorem okIs {e : Except Status Ceremony} {c : Ceremony} (h : (match e with | .ok x => decide (x = c) | .error _ => false) = true) :
    e = .ok c := by
  cases e with
  | ok x => exact congrArg Except.ok (of_decide_eq_true h)
  | error x => cases h

theorem errorIs {e : Except Status Ceremony} {c : Status} (h : (match e with | .error x => decide (x = c) | .ok _ => false) = true) :
    e = .error c := by
  cases e with
  | ok x => cases h
  | error x => exact congrArg Except.error (of_decide_eq_true h)

/-! ### Register pages -/

namespace Pages

def swB : State := { guarded with regs := [(pgCfl .d0 0 + oIrqStat, 7)] }
def g1 : State := { guarded with regs := [(pgSem + oCtl, fld 0 11 7 ||| flag 11 true), (pgSem + oIrqStat, 3), (pgSem + oIrqEn, 2), (pgSem+oLock, fld 32 16 5)] }
def g3 : State := { guarded with regs := (List.range 1).map (fun _ => (pgSem + oErr0, flag 16 true ||| fld 32 32 4)) }

/-- States and operands that meet the hypotheses of each clause of `Obligations.PlainRegisterWrite`. -/
theorem meets_PlainRegisterWrite :
    (∃ (s : State) (who : Party) (d : Die), BaseOpen s who ∧ (dieOf s d).inService = true ∧ (semOf s 0).holder = some who) := by
  refine ⟨guarded, .portA, .d0, ?_⟩
  dsimp only [BaseOpen]
  decide +kernel

/-- States and operands that meet the hypotheses of each clause of `Obligations.UnboundSliceAccess`. -/
theorem meets_UnboundSliceAccess :
    (∃ (s : State) (x : Port) (n off size : Nat), arrives s (partyOf x) 1 = true ∧ (portOf s x).flr = false ∧ n < 1024 ∧ off < 0x1000 ∧
        sizeOk off size = true ∧ ((sliceOf s n).mode = .absent ∨ boundTo (sliceOf s n) x = false)) := by
  refine ⟨{guarded with slices := []}, .a, 5, 0x104, 4, ?_⟩
  decide +kernel

/-- States and operands that meet the hypotheses of each clause of `Obligations.RcFieldRead`. -/
theorem meets_RcFieldRead :
    (∃ (s : State) (p : Page) (pg : Nat) (who : Party) (x : Port), pageAt pg = some p ∧ pg < win0 ∧ pg % 0x1000 = 0 ∧ s.lev.halted = false ∧
        arrives s who = true ∧ arrives s .portA = true ∧ arrives s .portB = true ∧ s.tieB = (x == .b)) := by
  refine ⟨g1, ⟨.sem,0,0⟩, pgSem, .portA, .a, ?_⟩
  decide +kernel

/-- States and operands that meet the hypotheses of each clause of `Obligations.PageInterruptWrites`. -/
theorem meets_PageInterruptWrites :
    (∃ (s : State) (who : Party) (p : Page) (pg v : Nat) (x : Port) (e : MsixEntry), BaseOpen s who ∧ pageAt pg = some p ∧ pg < win0 ∧
        pg % 0x1000 = 0 ∧ getF (rd s (pg + oCtl)) 0 11 = v ∧ bitOf (rd s (pg + oCtl)) 11 = (x == .a) ∧ bitOf (rd s (pg + oCtl)) 12 = (x == .b) ∧
        v < 128 ∧ sget (fun _ => {}) (portOf s x).msix (msixIx 0 v) = e ∧ e.masked = false ∧ fnUp (portOf s x) 0 = true ∧
        (semOf s 0).holder = some who) := by
  refine ⟨g1, .portA, ⟨.sem,0,0⟩, pgSem, 7, .a, { addr := 0x1000, data := 9, masked := false }, ?_⟩
  dsimp only [BaseOpen]
  decide +kernel

/-- States and operands that meet the hypotheses of each clause of `Obligations.ErrorCaptureAndRearm`. -/
theorem meets_ErrorCaptureAndRearm :
    (∃ (s : State) (who : Party) (p : Page) (pg : Nat) (data : Word), BaseOpen s who ∧ pageAt pg = some p ∧ pg < win0 ∧ pg % 0x1000 = 0 ∧
        (semOf s 0).holder = some who ∧ bitOf data 16 = true ∧ bitOf (rd s (pg + oErr0)) 16 = true) ∧
    (∃ (s : State) (who : Party) (p : Page) (pg : Nat), BaseOpen s who ∧ pageAt pg = some p ∧ pg < win0 ∧ pg % 0x1000 = 0 ∧
        bitOf (rd s (pg + oErr0)) 16 = false) := by
  refine ⟨?_, ?_⟩
  · refine ⟨g3, .portA, ⟨.sem,0,0⟩, pgSem, 0x10803, ?_⟩
    dsimp only [BaseOpen]
    decide +kernel
  · refine ⟨g1, .portA, ⟨.sem,0,0⟩, pgSem, ?_⟩
    dsimp only [BaseOpen]
    decide +kernel

/-- States and operands that meet the hypotheses of each clause of `Obligations.GuardedWriteRejected`. -/
theorem meets_GuardedWriteRejected :
    (∃ (s : State) (who : Party) (p : Page) (pg : Nat) (data : Word) (c : Instr), BaseOpen s who ∧ pageAt pg = some p ∧ pg < win0 ∧ pg % 0x1000 = 0 ∧
        (semOf s 0).holder ≠ some who ∧ (c = .pgIrqEnWrite who .bar0 pg data ∨ c = .pgIrqForceWrite who .bar0 pg data ∨ c = .errRearm who .bar0 pg data none)) := by
  refine ⟨g1, .portB, ⟨.sem,0,0⟩, pgSem, 2, .errRearm .portB .bar0 pgSem 2 none, ?_⟩
  dsimp only [BaseOpen]
  decide +kernel

/-- States and operands that meet the hypotheses of each clause of `Obligations.AliasAndVectorCommands`. -/
theorem meets_AliasAndVectorCommands :
    (∃ (s : State) (x : Port) (acc : HostAccess) (fn v : Nat) (e : MsixEntry) (d : Die), s.sw.gap.isSome = true ∧ fnUp (portOf s x) 0 = true ∧
        isAlias acc.addr = true ∧ sizeOk acc.addr acc.size = true ∧ heldOf s x < 64 ∧ fencedDie s = some d ∧ (portOf s x).linkUp = true ∧
        wasForwarded d acc.addr = true ∧ bitOf (rd s (pgBas + oErr0)) 16 = false ∧ fnUp (portOf s x) fn = true ∧ fn < 2 ∧ v < msixCount fn ∧
        (portOf s x).flr = false ∧ msixOf s x fn v = e) ∧
    (∃ (s : State) (x : Port) (acc : HostAccess), s.sw.gap.isSome = true ∧ fnUp (portOf s x) 0 = true ∧ isAlias acc.addr = true ∧
        sizeOk acc.addr acc.size = true ∧ 64 ≤ heldOf s x) := by
  refine ⟨?_, ?_⟩
  · refine ⟨{g1 with sw := {g1.sw with gap := some ⟨0,1,.d1⟩, switchovers := 1, lastOld := 1}, die1 := {}, portA := {g1.portA with msix := [(7, { addr := 0x1000, data := 9, masked := true, pending := true })]}}, .a, ⟨false,0xC04118,8,3⟩, 0, 7, { addr := 0x1000, data := 9, masked := true, pending := true }, .d1, ?_⟩
    decide +kernel
  · refine ⟨{g1 with sw := {g1.sw with gap := some ⟨0,1,.d1⟩, aliasHeld := List.replicate 64 ⟨.portA, ⟨true,0xC04118,8,3⟩, true⟩}}, .a,
        ⟨true,0xC04118,8,3⟩, ?_⟩
    decide +kernel

/-- States and operands that meet the hypotheses of each clause of `Obligations.SetWins`. -/
theorem meets_SetWins :
    (∃ (s : State) (who : Party) (x : Port) (p : Page) (pg a n i : Nat), i < 64 ∧ arrives s who = true ∧
        route s (pg / 0x1000 * 0x1000 + oIrqStat) = .at_ p a ∧ (s.lev.halted = false ∨ p.block = .sem) ∧ s.vault.recovery = false ∧
        SlicePageOpen s x n) := by
  refine ⟨swB, .portA, .a, ⟨.cfl, 0, 1⟩, pgCfl .d0 0, pgCfl .d0 0, 5, 1, ?_⟩
  dsimp only [SlicePageOpen]
  decide +kernel


end Pages

/-! ### The access map -/

namespace Guards

def rr (o : Nat) : RegSpec := (regSpec ⟨.lev,0,0⟩ o).getD {}

/-- States and operands that meet the hypotheses of each clause of `Obligations.SemaphoreGuardsWritesOnly`. -/
theorem meets_SemaphoreGuardsWritesOnly :
    (∃ (s : State) (who : Party) (p : Page) (pg off a : Nat) (r : RegSpec), pg % 0x1000 = 0 ∧ regSpec p off = some r ∧ r.guarded = true ∧
        off < 0x1000 ∧ off % 8 = 0 ∧ arrives s who = true ∧ s.lev.halted = false ∧ route s (pg + off) = .at_ p a ∧ BaseOpen s who ∧
        route s (pg + oIrqStat) = .at_ p a) ∧
    (∃ (p : Page) (pg off : Nat) (r : RegSpec), pg % 0x1000 = 0 ∧ regSpec p off = some r ∧ r.w1c ≠ 0) ∧
    (∃ (pg off n : Nat) (r : RegSpec), pg % 0x1000 = 0 ∧ regSpec ⟨.slc, n, 3⟩ off = some r) := by
  refine ⟨?_, ?_, ?_⟩
  · refine ⟨served, .portB, ⟨.lev,0,0⟩, pgLev 0, 0x128, pgLev 0, rr 0x128, ?_⟩
    dsimp only [BaseOpen]
    decide +kernel
  · refine ⟨⟨.lev,0,0⟩, pgLev 0, oIrqStat, rr oIrqStat, ?_⟩
    decide +kernel
  · refine ⟨pgLev 0, 0x108, 5, (regSpec ⟨.slc,5,3⟩ 0x108).getD {}, ?_⟩
    decide +kernel


end Guards

/-! ### Slices, ring pairs, ports and semaphores -/

namespace Slices

def w1 : State := { guarded with conf := { steps := [(16, stp (.executing 3)), (24, stp .listed)], ready := [(3,[24])], ctxs := [(2,5),(3,5)] }, cores := [(3, { exec := some 16 })], rings := [(40, r0), (41, {r0 with home := 2, portNow := 2}),(42,{r0 with home := 2, mode := .held, portNow := 0, lastPort := 2})] }
def w2 : State := { guarded with slices := [(5,{ mode := .draining, portA := true, hold := true})], rings := [(40, r0)]}
def w3 : State := { guarded with rings := [(40, r0), (41, {r0 with home := 2, portNow := 2})]}

/-- States and operands that meet the hypotheses of each clause of `Obligations.SliceResetCommands`. -/
theorem meets_SliceResetCommands :
    (∃ (s : State) (x : Port) (who : Party) (n : Nat) (ctl value : Word), SlicePageOpen s x n ∧ (sliceOf s n).mode = .active ∧ bitOf ctl 0 = true ∧
        bitOf ctl 1 = false ∧ GuardedOpen s who ∧ getF value 0 10 = n ∧ getF value 10 2 = 1) ∧
    (∃ (s : State) (x : Port) (who : Party) (n : Nat) (ctl value : Word), SlicePageOpen s x n ∧ (sliceOf s n).mode = .active ∧ bitOf ctl 0 = false ∧
        bitOf ctl 1 = true ∧ GuardedOpen s who ∧ getF value 0 10 = n ∧ getF value 10 2 = 2) ∧
    (∃ (s : State) (x : Port) (n : Nat) (ctl : Word), SlicePageOpen s x n ∧ bitOf ctl 0 = false ∧ bitOf ctl 1 = false) := by
  refine ⟨?_, ?_, ?_⟩
  · refine ⟨w1, .a, .portA, 5, 1, fld 0 10 5 ||| fld 10 2 1, ?_⟩
    dsimp only [SlicePageOpen, GuardedOpen, BaseOpen]
    decide +kernel
  · refine ⟨w1, .a, .portA, 5, 2, fld 0 10 5 ||| fld 10 2 2, ?_⟩
    dsimp only [SlicePageOpen, GuardedOpen, BaseOpen]
    decide +kernel
  · refine ⟨{w1 with slices := [(5,{ mode := .quiesced, portA := true, hold := true})]}, .a, 5, 0, ?_⟩
    dsimp only [SlicePageOpen]
    decide +kernel

/-- States and operands that meet the hypotheses of each clause of `Obligations.SliceResetEnds`. -/
theorem meets_SliceResetEnds :
    (∃ (s : State) (n : Nat), s.portA.flr = false ∧ s.portB.flr = false ∧ ((sliceOf s n).mode = .draining ∨ (sliceOf s n).mode = .squashing) ∧
        resetDone s n = true) ∧
    (∃ (s : State) (n : Nat), s.portA.flr = false ∧ s.portB.flr = false ∧ ((sliceOf s n).mode = .draining ∨ (sliceOf s n).mode = .squashing) ∧
        resetDone s n = false) := by
  refine ⟨?_, ?_⟩
  · refine ⟨w2, 5, ?_⟩
    decide +kernel
  · refine ⟨{w2 with rings := [(40,{r0 with debt := 1})]}, 5, ?_⟩
    decide +kernel

/-- States and operands that meet the hypotheses of each clause of `Obligations.RingControl`. -/
theorem meets_RingControl :
    (∃ (s : State) (x y : Port) (n p reg : Nat) (ctl : Word) (r : Ring), SlicePageOpen s x n ∧ p < 8 ∧ ringOf s n p = r ∧ r.enable = false ∧
        bitOf ctl 0 = true ∧ r.mode = .disabled ∧ getF ctl 1 4 < 13 ∧ getF ctl 5 2 = portCode y ∧ boundTo (sliceOf s n) y = true ∧
        (sliceOf s n).mode = .active ∧ portOk s y = true ∧ (reg = 0x00 ∨ reg = 0x08 ∨ reg = 0x10)) ∧
    (∃ (s : State) (x y : Port) (n p reg : Nat) (ctl : Word) (r : Ring), SlicePageOpen s x n ∧ p < 8 ∧ ringOf s n p = r ∧ r.enable = true ∧
        bitOf ctl 0 = false ∧ getF ctl 1 4 = r.sizeCode ∧ getF ctl 5 2 = portCode y ∧ r.mode ≠ .disabled ∧ (reg = 0x00 ∨ reg = 0x08 ∨ reg = 0x10)) ∧
    (∃ (s : State) (x y : Port) (n p : Nat) (ctl : Word) (r : Ring), SlicePageOpen s x n ∧ p < 8 ∧ ringOf s n p = r ∧ r.enable = false ∧
        bitOf ctl 0 = true ∧ r.mode = .disabled ∧ getF ctl 1 4 < 13 ∧ getF ctl 5 2 = portCode y ∧
        (boundTo (sliceOf s n) y = false ∨ (sliceOf s n).mode ≠ .active)) ∧
    (∃ (s : State) (x y : Port) (n p : Nat) (ctl : Word) (r : Ring), SlicePageOpen s x n ∧ p < 8 ∧ ringOf s n p = r ∧ r.enable = true ∧
        bitOf ctl 0 = true ∧ getF ctl 1 4 = r.sizeCode ∧ getF ctl 5 2 = portCode y ∧ r.mode = .running ∧ r.portNow = portCode (otherPort y) ∧
        boundTo (sliceOf s n) y = true ∧ portOk s y = true) := by
  refine ⟨?_, ?_, ?_, ?_⟩
  · refine ⟨w1, .a, .b, 5, 3, 8, 0x12340000FFFF3FFF &&& ~~~ 0x7F ||| 1 ||| fld 1 4 4 ||| fld 5 2 2, {}, ?_⟩
    dsimp only [SlicePageOpen]
    decide +kernel
  · refine ⟨w1, .a, .a, 5, 0, 8, fld 5 2 1, r0, ?_⟩
    dsimp only [SlicePageOpen]
    decide +kernel
  · refine ⟨{w1 with slices := [(5,{mode := .active, portA := true})]}, .a, .b, 5, 3, 0xFFFF3FFF &&& ~~~ 0x7F ||| 1 ||| fld 1 4 4 ||| fld 5 2 2, {},
        ?_⟩
    dsimp only [SlicePageOpen]
    decide +kernel
  · refine ⟨w1, .a, .b, 5, 0, 1 ||| fld 5 2 2, r0, ?_⟩
    dsimp only [SlicePageOpen]
    decide +kernel

/-- States and operands that meet the hypotheses of each clause of `Obligations.Doorbells`. -/
theorem meets_Doorbells :
    (∃ (s : State) (x : Port) (n p : Nat) (w : Word) (r : Ring), SlicePageOpen s x n ∧ p < 8 ∧ ringOf s n p = r ∧
      let v := w.setWidth 32
      let open_ := r.enable = true ∧ r.mode ≠ .disabled ∧ (sliceOf s n).mode = .active
      s.sw.gap = none ∧ open_ ∧ ringDist r.sqHead v ≤ ringSize r ∧ ringDist r.sqHead r.sqTail ≤ ringDist r.sqHead v ∧
          ringDist r.cqHead r.cqTail < ringDist r.cqHead v) ∧
    (∃ (s : State) (x : Port) (n p : Nat) (w : Word) (r : Ring), SlicePageOpen s x n ∧ p < 8 ∧ ringOf s n p = r ∧
      let v := w.setWidth 32
      let open_ := r.enable = true ∧ r.mode ≠ .disabled ∧ (sliceOf s n).mode = .active
      s.sw.gap = none ∧ open_ ∧ ringSize r < ringDist r.sqHead v ∧ ringDist r.cqHead v ≤ ringDist r.cqHead r.cqTail) ∧
    (∃ (s : State) (x : Port) (n p : Nat) (r : Ring), SlicePageOpen s x n ∧ p < 8 ∧ ringOf s n p = r ∧ s.sw.gap.isSome = true) ∧
    (∃ (s : State) (x : Port) (n p : Nat) (r : Ring), SlicePageOpen s x n ∧ p < 8 ∧ ringOf s n p = r ∧ r.enable = false ∧ s.sw.gap = none) ∧
    (∃ (s : State) (x : Port) (n p : Nat) (w : Word) (r : Ring), SlicePageOpen s x n ∧ p < 8 ∧ ringOf s n p = r ∧
      let v := w.setWidth 32
      let open_ := r.enable = true ∧ r.mode ≠ .disabled ∧ (sliceOf s n).mode = .active
      s.sw.gap = none ∧ open_ ∧ ringDist r.sqHead v ≤ ringSize r ∧ ringDist r.sqHead v < ringDist r.sqHead r.sqTail) := by
  refine ⟨?_, ?_, ?_, ?_, ?_⟩
  · refine ⟨w1, .a, 5, 0, 9, r0, ?_⟩
    dsimp only [SlicePageOpen]
    decide +kernel
  · refine ⟨w1, .a, 5, 0, 3, r0, ?_⟩
    dsimp only [SlicePageOpen]
    decide +kernel
  · refine ⟨{w1 with sw := {w1.sw with gap := some ⟨0,1,.d1⟩}}, .a, 5, 0, r0, ?_⟩
    dsimp only [SlicePageOpen]
    decide +kernel
  · refine ⟨w1, .a, 5, 3, {}, ?_⟩
    dsimp only [SlicePageOpen]
    decide +kernel
  · refine ⟨w1, .a, 5, 0, 6, r0, ?_⟩
    dsimp only [SlicePageOpen]
    decide +kernel

/-- States and operands that meet the hypotheses of each clause of `Obligations.PortEvents`. -/
theorem meets_PortEvents :
    (∃ (s : State) (x : Port) (who : Party) (ctl : Word) (p : Nat), s.sw.gap = none ∧ p < 8 ∧ GuardedOpen s who ∧ evacuated s x = false ∧
        bitOf ctl 1 = true ∧ (portOf s x).linkUp = true) ∧
    (∃ (s : State) (x : Port) (who : Party) (ctl : Word) (p : Nat), s.sw.gap = none ∧ p < 8 ∧ GuardedOpen s who ∧ bitOf ctl 1 = false ∧
        portMoves s x = true) ∧
    (∃ (s : State) (x : Port) (p speed width : Nat), s.sw.gap = none ∧ p < 8 ∧ (portOf s x).linkUp = false ∧ s.supply.vin = true ∧
        speedOk speed = true ∧ widthOk width = true ∧ (portOf s x).flr = false ∧ evacuated s x = false) := by
  refine ⟨?_, ?_, ?_⟩
  · refine ⟨w1, .a, .portA, 2, 0, ?_⟩
    dsimp only [GuardedOpen, BaseOpen]
    decide +kernel
  · refine ⟨w1, .b, .portA, 0, 2, ?_⟩
    dsimp only [GuardedOpen, BaseOpen]
    decide +kernel
  · refine ⟨{w1 with portB := {}}, .b, 2, 3, 4, ?_⟩
    decide +kernel

/-- States and operands that meet the hypotheses of each clause of `Obligations.FunctionLevelResets`. -/
theorem meets_FunctionLevelResets :
    (∃ (s : State) (x : Port) (p : Nat), (portOf s x).linkUp = true ∧ p < 8 ∧ (portOf s x).flr = false ∧ s.conf.steps = [] ∧ s.conf.refused = [] ∧
        s.kst.marks = [] ∧ s.passes = [] ∧ carriedSlices s x ≠ []) ∧
    (∃ (s : State) (x : Port) (p : Nat), (portOf s x).linkUp = true ∧ p < 8 ∧ (portOf s x).flr = false ∧ s.conf.steps = [] ∧ s.conf.refused = [] ∧
        s.kst.marks = [] ∧ s.rings = []) := by
  refine ⟨?_, ?_⟩
  · refine ⟨w3, .a, 0, ?_⟩
    decide +kernel
  · refine ⟨{w3 with rings := []}, .a, 0, ?_⟩
    decide +kernel

/-- States and operands that meet the hypotheses of each clause of `Obligations.SemaphoreCommands`. -/
theorem meets_SemaphoreCommands :
    (∃ (s : State) (x : Port) (who : Party) (n k : Nat), n < 32 ∧ k ≠ n ∧ arrives s (partyOf x) = true ∧ s.vault.recovery = false ∧
        (semOf s n).holder = some (partyOf x) ∧ arrives s who = true ∧ (semOf s n).holder = some who ∧ (semOf s 0).holder = some (partyOf x)) ∧
    (∃ (s : State) (x : Port) (who : Party) (n k : Nat), n < 32 ∧ k ≠ n ∧ arrives s (partyOf x) = true ∧ s.vault.recovery = false ∧
        (semOf s n).holder ≠ some (partyOf x) ∧ ((semOf s n).holder ≠ none ∨ (n = 0 ∧ s.wardenWaiting = true)) ∧ arrives s who = true ∧
        (semOf s n).holder ≠ some who ∧ (semOf s 0).holder = none) ∧
    (∃ (s : State) (x : Port) (n k : Nat), n < 32 ∧ k ≠ n ∧ arrives s (partyOf x) = true ∧ s.vault.recovery = false ∧ (semOf s n).holder = none ∧
        (¬(n = 0 ∧ s.wardenWaiting = true))) := by
  refine ⟨?_, ?_, ?_⟩
  · refine ⟨guarded, .a, .portA, 0, 1, ?_⟩
    decide +kernel
  · refine ⟨{served with wardenWaiting := true}, .b, .portB, 0, 1, ?_⟩
    decide +kernel
  · refine ⟨guarded, .a, 1, 0, ?_⟩
    decide +kernel


end Slices

/-! ### Requests on their way -/

namespace Requests

def dd (op : Nat) : Bytes := leBytes 2 op ++ zeros 22 ++ (List.replicate 32 0xFF) ++ zeros 72
def a0 : State := { guarded with rings := [(40, r0)] }
def ch3 : Bytes := (dd 1).set 4 0x20
def rf (d : List Bytes) : Ring := { r0 with fetch := some { descs := d } }
def fp (p : Nat) : FetchSlot := { descs := [(dd 0).set 6 p], parsed := true, sg := [[]], blocks := [[]], charge := 16 }
def adm (p : Nat) (sl : Slice) : State := { a0 with rings := [(40, { r0 with fetch := some (fp p) })], slices := [(5, sl)], conf := { owedList := [], openList := [5], visiting := [5] } }
def slA : Slice := { mode := .active, portA := true, portB := true, pasidA := 1, pasidB := 2, rateLevel := 1000*2^20, owedLevel := 0, deficit := 64 }
def c0 (t : Step) (cs : List (Nat × Core)) : State := { a0 with conf := { steps := [(24, t)], ready := [(3,[24])], ctxs := [(3,5)] }, cores := cs }
def tl : Step := { stp .listed with ran := false }
def tx : Step := { stp (.executing 3) with inputDone := false, sg := [⟨0x1000, 5, false⟩, ⟨0x2000, 3, false⟩, ⟨0x3000, 3, true⟩] }
def sx (t : Step) : State := { a0 with conf := { steps := [(24, t)], ctxs := [(3,5)] }, cores := [(3, {exec := some 24})] }
def tt : Step := { tx with desc := (dd 0x0403).take 56 ++ leBytes 8 0x40021 ++ zeros 64, sg := [] }
def hk : Bytes := leBytes 2 0x0507 ++ zeros 22 ++ leBytes 8 (5*2^54+70*2^31+1) ++ (List.replicate 24 0xFF) ++ zeros 72
def kr : KeyRecord := { algorithm := 0x20, usage := 1, mode := 0x42, generation := 1, owner := 5, matLen := 16, material := zeros 16, validUntil := 2^64-1 }
def tb : Step := { stp (.executing 3) with desc := hk, bindWait := some 0 }
def kst1 : State := { sx tb with kst := { isOpen := true, rootId := 1 }, mram0 := { home := [(70, { rootId := 1, sealNo := 1, body := .primary kr })], dirs := [(70, { occupied := true, lastGen := 1 })] } }
def te : Step := { stp (.executing 3) with ending := some stSliceReset, inputDone := true }
def tw : Step := { stp (.executing 3) with seedWait := some 5 }
def tah : Step := { te with ending := some stExecLimit, ahead := true, bound := [{ pos := 0, slot := 70, gen := 1, counted := true }] }
def rok : Result := { status := stOk, cycles := 100 }
def tr : Step := { stp (.executing 3) with result := some rok }
def fullE : Core := { exec := some 24, eddy := [⟨.order, 1⟩,⟨.order, 2⟩,⟨.order, 4⟩,⟨.order, 5⟩] }
def trA : Step := { tr with ahead := true }
def onE (t : Step) : State := { sx t with cores := [(3, { exec := some 24, eddy := [{}, ⟨.ahead, 24⟩, {}, {}] })] }
def th (g : Option Bool) (h : Bool) : Step := { stp (.inEddy 3 1) with result := some rok, ahead := true, guardOk := g, haltFailed := h, index := 1, last := 1 }
def sh (t : Step) (m : EddyMode) : State := { sx t with cores := [(3, { exec := some 25, eddy := [{}, ⟨m, 24⟩, {}, {}] })] }
def ta : Step := { stp (.inEddy 3 1) with result := some rok }
def tc : Step := { stp .committed with result := some rok, seq := some 7, final := stOk }
def ackS (t : Step) (b : MirrorBody) (ap : Bool) : State := { sx t with sw := { guarded.sw with recs := [{ seq := 9, half := 0, sentNt := 0, body := b, applied := ap }] } , cores := [(3, { eddy := [{}, ⟨.order, 24⟩, {}, {}] })]}
def ow : Owed := { seq := 7, bytes := zeros 64, ext := [1,2,3], segs := [⟨0x5000, 3, true⟩], signal := true, step := some 24, entry := 4 }
def rb : Ring := { r0 with owed := [ow], debt := 1, irqEn := true, vector := 7, unsig := 0, cqBase := 0x8000, stsAddr := 0x9000 }
def me : MsixEntry := { addr := 0x1000, data := 9, masked := false }
def sb (r : Ring) : State := { sx tc with rings := [(40, r)], cores := [], portA := { guarded.portA with msix := [(7, me), (msixIx 1 7, me)] } }
def tj : Step := { stp (.executing 3) with desc := dd 0x0601, result := some rok, job := .queued }
def sj (t : Step) (b : Bool) : State := { sx t with conf := { (sx t).conf with bnlReady := if b then [(3,[24])] else [] }, engines := if b then [] else [(0, { job := some 24, used := true })] }
def sy (t : Step) (y : Nat) : State := { sx t with conf := { (sx t).conf with yieldFree := y } }
def tY : Step := { stp .yielded with desc := dd 0x0601, result := some rok, job := .done }

/-- States and operands that meet the hypotheses of each clause of `Obligations.DescriptorFetch`. -/
theorem meets_DescriptorFetch :
    (∃ (s : State) (n p : Nat) (x : Port) (d : Bytes) (ds : List Bytes) (r : Ring), mayFetch s n p = true ∧ ringOf s n p = r ∧
        codePort r.portNow = some x ∧
      let k := headSpan (padTo 128 d)
      r.fetch = none ∧ k ≤ ringDist r.sqHead r.sqTail ∧ ringRoom r k = true ∧ k ≤ (d :: ds).length) ∧
    (∃ (s : State) (n p : Nat) (x : Port) (d : Bytes) (ds : List Bytes) (r : Ring) (f : FetchSlot), mayFetch s n p = true ∧ ringOf s n p = r ∧
        codePort r.portNow = some x ∧ r.fetch = some f ∧
      let m := headSpan (f.descs.headD []) - f.descs.length
      m ≤ (d :: ds).length) ∧
    (∃ (s : State) (n p : Nat) (x : Port) (d : Bytes) (r : Ring), mayFetch s n p = true ∧ ringOf s n p = r ∧ codePort r.portNow = some x ∧
      let k := headSpan (padTo 128 d)
      r.fetch = none ∧ (ringDist r.sqHead r.sqTail < k ∨ ringRoom r k = false)) := by
  refine ⟨?_, ?_, ?_⟩
  · refine ⟨a0, 5, 0, .a, dd 1, [], r0, ?_⟩
    dsimp only
    decide +kernel
  · refine ⟨{a0 with rings := [(40, {r0 with fetch := some { descs := [ch3] }})]}, 5, 0, .a, dd 0, [dd 2],
        {r0 with fetch := some { descs := [ch3] }}, { descs := [ch3] }, ?_⟩
    dsimp only
    decide +kernel
  · refine ⟨{a0 with rings := [(40, {r0 with sqTail := 5})]}, 5, 0, .a, ch3, {r0 with sqTail := 5}, ?_⟩
    dsimp only
    decide +kernel

/-- States and operands that meet the hypotheses of each clause of `Obligations.DescriptorParse`. -/
theorem meets_DescriptorParse :
    (∃ (s : State) (n p : Nat) (reads : List HostRead) (f : FetchSlot) (r : Ring), ringOf s n p = r ∧ r.fetch = some f ∧ f.parsed = false ∧
        restDue f = false ∧ ringFetches s n p = true ∧
      let q := parseHead s n f.descs reads
      q.status ≠ stOk ∧ f.descs.any (fun d => (opRow (dOp d)).isNone) = true) ∧
    (∃ (s : State) (n p : Nat) (reads : List HostRead) (f : FetchSlot) (r : Ring), ringOf s n p = r ∧ r.fetch = some f ∧ f.parsed = false ∧
        restDue f = false ∧ ringFetches s n p = true ∧
      let q := parseHead s n f.descs reads
      q.status = stOk) := by
  refine ⟨?_, ?_⟩
  · refine ⟨{a0 with rings := [(40, rf [dd 0xFFFF])]}, 5, 0, [], { descs := [dd 0xFFFF] }, rf [dd 0xFFFF], ?_⟩
    dsimp only
    decide +kernel
  · refine ⟨{a0 with rings := [(40, rf [dd 0])]}, 5, 0, [], { descs := [dd 0] }, rf [dd 0], ?_⟩
    dsimp only
    decide +kernel

/-- States and operands that meet the hypotheses of each clause of `Obligations.AdmissionDecision`. -/
theorem meets_AdmissionDecision :
    (∃ (s : State) (n p : Nat) (f : FetchSlot), serving s = true ∧ yielding s = false ∧ stopsFetching s = false ∧
        (s.conf.owedList.head? = some n ∨ (s.conf.owedList = [] ∧ s.conf.openList.head? = some n)) ∧ s.conf.visiting.contains n = true ∧
        eligible s n = some p ∧ parsedHead s n p = some f ∧
      let k := f.descs.length
      let x := fitOf s n f
      let sl := sliceOf s n
      admitStatus s n f = stOk ∧ fits x = true ∧ f.charge ≤ sl.deficit ∧ 1 ≤ k) ∧
    (∃ (s : State) (n p : Nat) (f : FetchSlot), serving s = true ∧ yielding s = false ∧ stopsFetching s = false ∧
        (s.conf.owedList.head? = some n ∨ (s.conf.owedList = [] ∧ s.conf.openList.head? = some n)) ∧ s.conf.visiting.contains n = true ∧
        eligible s n = some p ∧ parsedHead s n p = some f ∧ admitStatus s n f ≠ stOk) ∧
    (∃ (s : State) (n p : Nat) (f : FetchSlot), serving s = true ∧ yielding s = false ∧ stopsFetching s = false ∧
        (s.conf.owedList.head? = some n ∨ (s.conf.owedList = [] ∧ s.conf.openList.head? = some n)) ∧ s.conf.visiting.contains n = true ∧
        eligible s n = some p ∧ parsedHead s n p = some f ∧
      let x := fitOf s n f
      admitStatus s n f = stOk ∧ fits x = false) := by
  refine ⟨?_, ?_, ?_⟩
  · refine ⟨adm 7 slA, 5, 0, fp 7, ?_⟩
    dsimp only
    decide +kernel
  · refine ⟨adm 3 slA, 5, 0, fp 3, ?_⟩
    decide +kernel
  · refine ⟨adm 7 {slA with rateLevel := 0}, 5, 0, fp 7, ?_⟩
    dsimp only
    decide +kernel

/-- States and operands that meet the hypotheses of each clause of `Obligations.BucketCredit`. -/
theorem meets_BucketCredit :
    (∃ (s : State), serving s = true ∧ s.conf.creditUs < s.nt.ns / 1000) ∧
    (∃ (s : State), serving s = true ∧ s.nt.ns / 1000 ≤ s.conf.creditUs) := by
  refine ⟨?_, ?_⟩
  · refine ⟨{adm 7 {slA with rateLevel := 5, policy := {minRate := 1000}} with nt := { ns := 5500 }}, ?_⟩
    decide +kernel
  · refine ⟨{adm 7 {slA with policy := {minRate := 1000000}} with nt := { ns := 5500000 }, conf := { creditUs := 5500 }}, ?_⟩
    decide +kernel

/-- States and operands that meet the hypotheses of each clause of `Obligations.CoreHandover`. -/
theorem meets_CoreHandover :
    (∃ (s : State) (k c : Nat) (t : Step), serving s = true ∧ headOfLists s.conf.ready = some k ∧ stepOf s k = some t ∧
        k ∈ listOf s.conf.ready t.level ∧ coreFrom s (coreTakes s (handsAhead t)) = some c) := by
  refine ⟨c0 tl [], 24, 0, tl, ?_⟩
  decide +kernel

/-- States and operands that meet the hypotheses of each clause of `Obligations.InputAndBinding`. -/
theorem meets_InputAndBinding :
    (∃ (s : State) (k c : Nat) (t : Step) (x : Port), stepOf s k = some t ∧ t.phase = .executing c ∧ awaitsInput t = true ∧
      let table := hasTable t.desc && t.trans.isNone
      stepPort s t = some x ∧ table = false) ∧
    (∃ (s : State) (k c : Nat) (t : Step), stepOf s k = some t ∧ t.phase = .executing c ∧ awaitsInput t = true ∧ stepPort s t = none) ∧
    (∃ (s : State) (k c : Nat) (t : Step) (x : Port), stepOf s k = some t ∧ t.phase = .executing c ∧ awaitsInput t = true ∧
      let table := hasTable t.desc && t.trans.isNone
      stepPort s t = some x ∧ table = true) ∧
    (∃ (s : State) (k c p : Nat) (t : Step) (y : Bound) (rec : KeyRecord), stepOf s k = some t ∧ t.phase = .executing c ∧ t.bindWait = some p ∧
        p < 4 ∧ bindAt s t (stepKeys s t) p = some (.bound y rec) ∧ y.gen ≠ 0 ∧ cacheFind s y.slot y.gen = none ∧ isOpening s y.slot y.gen = false ∧
        underRepair s y.slot rec = false ∧ cacheRoom s = true) ∧
    (∃ (s : State) (k c p : Nat) (t : Step) (y : Bound) (rec : KeyRecord), stepOf s k = some t ∧ t.phase = .executing c ∧ t.bindWait = some p ∧
        p < 4 ∧ bindAt s t (stepKeys s t) p = some (.bound y rec) ∧ y.gen ≠ 0 ∧ (cacheFind s y.slot y.gen).isSome = true) ∧
    (∃ (s : State) (k c p : Nat) (t : Step) (y : Bound) (rec : KeyRecord), stepOf s k = some t ∧ t.phase = .executing c ∧ t.bindWait = some p ∧
        p < 4 ∧ bindAt s t (stepKeys s t) p = some (.bound y rec) ∧ y.gen ≠ 0 ∧ cacheFind s y.slot y.gen = none ∧
        (isOpening s y.slot y.gen = true ∨ underRepair s y.slot rec = true ∨ cacheRoom s = false)) := by
  refine ⟨?_, ?_, ?_, ?_, ?_, ?_⟩
  · refine ⟨sx tx, 24, 3, tx, .a, ?_⟩
    dsimp only
    decide +kernel
  · refine ⟨{sx tx with portA := {}, portB := {}}, 24, 3, tx, ?_⟩
    decide +kernel
  · refine ⟨sx tt, 24, 3, tt, .a, ?_⟩
    dsimp only
    decide +kernel
  · refine ⟨kst1, 24, 3, 0, tb, { pos := 0, slot := 70, gen := 1 }, kr, ?_⟩
    decide +kernel
  · refine ⟨{kst1 with kst := { kst1.kst with cache := [⟨70, 1, kr, 0⟩] }}, 24, 3, 0, tb, { pos := 0, slot := 70, gen := 1 }, kr, ?_⟩
    decide +kernel
  · refine ⟨{kst1 with conf := { kst1.conf with sealReady := [.openFrame 70 1 0] }}, 24, 3, 0, tb, { pos := 0, slot := 70, gen := 1 }, kr, ?_⟩
    decide +kernel

/-- States and operands that meet the hypotheses of each clause of `Obligations.StepsEndEarly`. -/
theorem meets_StepsEndEarly :
    (∃ (s : State) (k c w : Nat) (t : Step), stepOf s k = some t ∧ t.phase = .executing c ∧ t.seq = none ∧ t.ending = none ∧ t.seedWait = some w ∧
        serving s = true ∧ (rngOf s (curDie s)).seeds = []) ∧
    (∃ (s : State) (k : Nat) (t : Step) (st : Status), stepOf s k = some t ∧ t.ending = some st ∧ t.seq = none ∧
        (t.ahead = false ∨ notOwn st = true)) ∧
    (∃ (s : State) (k c i : Nat) (t : Step) (st : Status), stepOf s k = some t ∧ t.ending = some st ∧ t.seq = none ∧ t.ahead = true ∧
        notOwn st = false ∧ entryOf s k = some (c, i) ∧ t.guardOk = none) := by
  refine ⟨?_, ?_, ?_⟩
  · refine ⟨sx tw, 24, 3, 5, tw, ?_⟩
    decide +kernel
  · refine ⟨sx te, 24, te, stSliceReset, ?_⟩
    decide +kernel
  · refine ⟨{sx tah with cores := [(3, { exec := some 24, eddy := [{}, ⟨.ahead, 24⟩, {}, {}] })]}, 24, 3, 1, tah, stExecLimit, ?_⟩
    decide +kernel

/-- States and operands that meet the hypotheses of each clause of `Obligations.Readiness`. -/
theorem meets_Readiness :
    (∃ (s : State) (k c i : Nat) (t : Step) (r : Result), stepOf s k = some t ∧ t.phase = .executing c ∧ t.result = some r ∧
        functionDone t r = true ∧ t.ahead = false ∧ freeEntry s c = some i) ∧
    (∃ (s : State) (k c : Nat) (t : Step) (r : Result), stepOf s k = some t ∧ t.phase = .executing c ∧ t.result = some r ∧ functionDone t r = true ∧
        t.ahead = false ∧ freeEntry s c = none) ∧
    (∃ (s : State) (k c c' i : Nat) (t : Step) (r : Result), stepOf s k = some t ∧ t.phase = .executing c ∧ t.result = some r ∧
        functionDone t r = true ∧ t.ahead = true ∧ entryOf s k = some (c', i) ∧ c' = c ∧ t.guardOk ≠ none ∧ confirmStatus s k t r = stOk) ∧
    (∃ (s : State) (k c c' i : Nat) (t : Step) (r : Result), stepOf s k = some t ∧ t.phase = .executing c ∧ t.result = some r ∧
        functionDone t r = true ∧ t.ahead = true ∧ entryOf s k = some (c', i) ∧ c' = c ∧ t.guardOk ≠ none ∧ confirmStatus s k t r ≠ stOk) ∧
    (∃ (s : State) (k c c' i : Nat) (t : Step) (r : Result), stepOf s k = some t ∧ t.phase = .executing c ∧ t.result = some r ∧
        functionDone t r = true ∧ t.ahead = true ∧ entryOf s k = some (c', i) ∧ c' = c ∧ t.guardOk = none) := by
  refine ⟨?_, ?_, ?_, ?_, ?_⟩
  · refine ⟨sx tr, 24, 3, 0, tr, rok, ?_⟩
    decide +kernel
  · refine ⟨{sx tr with cores := [(3, fullE)]}, 24, 3, tr, rok, ?_⟩
    decide +kernel
  · refine ⟨onE { trA with guardOk := some true }, 24, 3, 3, 1, { trA with guardOk := some true }, rok, ?_⟩
    decide +kernel
  · refine ⟨onE { trA with guardOk := some false }, 24, 3, 3, 1, { trA with guardOk := some false }, rok, ?_⟩
    decide +kernel
  · refine ⟨{sx trA with cores := [(3, { exec := some 24, eddy := [{}, ⟨.ahead, 24⟩, {}, {}] })]}, 24, 3, 3, 1, trA, rok, ?_⟩
    decide +kernel

/-- States and operands that meet the hypotheses of each clause of `Obligations.ConfirmAndScrub`. -/
theorem meets_ConfirmAndScrub :
    (∃ (s : State) (k c i : Nat) (t : Step) (r : Result), stepOf s k = some t ∧ t.result = some r ∧ i < (coreOf s c).eddy.length ∧
        entryOf s k = some (c, i) ∧ (coreOf s c).eddy.getD i {} = ⟨.held, k⟩ ∧ t.guardOk ≠ none ∧ confirmStatus s k t r ≠ stOk ∧
        t.guardOk = some false) ∧
    (∃ (s : State) (k c i : Nat) (t : Step) (r : Result), stepOf s k = some t ∧ t.result = some r ∧ i < (coreOf s c).eddy.length ∧
        entryOf s k = some (c, i) ∧ (coreOf s c).eddy.getD i {} = ⟨.held, k⟩ ∧ t.guardOk ≠ none ∧ confirmStatus s k t r = stOk) ∧
    (∃ (s : State) (k c i : Nat) (t : Step) (r : Result), stepOf s k = some t ∧ t.result = some r ∧ i < (coreOf s c).eddy.length ∧
        entryOf s k = some (c, i) ∧ (coreOf s c).eddy.getD i {} = ⟨.held, k⟩ ∧ t.guardOk ≠ none ∧ t.guardOk = some true ∧ t.haltFailed = true) ∧
    (∃ (s : State) (k c i : Nat) (t : Step) (r : Result), stepOf s k = some t ∧ t.result = some r ∧ i < (coreOf s c).eddy.length ∧
        (coreOf s c).eddy.getD i {} = ⟨.scrub, k⟩) := by
  refine ⟨?_, ?_, ?_, ?_⟩
  · refine ⟨sh (th (some false) false) .held, 24, 3, 1, th (some false) false, rok, ?_⟩
    decide +kernel
  · refine ⟨sh (th (some true) false) .held, 24, 3, 1, th (some true) false, rok, ?_⟩
    decide +kernel
  · refine ⟨sh (th (some true) true) .held, 24, 3, 1, th (some true) true, rok, ?_⟩
    decide +kernel
  · refine ⟨sh (th (some true) true) .scrub, 24, 3, 1, th (some true) true, rok, ?_⟩
    decide +kernel

/-- States and operands that meet the hypotheses of each clause of `Obligations.Acknowledgements`. -/
theorem meets_Acknowledgements :
    (∃ (s : State) (n k : Nat) (t : Step) (x : MirrorRec), mirrorRec s n = some x ∧ stepOf s k = some t ∧ x.applied = false) ∧
    (∃ (s : State) (n k : Nat) (ks : List Nat) (t : Step) (x : MirrorRec), mirrorRec s n = some x ∧ stepOf s k = some t ∧ x.applied = true ∧
        x.body = .admission ks ∧ k ∈ ks) ∧
    (∃ (s : State) (n k q : Nat) (t : Step) (r : Result) (x : MirrorRec), mirrorRec s n = some x ∧ stepOf s k = some t ∧ x.applied = true ∧
        x.body = .commit k ∧ t.result = some r ∧ t.seq = some q ∧ t.phase = .committed ∧ t.mark = none ∧
        s.passes.any (fun p => p.step == k) = false) := by
  refine ⟨?_, ?_, ?_⟩
  · refine ⟨ackS ta (.admission [24]) false, 9, 24, ta, { seq := 9, half := 0, sentNt := 0, body := .admission [24], applied := false }, ?_⟩
    decide +kernel
  · refine ⟨ackS ta (.admission [24]) true, 9, 24, [24], ta, { seq := 9, half := 0, sentNt := 0, body := .admission [24], applied := true }, ?_⟩
    decide +kernel
  · refine ⟨ackS tc (.commit 24) true, 9, 24, 7, tc, rok, { seq := 9, half := 0, sentNt := 0, body := .commit 24, applied := true }, ?_⟩
    decide +kernel

/-- States and operands that meet the hypotheses of each clause of `Obligations.CompletionBatch`. -/
theorem meets_CompletionBatch :
    (∃ (s : State) (n p : Nat) (x : Port) (r : Ring), serving s = true ∧ ringOf s n p = r ∧ r.portNow = portCode x ∧ portMoves s x = true ∧
      let b := batchOf s n p
      b ≠ [] ∧ r.enable = true ∧ r.coalTime = 0) ∧
    (∃ (s : State) (n p : Nat) (x : Port) (r : Ring) (e : MsixEntry), serving s = true ∧ ringOf s n p = r ∧ r.portNow = portCode x ∧
        portMoves s x = true ∧
      let b := batchOf s n p
      b = [] ∧ r.irqEn = true ∧ r.coalTime ≠ 0 ∧ 0 < r.unsig ∧ r.vector < 1920 ∧ msixOf s x 1 r.vector = e ∧ e.masked = false) := by
  refine ⟨?_, ?_⟩
  · refine ⟨sb rb, 5, 0, .a, rb, ?_⟩
    dsimp only
    decide +kernel
  · refine ⟨sb {rb with owed := [], unsig := 3, coalTime := 9}, 5, 0, .a, {rb with owed := [], unsig := 3, coalTime := 9}, me, ?_⟩
    dsimp only
    decide +kernel

/-- States and operands that meet the hypotheses of each clause of `Obligations.EngineJobs`. -/
theorem meets_EngineJobs :
    (∃ (s : State) (k i : Nat) (t : Step), stepOf s k = some t ∧ serving s = true ∧ headOfLists s.conf.bnlReady = some k ∧
        engineFor s (ownerOf t) = some i) ∧
    (∃ (s : State) (k i : Nat) (ok : Bool) (t : Step), stepOf s k = some t ∧ (engineOf s i).job = some k ∧ ((ok = true ∧
        checksHold t = true) ∨ checkedOp (dOp t.desc) = false)) ∧
    (∃ (s : State) (k i : Nat) (ok : Bool) (t : Step), stepOf s k = some t ∧ (engineOf s i).job = some k ∧ checkedOp (dOp t.desc) = true ∧
        (ok = false ∨ checksHold t = false) ∧ i < 28 ∧ (2, i) ∉ (dieOf s (curDie s)).failed) := by
  refine ⟨?_, ?_, ?_⟩
  · refine ⟨sj tj true, 24, 0, tj, ?_⟩
    decide +kernel
  · refine ⟨sj {tj with job := .running} false, 24, 0, true, {tj with job := .running}, ?_⟩
    decide +kernel
  · refine ⟨sj {tj with job := .running} false, 24, 0, false, {tj with job := .running}, ?_⟩
    decide +kernel

/-- States and operands that meet the hypotheses of each clause of `Obligations.YieldAndResume`. -/
theorem meets_YieldAndResume :
    (∃ (s : State) (k c : Nat) (t : Step), stepOf s k = some t ∧ t.phase = .executing c ∧ awaitsJob t = true ∧ t.ending = none ∧ t.ahead = false ∧
        s.conf.yieldFree ≠ 0) ∧
    (∃ (s : State) (k c : Nat) (t : Step), stepOf s k = some t ∧ t.phase = .executing c ∧ awaitsJob t = true ∧ t.ending = none ∧ t.ahead = false ∧
        s.conf.yieldFree = 0) ∧
    (∃ (s : State) (k c : Nat) (t : Step), stepOf s k = some t ∧ t.phase = .executing c ∧ awaitsJob t = true ∧ t.ending = none ∧ t.ahead = true) ∧
    (∃ (s : State) (k : Nat) (t : Step), stepOf s k = some t ∧ t.phase = .yielded ∧ awaitsJob t = false ∧ t.ending = none) := by
  refine ⟨?_, ?_, ?_, ?_⟩
  · refine ⟨{sy {tj with job := .running} 5 with sram0 := [(0xA03005, 7), (5, 9)]}, 24, 3, {tj with job := .running}, ?_⟩
    decide +kernel
  · refine ⟨sy {tj with job := .running} 0, 24, 3, {tj with job := .running}, ?_⟩
    decide +kernel
  · refine ⟨sy {tj with job := .running, ahead := true} 5, 24, 3, {tj with job := .running, ahead := true}, ?_⟩
    decide +kernel
  · refine ⟨{sy tY 5 with cores := []}, 24, tY, ?_⟩
    decide +kernel


end Requests

/-! ### Passes and the key store -/

namespace Store

def a0 : State := { guarded with rings := [(40, r0)], portA := { guarded.portA with speed := 5, width := 8 } }
def sx (t : Step) : State := { a0 with conf := { steps := [(24, t)], ctxs := [(3,5)] }, cores := [(3, {exec := some 24})] }
def bd (op : Nat) : Bytes := leBytes 2 op ++ zeros 62 ++ leBytes 4 7 ++ zeros 4 ++ leBytes 8 32 ++ zeros 48
def rok : Result := { status := stOk, cycles := 100 }
def tp : Step := { stp (.executing 3) with desc := bd 0x0414, result := some rok, trans := some [⟨0x1000,32,false⟩,⟨0x2000,32,true⟩] }
def yy : Stream := ⟨5,70,1,1,zeros 16,0,false,77⟩
def bt : BtcPage := ⟨5,0x1000,[],5,true,1⟩
def spa : State := { sx tp with conf := { (sx tp).conf with pipeReady := [(3,[24])] }, streams := [(7,yy),(8,yy)], btc := [bt, {bt with filled := 2500000}], nt := {ns := 2600000} }
def px : Pass := passOf spa 24 1 tp .a
def tq : Step := { tp with phase := .committed, seq := some 9, final := stOk }
def py : Pass := { px with started := true }
def spb : State := { sx tq with passes := [py], pipes := [(1, { running := some 24 })], cores := [] }
def pz : Pass := { py with port := .b }
def kr : KeyRecord := { algorithm := 0x20, usage := 1, mode := 0x42, generation := 1, owner := 5, matLen := 16, material := zeros 16, validUntil := 2^64-1 }
def ms : Mram := { home := [(70, { rootId := 1, sealNo := 1, body := .primary kr })], dirs := [(70, { occupied := true, lastGen := 1 })] }
def k0 : State := { a0 with kst := { isOpen := true, rootId := 1 }, mram0 := ms, mram1 := ms }
def fw : FrameWrite := frameWrite k0 70 .current (.primary {kr with generation := 2}) 2 []
def mk (kd : TxnKind) (ws : List FrameWrite) (h f : Bool) (sq : Nat) : Mark := { kind := kd, sliceNo := 5, slot := 70, clientSeq := 0x1234567, writes := ws, framesHeld := h, flipped := f, seq := sq }
def km (x : Mark) : State := { k0 with kst := { k0.kst with marks := [(0, x), (1, mk .homing [] false false 0)] } }
def m0 : Mark := mk .cutover [fw, fw] false false 0
def jobs (s : State) (j : FrameJob) : State := { s with pipes := [(2, { sealing := some (j, 777) })], conf := { s.conf with sealReady := [.openFrame 70 1 0, .void, .void, .void, .void, .void] } }
def fs : FrameWrite := { fw with frame := { fw.frame with sealNo := 7 } }
def m2 : Mark := mk .cutover [fs] true false 3
def tk (sq : Option Nat) : Step := { stp (.inEddy 3 1) with result := some rok, mark := some 0, seq := sq }
def m3 (q : Nat) : Mark := mk (.step 24) [fs] true false q
def kms (q : Nat) (sq : Option Nat) : State := { km (m3 q) with conf := (sx (tk sq)).conf, cores := [(3, { eddy := [{}, ⟨.order, 24⟩, {}, {}] })] }
def m4 : Mark := mk (.step 24) [fs] true true 9
def lane3 (s : State) : State := { s with lanes := [(3, { loader := some 24 })] }
def dpend : Dir := { occupied := true, lastGen := 2, shadowA := some 9, pend := 2 }
def kr2 : KeyRecord := {kr with generation := 2, activateAt := 500}
def msp : Mram := { home := [(70, { rootId := 1, sealNo := 1, body := .primary kr })], dirs := [(70, dpend)], shadow := [(9, { rootId := 1, sealNo := 2, body := .primary kr2 })] }
def kp : State := { k0 with mram0 := msp, mram1 := msp, kst := { k0.kst with pendings := [(70, 44)] } }
def kre : KeyRecord := { kr with expireAtReset := true, resetEpoch := 3 }
def mse : Mram := { home := [(70, { rootId := 1, sealNo := 1, body := .primary kre })], dirs := [(70, { occupied := true, lastGen := 1 })], expiry := [70] }
def ts : Step := { stp (.inEddy 3 1) with bound := [{ pos := 0, slot := 70, gen := 9 }], result := some rok }
def krr (b : Bool) : State := { kp with kst := { kp.kst with pendings := [], repairing := [(70, b)] } }
def fi : FrameWrite := { fs with frame := { fs.frame with image := zeros 250 } }
def m6 : Mark := mk .cutover [fi] false false 0
/-- A store with one record in shadow frame 9 and `n` more shadow frames in use, of damaged slots. -/
def dirH : Dir := { occupied := true, lastGen := 1, shadowA := some 9, cur := 1 }
def dirD (i : Nat) : Dir := { occupied := true, lastGen := 1, shadowA := some i, cur := 1, damaged := true }
def shadows (n : Nat) : Mram :=
  { dirs := (70, dirH) :: (List.range' 10 n).map (fun i => (90 + i, dirD i)), shadow := [(9, { rootId := 1, sealNo := 2, body := .primary kr })] }
def kh (n : Nat) : State := { k0 with mram0 := shadows n, mram1 := shadows n }

theorem distinct_rising (n a : Nat) (l : List Nat) (h : ∀ x ∈ l, x < a) :
    ((List.range' a n).foldl (fun l x => if l.contains x then l else l ++ [x]) l).length = l.length + n := by
  induction n generalizing a l with
  | zero => rfl
  | succ n ih =>
    have ha : l.contains a = false := by
      rw [List.contains_eq_mem, decide_eq_false_iff_not]; exact fun m => Nat.lt_irrefl a (h a m)
    rw [List.range'_succ, List.foldl_cons, ha]
    refine (ih (a + 1) (l ++ [a]) (fun x hx => ?_)).trans (by rw [List.length_append]; simp; omega)
    cases List.mem_append.mp hx with
    | inl hx => exact Nat.lt_succ_of_lt (h x hx)
    | inr hx => rw [List.mem_singleton.mp hx]; exact Nat.lt_succ_self a

theorem flatten_ones (l : List Nat) : (l.map (fun i => [i])).flatten = l := by
  induction l with
  | nil => rfl
  | cons a l ih => exact congrArg (a :: ·) ih

theorem kh_used (n : Nat) : (shadowUsed (kh n)).length = n + 1 := by
  have h : (((shadows n).dirs.map (fun e => shadowsOf e.2)).flatten ++ ([] : List Nat)) = 9 :: List.range' 10 n := by
    simp only [shadows, List.map_cons, List.map_map, List.append_nil]
    show 9 :: ((List.range' 10 n).map (fun i => [i])).flatten = _
    rw [flatten_ones]
  show (distinct (((shadows n).dirs.map (fun e => shadowsOf e.2)).flatten ++ [])).length = _
  rw [h]
  exact (distinct_rising n 10 [9] (by decide)).trans (Nat.add_comm _ _)

theorem kh_low (n : Nat) (h : 193524 ≤ n) : shadowFree (kh n) < 64508 := by
  have := kh_used n
  unfold shadowFree; omega

theorem kh_oldest (n : Nat) : oldestShadow (kh n) 70 = true := by
  show List.all ((70, dirH) :: (List.range' 10 n).map (fun i => (90 + i, dirD i))) _ = true
  rw [List.all_cons, List.all_map, Bool.and_eq_true]
  refine ⟨by simp, List.all_eq_true.mpr (fun i _ => ?_)⟩
  simp [mayHome, dirD]

/-- States and operands that meet the hypotheses of each clause of `Obligations.DataPasses`. -/
theorem meets_DataPasses :
    (∃ (s : State) (k i q : Nat) (t : Step) (r : Result) (p : Pass), stepOf s k = some t ∧
      let runs := runningPass s i = some p ∧ s.passes.find? (fun z => z.step == k) = some p ∧ t.seq = some q ∧ serving s = true
      runs ∧ t.result = some r ∧ portless s k = false ∧ portMoves s p.port = true ∧ s.passes.find? (fun z => z.step == k) = some p ∧
          p.started = true ∧ t.seq = some q ∧ serving s = true) ∧
    (∃ (s : State) (k i id : Nat) (t : Step) (x : Port) (y : Stream), stepOf s k = some t ∧ serving s = true ∧
        headOfLists s.conf.pipeReady = some k ∧ stepPort s t = some x ∧ pipeTakes s i t.level = true ∧ hasPass s k = false ∧
        portTakes s x (leAt t.desc 72 8) = true ∧ mget s.streams id = some y) ∧
    (∃ (s : State) (k i q : Nat) (t : Step) (p : Pass), stepOf s k = some t ∧
      let runs := runningPass s i = some p ∧ s.passes.find? (fun z => z.step == k) = some p ∧ t.seq = some q ∧ serving s = true
      runs ∧ portless s k = true) ∧
    (∃ (s : State) (k i : Nat) (t : Step) (x : Port), stepOf s k = some t ∧ serving s = true ∧ headOfLists s.conf.pipeReady = some k ∧
        stepPort s t = some x ∧ pipeTakes s i t.level = true ∧ hasPass s k = true) ∧
    (∃ (s : State) (k i : Nat) (t : Step) (x : Port), stepOf s k = some t ∧ serving s = true ∧ headOfLists s.conf.pipeReady = some k ∧
        stepPort s t = some x ∧ pipeTakes s i t.level = true ∧ hasPass s k = false ∧ portTakes s x (leAt t.desc 72 8) = false) ∧
    (∃ (s : State) (k i : Nat) (t : Step) (x : Port) (p : Pass), stepOf s k = some t ∧ runningPass s i = some p ∧ p.step = k ∧
        portMoves s p.port = false ∧ stepPort s t = some x) ∧
    (∃ (s : State) (k : Nat) (t : Step) (p : Pass), stepOf s k = some t ∧ s.passes.find? (fun z => z.step == k) = some p ∧ p.started = false) := by
  refine ⟨?_, ?_, ?_, ?_, ?_, ?_, ?_⟩
  · refine ⟨spb, 24, 1, 9, tq, rok, py, ?_⟩
    dsimp only
    decide +kernel
  · refine ⟨spa, 24, 1, 7, tp, .a, yy, ?_⟩
    decide +kernel
  · refine ⟨{spb with portA := {}, portB := {}}, 24, 1, 9, tq, py, ?_⟩
    dsimp only
    decide +kernel
  · refine ⟨{spa with passes := [{ px with pipe := 2 }]}, 24, 1, tp, .a, ?_⟩
    decide +kernel
  · refine ⟨{spa with passes := [{ px with step := 32, acceptNt := 0 }]}, 24, 1, tp, .a, ?_⟩
    decide +kernel
  · refine ⟨{spb with passes := [pz], portB := {}}, 24, 1, tq, .a, pz, ?_⟩
    decide +kernel
  · refine ⟨{spb with portA := {}, portB := {}, passes := [{ py with started := false }]}, 24, tq, { py with started := false }, ?_⟩
    decide +kernel

/-- States and operands that meet the hypotheses of each clause of `Obligations.KeyTransactions`. -/
theorem meets_KeyTransactions :
    (∃ (s : State) (m j i ix τ : Nat) (y : Mark) (w : FrameWrite) (d : Die) (job : FrameJob), mget s.kst.marks m = some y ∧ j ≠ m ∧
        serving s = true ∧ (pipeOf s i).sealing = some (job, τ) ∧ (pipeOf s i).sealing = some (.sealWrite m ix, τ) ∧ y.writes[ix]? = some w ∧
        activeDie s = some d ∧ mayFlip s m y = false) ∧
    (∃ (s : State) (m j q : Nat) (y : Mark) (d : Die), mget s.kst.marks m = some y ∧ j ≠ m ∧ mayFlip s m y = true ∧ activeDie s = some d ∧
        y.withdraws = false ∧ y.seq = q + 1 ∧ (y.kind = .cutover ∨ y.kind = .resetErase ∨ y.kind = .homing ∨ y.kind = .roster)) ∧
    (∃ (s : State) (m k j q : Nat) (y : Mark) (t : Step) (r : Result) (d : Die), mget s.kst.marks m = some y ∧ j ≠ m ∧ mayFlip s m y = true ∧
        activeDie s = some d ∧ y.withdraws = false ∧ y.kind = .step k ∧ stepOf s k = some t ∧ t.mark = some m ∧ t.result = some r ∧ r.effects = [] ∧
        s.passes.any (fun p => p.step == k) = false ∧ s.conf.steps.all (fun e => e.1 == k || e.2.mark == none) = true ∧
        t.seq = (if y.seq = 0 then none else some q) ∧ (y.seq = 0 → q = s.conf.commitSeq + 1)) ∧
    (∃ (s : State) (m j : Nat) (y : Mark) (d : Die), mget s.kst.marks m = some y ∧ j ≠ m ∧ serving s = true ∧ y.flipped = true ∧
        activeDie s = some d) ∧
    (∃ (s : State) (m j : Nat) (y : Mark), mget s.kst.marks m = some y ∧ j ≠ m ∧ serving s = true ∧ y.framesHeld = false ∧
        y.writes.any unsealed = false ∧ frameSent s m = false) := by
  refine ⟨?_, ?_, ?_, ?_, ?_⟩
  · refine ⟨jobs (km m0) (.sealWrite 0 0), 0, 1, 2, 0, 777, m0, fw, .d0, .sealWrite 0 0, ?_⟩
    decide +kernel
  · refine ⟨km m2, 0, 1, 2, m2, .d0, ?_⟩
    decide +kernel
  · refine ⟨kms 9 (some 9), 0, 24, 1, 9, m3 9, tk (some 9), rok, .d0, ?_⟩
    decide +kernel
  · refine ⟨km m4, 0, 1, m4, .d0, ?_⟩
    decide +kernel
  · refine ⟨km m6, 0, 1, m6, ?_⟩
    decide +kernel

/-- States and operands that meet the hypotheses of each clause of `Obligations.KeyStoreUpkeep`. -/
theorem meets_KeyStoreUpkeep :
    (∃ (s : State) (slot m gen c : Nat) (pend : Bool) (r p : KeyRecord) (d : Die), serving s = true ∧ s.kst.isOpen = true ∧ activeDie s = some d ∧
      let free := fun ws : List FrameWrite => ws ≠ [] ∧ ws.any (fun w => markOn s w.slot) = false ∧ framesFound ws = true ∧ freeMark s = some m
      let cut := cutWrites s slot r p []
      markOn s slot = false ∧ slotView s slot = .held r ∧ pendingView s slot = some p ∧ mget s.kst.pendings slot = some c ∧ s.nt.trust ≠ .untrusted ∧
          free cut ∧ (gen = curGen s slot ∨ keyHeld s slot gen = true) ∧ mayRepair s slot pend = true) ∧
    (∃ (s : State) (slot gen : Nat) (d : Die), serving s = true ∧ s.kst.isOpen = true ∧ activeDie s = some d ∧ inWithdrawal s slot = true ∧
        slotHeld s slot = false ∧ gen ≠ curGen s slot ∧ keyHeld s slot gen = false) ∧
    (∃ (s : State) (slot : Nat) (pend : Bool) (d : Die), serving s = true ∧ s.kst.isOpen = true ∧ activeDie s = some d ∧
        s.kst.repairing.find? (fun z => z.1 == slot) = some (slot, pend) ∧ duplex s = true ∧
        (recordFrame (mramOf s (otherDie d)) slot pend).intact = true ∧ recordFrame (mramOf s d) slot pend ≠ {}) ∧
    (∃ (s : State) (slot m : Nat) (r : KeyRecord) (d : Die), serving s = true ∧ s.kst.isOpen = true ∧ activeDie s = some d ∧
      let free := fun ws : List FrameWrite => ws ≠ [] ∧ ws.any (fun w => markOn s w.slot) = false ∧ framesFound ws = true ∧ freeMark s = some m
      let tombs := tombWrites s slot (lastGenOf s slot) (1 + r.extCount) []
      markOn s slot = false ∧ slotView s slot = .held r ∧ (mramOf s d).expiry.contains slot = true ∧ r.expireAtReset = true ∧
          r.resetEpoch ≠ s.vault.resetEpoch ∧ free tombs) ∧
    (∃ (s : State) (slot : Nat) (d : Die), serving s = true ∧ s.kst.isOpen = true ∧ activeDie s = some d ∧ slotHeld s slot = true) ∧
    (∃ (s : State) (slot c : Nat) (r p : KeyRecord) (d : Die), serving s = true ∧ s.kst.isOpen = true ∧ activeDie s = some d ∧
        markOn s slot = false ∧ slotView s slot = .held r ∧ pendingView s slot = some p ∧ mget s.kst.pendings slot = some c ∧
        s.nt.trust = .untrusted) ∧
    (∃ (s : State) (slot m gen : Nat) (d : Die), serving s = true ∧ s.kst.isOpen = true ∧ activeDie s = some d ∧
      let free := fun ws : List FrameWrite => ws ≠ [] ∧ ws.any (fun w => markOn s w.slot) = false ∧ framesFound ws = true ∧ freeMark s = some m
      let home := [frameWrite s slot .current (recordFrame (mramOf s d) slot false).body (slotDir (mramOf s d) slot).lastGen []]
      shadowFree s < 64508 ∧ mayHome s (slotDir (mramOf s d) slot) slot = true ∧ (recordFrame (mramOf s d) slot false).rootId = s.kst.rootId ∧
      oldestShadow s slot = true ∧ free home ∧ (gen = curGen s slot ∨ keyHeld s slot gen = true)) := by
  refine ⟨?_, ?_, ?_, ?_, ?_, ?_, ?_⟩
  · refine ⟨{kp with nt := {trust := .locked}}, 70, 0, 1, 44, true, kr, kr2, .d0, ?_⟩
    dsimp only
    decide +kernel
  · refine ⟨lane3 {k0 with kst := { k0.kst with withdrawal := [(70,5)], cache := [⟨70,9,kr,0⟩,⟨80,1,kr,0⟩] }, conf := { steps := [(24, { ts with phase := .ended })] }}, 70, 9, .d0, ?_⟩
    decide +kernel
  · refine ⟨krr false, 70, false, .d0, ?_⟩
    decide +kernel
  · refine ⟨{k0 with mram0 := mse, mram1 := mse}, 70, 0, kre, .d0, ?_⟩
    dsimp only
    decide +kernel
  · refine ⟨{k0 with kst := { k0.kst with withdrawal := [(70,5)], cache := [⟨70,1,kr,0⟩,⟨80,1,kr,0⟩] }, conf := (sx { stp (.executing 3) with bound := [{ pos := 0, slot := 70, gen := 1 }] }).conf}, 70, .d0, ?_⟩
    decide +kernel
  · refine ⟨kp, 70, 44, kr, kr2, .d0, ?_⟩
    decide +kernel
  · exact ⟨kh 200000, 70, 0, 1, .d0, by decide +kernel, by decide +kernel, by decide +kernel, kh_low _ (by decide), by decide +kernel,
    by decide +kernel, kh_oldest _, by dsimp only; decide +kernel, by decide +kernel⟩


end Store

/-! ### Opcodes and ceremonies -/

namespace Opcodes

def a0 : State := { guarded with rings := [(40, r0)], rng0 := { seeds := [zeros 48] } }
def kr : KeyRecord := { algorithm := 0x20, usage := 1, mode := 0x42, generation := 1, owner := 5, matLen := 16, material := zeros 16, validUntil := 2^64-1 }
def sx (t : Step) : State := { a0 with conf := { steps := [(24, t), (32, stp .parked)], ctxs := [(3,5)] }, cores := [(3, {exec := some 24})], kst := { isOpen := true, rootId := 1, cache := [⟨70,1,kr,0⟩] } }
def op (o : Nat) : Step := { stp (.executing 3) with desc := leBytes 2 o ++ zeros 22 ++ leBytes 8 (5*2^54+70*2^31+1) ++ (List.replicate 24 0xFF) ++ leBytes 1 16 ++ zeros 71, bound := [{ pos := 0, slot := 70, gen := 1, counted := true }], input := zeros 32 }
def dry (s : State) : State := { s with rng0 := {} }
def tc : Step := { op 0x0803 with desc := leBytes 2 0x0803 ++ zeros 22 ++ (List.replicate 32 0xFF) ++ zeros 8 ++ leBytes 4 1 ++ zeros 60 }
def cs (c : Ceremony) : State := { sx tc with cer := [(1, c)] }
def tc0 : Step := { tc with sliceNo := 0 }
def c0 : Ceremony := { cer 0x01 .quorate with domain := 0 }
def cs0 : State := { cs c0 with conf := { steps := [(24, tc0)], ctxs := [(3,0)] } }
def ws : State := { cs0 with cer := [(1, {c0 with mode := .applying})], sems := [(0,{holder := some .warden})] }
def rok : Result := { status := stOk, cycles := 100 }
def te : Step := { stp (.inEddy 3 1) with result := some rok, admAcked := true }
def se : State := { sx te with cores := [(3, { eddy := [{}, ⟨.commit, 24⟩, {}, {}] })] }
def krv : KeyRecord := { kr with algorithm := 0x50, cls := 2, material := zeros 64, matLen := 64 }
def opv : Step := { op 0x0602 with desc := ((op 0x0602).desc.set 64 3) }
def sv : State := { sx opv with kst := { (sx opv).kst with cache := [⟨70,1,krv,0⟩] } }
def opb : Step := { op 0x0411 with desc := ((op 0x0411).desc.set 64 1) }
def opx (o : Nat) (l : List (Nat × Byte)) : Step := { op o with desc := l.foldl (fun d x => d.set x.1 x.2) (op o).desc, pinGrants := 255 }
def sd (t : Step) (rec : KeyRecord) : State :=
  let s := dry (sx t)
  { s with kst := { s.kst with cache := [⟨70,1,rec,0⟩] }, slices := [(5, { sliceOf s 5 with policy := { exportGrant := true } })] }
def c2 (c : Char) : Byte := BitVec.ofNat 8 c.toNat
def tplx (a : Byte) (u v m : Char) : List (Nat × Byte) := [(64, a), (66, c2 u), (67, c2 v), (68, c2 m), (69, 0x4E)]
def d1 : Step := opx 0x0101 [(64,4),(65,4)]
def d4 : Step := opx 0x0104 [(112,1),(67,4)]
def dd : Step := opx 0x0301 [(65,2),(66,4),(67,4)]
def kec : KeyRecord := { kr with algorithm := 0x50, cls := 1, exportab := 0x45 }
def ds : Step := opx 0x0601 [(64,3)]
def dp : Step := opx 0x0604 []
def krsa : KeyRecord := { kr with algorithm := 0x40, cls := 2, exportab := 0x45 }
def dk : Step := opx 0x0605 (tplx 0x50 'S' '0' 'S' ++ [(24, 71), (113, c2 'V')])
def dm : Step := { opx 0x0607 (tplx 0x20 'D' '0' 'B') with desc := ((opx 0x0607 (tplx 0x20 'D' '0' 'B')).desc.take 24) ++ leBytes 8 (5*2^54+71*2^31) ++ leBytes 8 (5*2^54+70*2^31+1) ++ (opx 0x0607 (tplx 0x20 'D' '0' 'B')).desc.drop 40, bound := [{ pos := 1, slot := 70, gen := 1, counted := true }] }
def kkem : KeyRecord := { kr with algorithm := 0x61, cls := 2, material := zeros 1184 }
def dh : Step := opx 0x0613 []
def kex : KeyRecord := { kr with exportab := 0x45 }
def fresh (t : Step) : Step := { t with desc := (t.desc.take 24) ++ leBytes 8 (5*2^54+71*2^31) ++ t.desc.drop 32, bound := [] }
def dg : Step := fresh (opx 0x0501 (tplx 0x20 'D' '0' 'B'))
def db : Step := { opx 0x0503 [] with bound := [{ pos := 0, slot := 70, gen := 1, counted := true },{ pos := 1, slot := 70, gen := 1, counted := true }] }
def dw : Step := opx 0x0504 (tplx 0x20 'D' '0' 'B' ++ [(112,1)])
def kdw : KeyRecord := { kr with usage := usage2 "D0", exportab := 0x4E }
def dco : Step := { op 0x0801 with desc := ((op 0x0801).desc.take 64) ++ leBytes 2 6 ++ [0x20] ++ zeros 61, block := zeros 200 }
def dbk : State := let s := dry (cs (cer 0x03 .applying)); { s with vault := { s.vault with rosterCopy := { m := 2, entries := [] } } }
/-- The draws of a slice whose instance has just been seeded can be served. -/
def seeded (o : Nat) : State := { sx (op o) with drbg := [(5, ⟨zeros 32, zeros 16, 0, guarded.nt.ns⟩)] }

theorem seeded_wet (o : Nat) (h : instanceOf (op o) = 5) : Laws.Wet 0 (rndOf (seeded o) (instanceOf (op o))) := by
  rw [h]
  exact Laws.rndOf_wet (i := ⟨zeros 32, zeros 16, 0, guarded.nt.ns⟩) rfl (Nat.le_refl 0) (Nat.lt_add_of_pos_right (by decide))

/-- A verification of the same message against another code. -/
def mv : Step := { op 0x0312 with desc := (op 0x0312).desc.set 80 1 }
def mvEnd (t : Step) : State := nextOf (exec (.macVerify 24) (sx t)) (sx t)
def mvResult (t : Step) : Result := ((stepOf (mvEnd t) 24).bind (·.result)).getD { status := stOk }

/-- States and operands that meet the hypotheses of each clause of `Obligations.PaymentRequests`. -/
theorem meets_PaymentRequests :
    (∃ (s : State) (k : Nat) (t : Step), stepOf s k = some t ∧ mayRun t 0 = true ∧ mayRun t 0x0000 = true) ∧
    (∃ (s : State) (k : Nat) (t : Step), stepOf s k = some t ∧ mayRun t 0x0101 = true ∧
        (opPinTranslate s t (fnInOf s t) (rndOf s (instanceOf t))).2.dry = false) ∧
    (∃ (s : State) (k : Nat) (t : Step), stepOf s k = some t ∧ mayRun t 0x0104 = true ∧
        (opPinGenerate s t (fnInOf s t) (rndOf s (instanceOf t))).2.dry = false) ∧
    (∃ (s : State) (k : Nat) (t : Step), stepOf s k = some t ∧ mayRun t 0x0101 = true ∧
        (opPinTranslate s t (fnInOf s t) (rndOf s (instanceOf t))).2.dry = true) ∧
    (∃ (s : State) (k : Nat) (t : Step), stepOf s k = some t ∧ mayRun t 0x0104 = true ∧
        (opPinGenerate s t (fnInOf s t) (rndOf s (instanceOf t))).2.dry = true) ∧
    (∃ (s : State) (k : Nat) (t : Step), stepOf s k = some t ∧ mayRun t 0x0301 = true ∧
        (opDukptPinTranslate s t (fnInOf s t) (rndOf s (instanceOf t))).2.dry = true) ∧
    (∃ (s : State) (k : Nat) (t : Step), stepOf s k = some t ∧ mayRun t 0x0301 = true ∧
        (opDukptPinTranslate s t (fnInOf s t) (rndOf s (instanceOf t))).2.dry = false) ∧
    (∃ (s : State) (k : Nat) (t : Step), stepOf s k = some t ∧ mayRun t 0x0304 = true ∧
        (opDukptInitialKey s t (fnInOf s t) (rndOf s (instanceOf t))).2.dry = false) ∧
    (∃ (s : State) (k : Nat) (t : Step), stepOf s k = some t ∧ mayRun t 0x0304 = true ∧
        (opDukptInitialKey s t (fnInOf s t) (rndOf s (instanceOf t))).2.dry = true) ∧
    (∀ o ∈ [0x0102, 0x0103, 0x0105, 0x0106, 0x0107, 0x0108, 0x0201, 0x0202, 0x0203, 0x0204, 0x0205, 0x0211, 0x0212, 0x0213, 0x0214, 0x0302, 0x0303,
        0x0311, 0x0312, 0x0313, 0x0314], stepOf (sx (op o)) 24 = some (op o) ∧ mayRun (op o) o = true) := by
  refine ⟨?_, ?_, ?_, ?_, ?_, ?_, ?_, ?_, ?_, ?_⟩
  · refine ⟨sx (op 0x0000), 24, op 0x0000, ?_⟩
    decide +kernel
  · refine ⟨sx (op 0x0101), 24, op 0x0101, ?_⟩
    decide +kernel
  · refine ⟨sx (op 0x0104), 24, op 0x0104, ?_⟩
    decide +kernel
  · refine ⟨sd d1 kr, 24, d1, ?_⟩
    decide +kernel
  · refine ⟨sd d4 kr, 24, d4, ?_⟩
    decide +kernel
  · refine ⟨sd dd kr, 24, dd, ?_⟩
    decide +kernel
  · refine ⟨sx (op 0x0301), 24, op 0x0301, ?_⟩
    decide +kernel
  · refine ⟨sx (op 0x0304), 24, op 0x0304, ?_⟩
    decide +kernel
  · refine ⟨dry (sx (op 0x0304)), 24, op 0x0304, ?_⟩
    decide +kernel
  · decide +kernel

/-- States and operands that meet the hypotheses of each clause of `Obligations.TokenBulkAndKeyRequests`. -/
theorem meets_TokenBulkAndKeyRequests :
    (∃ (s : State) (k v slot gen : Nat) (t : Step) (b : Bound), stepOf s k = some t ∧ mayRun t 0x0411 = true ∧ boundAt t 0 = some b ∧
        ((fnBulkOpen s t (fnInOf s t) (rndOf s t.sliceNo)).1.keys = [.nonce slot gen (v + 1)])) ∧
    (∃ (s : State) (k : Nat) (t : Step), stepOf s k = some t ∧ mayRun t 0x0501 = true ∧
        (opKeyGenerate s t (fnInOf s t) (rndOf s (instanceOf t))).2.dry = true) ∧
    (∃ (s : State) (k : Nat) (t : Step), stepOf s k = some t ∧ mayRun t 0x0503 = true ∧
        (opKeyExportBlock s t (fnInOf s t) (rndOf s (instanceOf t))).2.dry = true) ∧
    (∃ (s : State) (k : Nat) (t : Step), stepOf s k = some t ∧ mayRun t 0x0504 = true ∧
        (opKeyRewrite s t (fnInOf s t) (rndOf s (instanceOf t))).2.dry = true) ∧
    (∃ (s : State) (k : Nat) (t : Step), stepOf s k = some t ∧ mayRun t 0x0501 = true ∧
        (opKeyGenerate s t (fnInOf s t) (rndOf s (instanceOf t))).2.dry = false) ∧
    (∃ (s : State) (k : Nat) (t : Step), stepOf s k = some t ∧ mayRun t 0x0503 = true ∧
        (opKeyExportBlock s t (fnInOf s t) (rndOf s (instanceOf t))).2.dry = false) ∧
    (∃ (s : State) (k : Nat) (t : Step), stepOf s k = some t ∧ mayRun t 0x0504 = true ∧
        (opKeyRewrite s t (fnInOf s t) (rndOf s (instanceOf t))).2.dry = false) ∧
    (∀ o ∈ [0x0401, 0x0402, 0x0412, 0x0413, 0x0414, 0x0502, 0x0505, 0x0506, 0x0507, 0x0508, 0x0509, 0x050A], stepOf (sx (op o)) 24 = some (op o) ∧
        mayRun (op o) o = true) := by
  refine ⟨?_, ?_, ?_, ?_, ?_, ?_, ?_, ?_⟩
  · refine ⟨sx opb, 24, 0, 70, 1, opb, { pos := 0, slot := 70, gen := 1, counted := true }, ?_⟩
    decide +kernel
  · refine ⟨sd dg kr, 24, dg, ?_⟩
    decide +kernel
  · refine ⟨sd db kex, 24, db, ?_⟩
    decide +kernel
  · refine ⟨sd dw kdw, 24, dw, ?_⟩
    decide +kernel
  · refine ⟨sx (op 0x0501), 24, op 0x0501, ?_⟩
    decide +kernel
  · refine ⟨sx (op 0x0503), 24, op 0x0503, ?_⟩
    decide +kernel
  · refine ⟨sx (op 0x0504), 24, op 0x0504, ?_⟩
    decide +kernel
  · decide +kernel

/-- States and operands that meet the hypotheses of each clause of `Obligations.PublicKeyDigestAndRandomRequests`. -/
theorem meets_PublicKeyDigestAndRandomRequests :
    (∃ (s : State) (k : Nat) (t : Step), stepOf s k = some t ∧ mayRun t 0x0602 = true ∧
        usesBnl 0x0602 (LaneResult (fnInOf s t) (fnPkVerify (fnInOf s t))).status = true) ∧
    (∃ (s : State) (k : Nat) (t : Step), stepOf s k = some t ∧ mayRun t 0x0601 = true ∧
        (opPkSign s t (fnInOf s t) (rndOf s (instanceOf t))).2.dry = true) ∧
    (∃ (s : State) (k : Nat) (t : Step), stepOf s k = some t ∧ mayRun t 0x0604 = true ∧
        (opPkEncrypt s t (fnInOf s t) (rndOf s (instanceOf t))).2.dry = true) ∧
    (∃ (s : State) (k : Nat) (t : Step), stepOf s k = some t ∧ mayRun t 0x0605 = true ∧
        (opKeyPairGenerate s t (fnInOf s t) (rndOf s (instanceOf t))).2.dry = true) ∧
    (∃ (s : State) (k : Nat) (t : Step), stepOf s k = some t ∧ mayRun t 0x0607 = true ∧
        (opKemEncaps s t (fnInOf s t) (rndOf s (instanceOf t))).2.dry = true) ∧
    (∃ (s : State) (k : Nat) (t : Step), stepOf s k = some t ∧ mayRun t 0x0613 = true ∧
        (opTransportHybridSeal s t (fnInOf s t) (rndOf s (instanceOf t))).2.dry = true) ∧
    (∃ (s : State) (k : Nat) (t : Step), stepOf s k = some t ∧ mayRun t 0x0601 = true ∧
        (opPkSign s t (fnInOf s t) (rndOf s (instanceOf t))).2.dry = false) ∧
    (∃ (s : State) (k : Nat) (t : Step), stepOf s k = some t ∧ mayRun t 0x0604 = true ∧
        (opPkEncrypt s t (fnInOf s t) (rndOf s (instanceOf t))).2.dry = false) ∧
    (∃ (s : State) (k : Nat) (t : Step), stepOf s k = some t ∧ mayRun t 0x0605 = true ∧
        (opKeyPairGenerate s t (fnInOf s t) (rndOf s (instanceOf t))).2.dry = false) ∧
    (∃ (s : State) (k : Nat) (t : Step), stepOf s k = some t ∧ mayRun t 0x0607 = true ∧
        (opKemEncaps s t (fnInOf s t) (rndOf s (instanceOf t))).2.dry = false) ∧
    (∃ (s : State) (k : Nat) (t : Step), stepOf s k = some t ∧ mayRun t 0x0612 = true ∧
        (opTr34Export s t (fnInOf s t) (rndOf s (instanceOf t))).2.dry = false) ∧
    (∃ (s : State) (k : Nat) (t : Step), stepOf s k = some t ∧ mayRun t 0x0613 = true ∧
        (opTransportHybridSeal s t (fnInOf s t) (rndOf s (instanceOf t))).2.dry = false) ∧
    (∃ (s : State) (k : Nat) (t : Step), stepOf s k = some t ∧ mayRun t 0x0621 = true ∧
        (opAttestKey s t (fnInOf s t) (rndOf s (instanceOf t))).2.dry = true) ∧
    (∃ (s : State) (k : Nat) (t : Step), stepOf s k = some t ∧ mayRun t 0x0622 = true ∧
        (opAttestModule s t (fnInOf s t) (rndOf s (instanceOf t))).2.dry = true) ∧
    (∃ (s : State) (k : Nat) (t : Step), stepOf s k = some t ∧ mayRun t 0x0702 = true ∧
        (opRandomGet s t (fnInOf s t) (rndOf s (instanceOf t))).2.dry = false) ∧
    (∃ (s : State) (k : Nat) (t : Step), stepOf s k = some t ∧ mayRun t 0x0702 = true ∧
        (opRandomGet s t (fnInOf s t) (rndOf s (instanceOf t))).2.dry = true) ∧
    (∀ o ∈ [0x0603, 0x0606, 0x0608, 0x0611, 0x0614, 0x0701, 0x0703, 0x0704, 0x0710], stepOf (sx (op o)) 24 = some (op o) ∧ mayRun (op o) o = true) ∧
    (∃ (s : State) (k : Nat) (t : Step), stepOf s k = some t ∧ mayRun t 0x0621 = true ∧
        (opAttestKey s t (fnInOf s t) (rndOf s (instanceOf t))).2.dry = false) ∧
    (∃ (s : State) (k : Nat) (t : Step), stepOf s k = some t ∧ mayRun t 0x0622 = true ∧
        (opAttestModule s t (fnInOf s t) (rndOf s (instanceOf t))).2.dry = false) := by
  refine ⟨?_, ?_, ?_, ?_, ?_, ?_, ?_, ?_, ?_, ?_, ?_, ?_, ?_, ?_, ?_, ?_, ?_, ?_, ?_⟩
  · refine ⟨sv, 24, opv, ?_⟩
    decide +kernel
  · refine ⟨sd ds kec, 24, ds, ?_⟩
    decide +kernel
  · refine ⟨sd dp krsa, 24, dp, ?_⟩
    decide +kernel
  · refine ⟨sd (fresh dk) kr, 24, fresh dk, ?_⟩
    decide +kernel
  · refine ⟨sd dm kkem, 24, dm, ?_⟩
    decide +kernel
  · refine ⟨sd dh kex, 24, dh, ?_⟩
    decide +kernel
  · refine ⟨sx (op 0x0601), 24, op 0x0601, ?_⟩
    decide +kernel
  · refine ⟨sx (op 0x0604), 24, op 0x0604, ?_⟩
    decide +kernel
  · refine ⟨sx (op 0x0605), 24, op 0x0605, ?_⟩
    decide +kernel
  · refine ⟨sx (op 0x0607), 24, op 0x0607, ?_⟩
    decide +kernel
  · refine ⟨sx (op 0x0612), 24, op 0x0612, ?_⟩
    decide +kernel
  · refine ⟨sx (op 0x0613), 24, op 0x0613, ?_⟩
    decide +kernel
  · refine ⟨dry (sx (op 0x0621)), 24, op 0x0621, ?_⟩
    decide +kernel
  · refine ⟨dry (sx (op 0x0622)), 24, op 0x0622, ?_⟩
    decide +kernel
  · refine ⟨sx (op 0x0702), 24, op 0x0702, ?_⟩
    decide +kernel
  · refine ⟨dry (sx (op 0x0702)), 24, op 0x0702, ?_⟩
    decide +kernel
  · decide +kernel
  · exact ⟨seeded 0x0621, 24, op 0x0621, by decide +kernel, by decide +kernel, Laws.opAttestKey_wet _ _ _ (seeded_wet 0x0621 (by decide +kernel))⟩
  · exact ⟨seeded 0x0622, 24, op 0x0622, by decide +kernel, by decide +kernel, Laws.opAttestModule_wet _ _ _ (seeded_wet 0x0622 (by decide +kernel))⟩

/-- States and operands that meet the hypotheses of each clause of `Obligations.CeremonyRequests`. -/
theorem meets_CeremonyRequests :
    (∃ (s : State) (k : Nat) (t : Step), stepOf s k = some t ∧ mayRun t 0x0801 = true ∧
        (fnCeremonyOpen s t (fnInOf s t) (rndOf s (instanceOf t))).2.dry = true) ∧
    (∃ (s : State) (k : Nat) (t : Step), stepOf s k = some t ∧ mayRun t 0x0801 = true ∧
        (fnCeremonyOpen s t (fnInOf s t) (rndOf s (instanceOf t))).2.dry = false) ∧
    (∃ (s : State) (k : Nat) (t : Step) (c : Ceremony), stepOf s k = some t ∧
      let id := leAt t.desc 64 4
      mayRun t 0x0803 = true ∧ cerOf s t.sliceNo id = some c ∧ cerFor s t = .ok c ∧ c.mode = .quorate) ∧
    (∃ (s : State) (k : Nat) (t : Step) (c : Ceremony), stepOf s k = some t ∧ mayRun t 0x0803 = true ∧ cerFor s t = .ok c ∧ c.mode ≠ .quorate ∧
        c.mode ≠ .applying) ∧
    (∃ (s : State) (k : Nat) (t : Step) (st : Status), stepOf s k = some t ∧
      let id := leAt t.desc 64 4
      mayRun t 0x0803 = true ∧ cerFor s t = .error st ∧ (cerOf s t.sliceNo id).map (·.mode) ≠ some .applying) ∧
    (∀ o ∈ [0x0901, 0x0902, 0x0802, 0x0804, 0x0805, 0x0806], stepOf (sx (op o)) 24 = some (op o) ∧ mayRun (op o) o = true) := by
  refine ⟨?_, ?_, ?_, ?_, ?_, ?_⟩
  · refine ⟨dry (sx dco), 24, dco, ?_⟩
    decide +kernel
  · refine ⟨sx (op 0x0801), 24, op 0x0801, ?_⟩
    decide +kernel
  · exact ⟨cs (cer 0x13 .quorate), 24, tc, cer 0x13 .quorate, by decide +kernel, by decide +kernel, by decide +kernel, okIs (by decide +kernel),
        by decide +kernel⟩
  · exact ⟨cs (cer 0x13 .opened), 24, tc, cer 0x13 .opened, by decide +kernel, by decide +kernel, okIs (by decide +kernel), by decide +kernel,
        by decide +kernel⟩
  · exact ⟨{cs (cer 0x13 .opened) with cer := []}, 24, tc, (match cerFor {cs (cer 0x13 .opened) with cer := []} tc with | .error e => e | _ => 0),
        by decide +kernel, by decide +kernel, errorIs (by decide +kernel), by decide +kernel⟩
  · decide +kernel

/-- States and operands that meet the hypotheses of each clause of `Obligations.CeremonyActions`. -/
theorem meets_CeremonyActions :
    (∃ (s : State) (k : Nat) (t : Step) (c : Ceremony), stepOf s k = some t ∧ mayRun t 0x0803 = true ∧
        cerOf s t.sliceNo (leAt t.desc 64 4) = some c ∧ c.mode = .applying ∧ c.toWrite = [] ∧ (c.domain = 0 → wardenHas s = true) ∧ c.action ≠ 0x01 ∧
        c.action = 0x03 ∧ (closeBackup s t (leAt t.desc 64 4) c (rndOf s 1024)).2.dry = true) ∧
    (∃ (s : State) (k : Nat) (t : Step) (c : Ceremony), stepOf s k = some t ∧ mayRun t 0x0803 = true ∧
        cerOf s t.sliceNo (leAt t.desc 64 4) = some c ∧ c.mode = .applying ∧ c.toWrite = [] ∧ (c.domain = 0 → wardenHas s = true) ∧ c.action = 0x01 ∧
        (closeTakeOwnership s t (leAt t.desc 64 4) c (rndOf s 1024)).2.dry = false) ∧
    (∃ (s : State) (k : Nat) (t : Step) (c : Ceremony), stepOf s k = some t ∧ mayRun t 0x0803 = true ∧
        cerOf s t.sliceNo (leAt t.desc 64 4) = some c ∧ c.mode = .applying ∧ c.toWrite = [] ∧ (c.domain = 0 → wardenHas s = true) ∧ c.action = 0x02) ∧
    (∃ (s : State) (k : Nat) (t : Step) (c : Ceremony), stepOf s k = some t ∧ mayRun t 0x0803 = true ∧
        cerOf s t.sliceNo (leAt t.desc 64 4) = some c ∧ c.mode = .applying ∧ c.toWrite = [] ∧ (c.domain = 0 → wardenHas s = true) ∧ c.action = 0x03 ∧
        (closeBackup s t (leAt t.desc 64 4) c (rndOf s 1024)).2.dry = false) ∧
    (∃ (s : State) (k : Nat) (t : Step) (c : Ceremony), stepOf s k = some t ∧ mayRun t 0x0803 = true ∧
        cerOf s t.sliceNo (leAt t.desc 64 4) = some c ∧ c.mode = .applying ∧ c.toWrite = [] ∧ (c.domain = 0 → wardenHas s = true) ∧ c.action = 0x04) ∧
    (∃ (s : State) (k : Nat) (t : Step) (c : Ceremony), stepOf s k = some t ∧ mayRun t 0x0803 = true ∧
        cerOf s t.sliceNo (leAt t.desc 64 4) = some c ∧ c.mode = .applying ∧ c.toWrite = [] ∧ (c.domain = 0 → wardenHas s = true) ∧ c.action = 0x10) ∧
    (∃ (s : State) (k : Nat) (t : Step) (c : Ceremony), stepOf s k = some t ∧ mayRun t 0x0803 = true ∧
        cerOf s t.sliceNo (leAt t.desc 64 4) = some c ∧ c.mode = .applying ∧ c.toWrite = [] ∧ (c.domain = 0 → wardenHas s = true) ∧ c.action = 0x11) ∧
    (∃ (s : State) (k : Nat) (t : Step) (c : Ceremony), stepOf s k = some t ∧ mayRun t 0x0803 = true ∧
        cerOf s t.sliceNo (leAt t.desc 64 4) = some c ∧ c.mode = .applying ∧ c.toWrite = [] ∧ (c.domain = 0 → wardenHas s = true) ∧ c.action = 0x12) ∧
    (∃ (s : State) (k : Nat) (t : Step) (c : Ceremony), stepOf s k = some t ∧ mayRun t 0x0803 = true ∧
        cerOf s t.sliceNo (leAt t.desc 64 4) = some c ∧ c.mode = .applying ∧ c.toWrite = [] ∧ (c.domain = 0 → wardenHas s = true) ∧ c.action = 0x13) ∧
    (∃ (s : State) (k : Nat) (t : Step) (c : Ceremony), stepOf s k = some t ∧ mayRun t 0x0803 = true ∧
        cerOf s t.sliceNo (leAt t.desc 64 4) = some c ∧ c.mode = .applying ∧ c.toWrite = [] ∧ (c.domain = 0 → wardenHas s = true) ∧ c.action = 0x20) ∧
    (∃ (s : State) (k : Nat) (t : Step) (c : Ceremony), stepOf s k = some t ∧ mayRun t 0x0803 = true ∧
        cerOf s t.sliceNo (leAt t.desc 64 4) = some c ∧ c.mode = .applying ∧ c.toWrite = [] ∧ (c.domain = 0 → wardenHas s = true) ∧ c.action = 0x21) ∧
    (∃ (s : State) (k : Nat) (t : Step) (c : Ceremony), stepOf s k = some t ∧ mayRun t 0x0803 = true ∧
        cerOf s t.sliceNo (leAt t.desc 64 4) = some c ∧ c.mode = .applying ∧ c.toWrite = [] ∧ (c.domain = 0 → wardenHas s = true) ∧ c.action = 0x30) ∧
    (∃ (s : State) (k : Nat) (t : Step) (c : Ceremony), stepOf s k = some t ∧ mayRun t 0x0803 = true ∧
        cerOf s t.sliceNo (leAt t.desc 64 4) = some c ∧ c.mode = .applying ∧ c.toWrite = [] ∧ (c.domain = 0 → wardenHas s = true) ∧ c.action = 0x31) ∧
    (∃ (s : State) (k : Nat) (t : Step) (c : Ceremony), stepOf s k = some t ∧ mayRun t 0x0803 = true ∧
        cerOf s t.sliceNo (leAt t.desc 64 4) = some c ∧ c.mode = .applying ∧ c.toWrite = [] ∧ (c.domain = 0 → wardenHas s = true) ∧ c.action = 0x32) ∧
    (∃ (s : State) (k : Nat) (t : Step) (c : Ceremony), stepOf s k = some t ∧ mayRun t 0x0803 = true ∧
        cerOf s t.sliceNo (leAt t.desc 64 4) = some c ∧ c.mode = .applying ∧ c.toWrite = [] ∧ (c.domain = 0 → wardenHas s = true) ∧ c.action = 0x40) ∧
    (∃ (s : State) (k : Nat) (t : Step) (c : Ceremony), stepOf s k = some t ∧ mayRun t 0x0803 = true ∧
        cerOf s t.sliceNo (leAt t.desc 64 4) = some c ∧ c.mode = .applying ∧ c.toWrite = [] ∧ (c.domain = 0 → wardenHas s = true) ∧ c.action = 0x01 ∧
        (closeTakeOwnership s t (leAt t.desc 64 4) c (rndOf s 1024)).2.dry = true) := by
  refine ⟨?_, ?_, ?_, ?_, ?_, ?_, ?_, ?_, ?_, ?_, ?_, ?_, ?_, ?_, ?_, ?_⟩
  · refine ⟨dbk, 24, tc, cer 0x03 .applying, ?_⟩
    decide +kernel
  · refine ⟨cs (cer 0x01 .applying), 24, tc, cer 0x01 .applying, ?_⟩
    decide +kernel
  · refine ⟨cs (cer 0x02 .applying), 24, tc, cer 0x02 .applying, ?_⟩
    decide +kernel
  · refine ⟨cs (cer 0x03 .applying), 24, tc, cer 0x03 .applying, ?_⟩
    decide +kernel
  · refine ⟨cs (cer 0x04 .applying), 24, tc, cer 0x04 .applying, ?_⟩
    decide +kernel
  · refine ⟨cs (cer 0x10 .applying), 24, tc, cer 0x10 .applying, ?_⟩
    decide +kernel
  · refine ⟨cs (cer 0x11 .applying), 24, tc, cer 0x11 .applying, ?_⟩
    decide +kernel
  · refine ⟨cs (cer 0x12 .applying), 24, tc, cer 0x12 .applying, ?_⟩
    decide +kernel
  · refine ⟨cs (cer 0x13 .applying), 24, tc, cer 0x13 .applying, ?_⟩
    decide +kernel
  · refine ⟨cs (cer 0x20 .applying), 24, tc, cer 0x20 .applying, ?_⟩
    decide +kernel
  · refine ⟨cs (cer 0x21 .applying), 24, tc, cer 0x21 .applying, ?_⟩
    decide +kernel
  · refine ⟨cs (cer 0x30 .applying), 24, tc, cer 0x30 .applying, ?_⟩
    decide +kernel
  · refine ⟨cs (cer 0x31 .applying), 24, tc, cer 0x31 .applying, ?_⟩
    decide +kernel
  · refine ⟨cs (cer 0x32 .applying), 24, tc, cer 0x32 .applying, ?_⟩
    decide +kernel
  · refine ⟨cs (cer 0x40 .applying), 24, tc, cer 0x40 .applying, ?_⟩
    decide +kernel
  · refine ⟨dry {ws with life := { ws.life with state := .shipped }}, 24, tc0, {c0 with mode := .applying}, ?_⟩
    decide +kernel

/-- States and operands that meet the hypotheses of each clause of `Obligations.CommitRecords`. -/
theorem meets_CommitRecords :
    (∃ (s : State) (k j : Nat) (t : Step) (r : Result), stepOf s k = some t ∧ t.result = some r ∧ maySend s t = true ∧ duplex s = true ∧ j ≠ k ∧
        t.mark = none) ∧
    (∃ (s : State) (k j : Nat) (t : Step) (r : Result), stepOf s k = some t ∧ t.result = some r ∧ maySend s t = true ∧ duplex s = false ∧
        r.effects = [] ∧ s.passes.any (fun p => p.step == k) = false ∧ j ≠ k) := by
  refine ⟨?_, ?_⟩
  · refine ⟨se, 24, 32, te, rok, ?_⟩
    decide +kernel
  · refine ⟨{se with die1 := {}, sw := { se.sw with half0Up := false, half1Up := false }}, 24, 32, te, rok, ?_⟩
    decide +kernel


/-- Two verifications of one message, against different codes (`Obligations.VerifyTiming`). -/
theorem meets_VerifyTiming :
    ∃ (o j k : Nat) (c : Nat → Instr) (s1 s2 : State) (t1 t2 : Step) (u1 u2 : State) (r1 r2 : Result),
      (o, c) ∈ ([(0x0102, .pinVerifyOffset), (0x0103, .pinVerifyValue), (0x0201, .arqcVerify), (0x0203, .arqcVerifyArpc), (0x0212, .cvcVerify),
        (0x0214, .dcvcVerify), (0x0302, .dukptMacVerify), (0x0312, .macVerify), (0x0314, .hmacVerify)] : List (Nat × (Nat → Instr))) ∧
      stepOf s1 k = some t1 ∧ stepOf s2 k = some t2 ∧ mayRun t1 o = true ∧ mayRun t2 o = true ∧
      stepKeys s1 t1 = stepKeys s2 t2 ∧ t1.input.length = t2.input.length ∧ cut t1.desc 0 80 = cut t2.desc 0 80 ∧
          seedCycles s1 t1 = seedCycles s2 t2 ∧
      exec (c k) s1 = .next u1 ∧ exec (c k) s2 = .next u2 ∧
      (stepOf u1 k).bind (·.result) = some r1 ∧ (stepOf u2 k).bind (·.result) = some r2 ∧ j < 32 ∧ j ≠ 4 ∧ j ≠ 5 ∧ j ≠ 7 :=
  ⟨0x0312, 0, 24, .macVerify, sx (op 0x0312), sx mv, op 0x0312, mv, mvEnd (op 0x0312), mvEnd mv, mvResult (op 0x0312), mvResult mv,
    by simp, by decide +kernel, by decide +kernel, by decide +kernel, by decide +kernel, by decide +kernel, by decide +kernel,
    by decide +kernel, by decide +kernel, nextIs _ (by decide +kernel), nextIs _ (by decide +kernel), by decide +kernel, by decide +kernel,
        by decide, by decide,
    by decide, by decide⟩

end Opcodes

/-! ### Cards -/

namespace Cards

def a0 : State := { guarded with rings := [(40, r0)], rng0 := { seeds := [zeros 48] } }
def cd (pres : Bool) (c : Ceremony) (k : CardPort) : State := { a0 with cer := [(7, c)], card0 := { k with present := pres }, card1 := { k with present := pres } }
def rr : CardResult := ⟨7, 1, [], [], [], 5⟩
def pG : Bytes := [0x04] ++ beBytes 48 0x39f1357e5f6473108d3a24eb007defc9b124669b09da910ea40fee3276eb1fe44bcbfe38c8347b0e4dbfe20b30f63733 ++ beBytes 48 0xf840a43cea018c8efb3ce17aff20c09ab085458d4f38a0ab56320e4739a92c67bda4e7a9e6f46476096b3b612c207ee3
def cSh : Ceremony := { cer 3 .applying with nonce := 2 :: zeros 15, keyPriv := beBytes 48 3, toWrite := [(0, zeros 32), (1, zeros 32)] }
def shp : CardPort := { present := true, session := 1, op := 3, ceremony := 7 }
def sgn : Bytes := let e := beBytes 48 0x0858f022826f4a427c90c36fe17d3fdc35d79c8fd7edb9409b83a72e9244f67e3a4d7529229be4a6801beb4f12455a828; e ++ e
def ros : Roster := { m := 2, entries := [⟨true, false, cardFpOf pG, []⟩] }
def sSh : State := { cd true cSh shp with vault := { ownerRoot := some [], rosterCopy := ros } }
def wSh : Bytes := (wrapKey cSh.keyPriv pG (cardFpOf pG) 7 2).getD []
def cTo : Ceremony := { cSh with action := 1 }
def cTn : Ceremony := { cSh with toWrite := [] }

/-- States and operands that meet the hypotheses of each clause of `Obligations.CardSessions`. -/
theorem meets_CardSessions :
    (∃ (s : State) (who : Party) (p id : Nat) (c : Ceremony) (r : CardResult), p < 2 ∧
      let k := cardOf s p
      GuardedOpen s who ∧ id < 2 ^ 32 ∧ k.session ≠ 1 ∧ k.present = true ∧ (mget s.cer id).all (fun x => !opFits x 1) = true ∧
          (mget s.cer id).all (fun x => !opFits x 2) = true ∧ mget s.cer id = some c ∧ opFits c 3 = true ∧
          (mget s.cer id).all (fun x => !opFits x 4) = true ∧ k.result = some r ∧ (c.mode ≠ .applying ∨ c.toWrite ≠ [])) ∧
    (∃ (s : State) (who : Party) (p id : Nat) (c : Ceremony), p < 2 ∧
      let k := cardOf s p
      GuardedOpen s who ∧ id < 2 ^ 32 ∧ k.session ≠ 1 ∧ k.present = false ∧ mget s.cer id = some c ∧ c.mode = .applying ∧ c.toWrite = []) ∧
    (∃ (s : State) (who : Party) (p id : Nat) (c : Ceremony), p < 2 ∧
      let k := cardOf s p
      GuardedOpen s who ∧ id < 2 ^ 32 ∧ k.session ≠ 1 ∧ k.present = true ∧ mget s.cer id = some c ∧ opFits c 1 = true ∧ opFits c 2 = true ∧
          (mget s.cer id).all (fun x => !opFits x 3) = true) ∧
    (∃ (s : State) (p cause ix : Nat) (point sig share w : List Byte) (c : Ceremony), p < 2 ∧
      let k := cardOf s p
      k.session = 1 ∧ 2 ≤ cause ∧ cause ≤ 4 ∧ k.op = 3 ∧ mget s.cer k.ceremony = some c ∧ shareHolder s c point = some (ix, share) ∧
          cardSigned 3 k.ceremony c point sig = true ∧ wrapKey c.keyPriv point (cardFpOf point) k.ceremony 2 = some w ∧
          (c.toWrite.filter (fun e => e.1 != ix)).isEmpty = false) ∧
    (∃ (s : State) (who : Party) (p id : Nat) (c : Ceremony), p < 2 ∧
      let k := cardOf s p
      GuardedOpen s who ∧ id < 2 ^ 32 ∧ k.session ≠ 1 ∧ k.present = true ∧ mget s.cer id = some c ∧ opFits c 4 = true) ∧
    (∃ (s : State) (p : Nat), p < 2 ∧
      let k := cardOf s p
      k.session = 1 ∧ k.op ≠ 3) := by
  refine ⟨?_, ?_, ?_, ?_, ?_, ?_⟩
  · refine ⟨cd true cTo {session := 0, op := 4, ceremony := 7, result := some rr}, .portA, 1, 7, cTo, rr, ?_⟩
    dsimp only [GuardedOpen, BaseOpen]
    decide +kernel
  · refine ⟨cd false cTn {session := 0, op := 4, ceremony := 7, result := some rr}, .portA, 0, 7, cTn, ?_⟩
    dsimp only [GuardedOpen, BaseOpen]
    decide +kernel
  · refine ⟨cd true (cer 0x20 .quorate) {}, .portA, 1, 7, cer 0x20 .quorate, ?_⟩
    dsimp only [GuardedOpen, BaseOpen]
    decide +kernel
  · refine ⟨sSh, 0, 4, 0, pG, sgn, zeros 32, wSh, cSh, ?_⟩
    dsimp only
    decide +kernel
  · refine ⟨cd true (cer 2 .quorate) {}, .portA, 0, 7, cer 2 .quorate, ?_⟩
    dsimp only [GuardedOpen, BaseOpen]
    decide +kernel
  · refine ⟨cd true (cer 1 .opened) {session := 1, op := 1, ceremony := 7}, 1, ?_⟩
    dsimp only
    decide +kernel


end Cards

/-! ### The mirror link and the arbiter -/

namespace Mirror

def a0 : State := { guarded with rings := [(40, r0)], rng0 := { seeds := [zeros 48] } }
def kr : KeyRecord := { algorithm := 0x20, usage := 1, mode := 0x42, generation := 1, owner := 5, matLen := 16, material := zeros 16, validUntil := 2^64-1 }
def ms : Mram := { home := [(70, { rootId := 1, sealNo := 1, body := .primary kr })], dirs := [(70, { occupied := true, lastGen := 1 })] }
def k0 : State := { a0 with kst := { isOpen := true, rootId := 1 }, mram0 := ms, mram1 := ms }
def fw : FrameWrite := frameWrite k0 70 .current (.primary {kr with generation := 2}) 2 []
def mk (kd : TxnKind) (ws : List FrameWrite) (h f : Bool) (sq : Nat) : Mark := { kind := kd, sliceNo := 5, slot := 70, clientSeq := 0x1234567, writes := ws, framesHeld := h, flipped := f, seq := sq }
def rec_ (n : Nat) (b : MirrorBody) : MirrorRec := ⟨n, 0, 100, b, true, false⟩
def rs (b : MirrorBody) : State := { k0 with sw := { k0.sw with recs := [{ rec_ 3 (.admission [9]) with applied := true }, rec_ 4 b, rec_ 5 (.commitOwn 8)] } }
def rok : Result := { status := stOk, cycles := 100 }
def y0 := mk .cutover [fw] false false 0
def t0 : Step := { stp (.inEddy 3 1) with result := some rok, seq := some 9 }
def lt (s : State) : State := { s with kst := { s.kst with marks := [(0, y0)] }, conf := { s.conf with steps := [(24, t0)] }, cores := [(3, { eddy := [{}, ⟨.order, 24⟩, {}, {}] })], rings := [(40, { r0 with uncovered := [⟨5, [], [], [], false, none, 0, false⟩, ⟨6, [], [], [], false, none, 0, false⟩] })] }
def jb : Bytes := zeros 24 ++ leBytes 8 8388609 ++ zeros 32
def dn : MirrorRec := { rec_ 4 (.frame 0) with arrived := false }
def ap : MirrorRec := { rec_ 4 (.admission [24]) with applied := true }
def aq : MirrorRec := { rec_ 4 (.commitOwn 5) with applied := true }
def ca : MirrorRec := rec_ 4 (.catchup 5)
def tm (l : List (Nat × SlotTimer)) : State := { lt (rs (.admission [24])) with sw := { (lt (rs (.admission [24]))).sw with timers := l } }
def gg : Gap := ⟨5, 1, .d0⟩
def sl : SlotTimer := { missP := 4, missQ := 4, countP := some 3, countQ := some 3, silent := true, silentNt := 50 }
def fatal (s : State) : State := { s with die0 := { s.die0 with declaredFatal := some 2 } }
def ng (s : State) : State := nextOf (exec (.dieFatalDeclared .d0) (fatal s)) s
def gp := (ng (tm [])).sw.gap.getD gg
def hd (s : State) : State := { s with sw := { s.sw with hold := true, holdCause := 3 } }
def sx1 (s : State) : State := { s with die1 := {} }
def cdt (w : Bool) : State := let z := lt {k0 with die1 := {inService := true, joining := true}, mram1 := {}, sw := { k0.sw with recs := []}}; { z with sw := { z.sw with creditWithdrawn := w } }

/-- States and operands that meet the hypotheses of each clause of `Obligations.MirrorRecords`. -/
theorem meets_MirrorRecords :
    (∃ (s : State) (d : Die) (h : Nat) (r : MirrorRec) (b : List Byte),
      let next := duplex s = true ∧ s.sw.gap = none ∧ mirrorNext s = some r ∧ r.arrived = true
      next ∧ standbyDie s = some d ∧ isAdmit r.body = false ∧ isFrame r.body = false ∧ isCommit r.body = false ∧ isDelivered r.body = false ∧
          r.body = .journal b ∧ h < 2 ∧ halfUp s h = true ∧ halfUp s (1 - h) = true) ∧
    (∃ (s : State) (d : Die) (n h : Nat) (r : MirrorRec), mirrorRec s n = some r ∧ r.arrived = false ∧ r.applied = false ∧ halfUp s r.half = false ∧
        halfUp s (1 - r.half) = true ∧ h < 2 ∧ halfUp s h = true ∧ halfUp s (1 - h) = false ∧ activeDie s = some d ∧ s.sw.gap = none ∧
        s.conf.steps = [] ∧ s.conf.refused = [] ∧ s.kst.marks = []) ∧
    (∃ (s : State) (d : Die), activeDie s = some d ∧ joiningDie s = some (otherDie d) ∧ s.sw.gap = none ∧ catchupSent s = false ∧
        s.sw.creditWithdrawn = false) ∧
    (∃ (s : State) (d : Die) (r : MirrorRec),
      let next := duplex s = true ∧ s.sw.gap = none ∧ mirrorNext s = some r ∧ r.arrived = true
      next ∧ standbyDie s = some d ∧ isAdmit r.body = true) ∧
    (∃ (s : State) (d : Die) (r : MirrorRec) (y : Mark) (m : Nat),
      let next := duplex s = true ∧ s.sw.gap = none ∧ mirrorNext s = some r ∧ r.arrived = true
      next ∧ standbyDie s = some d ∧ r.body = .frame m ∧ mget s.kst.marks m = some y) ∧
    (∃ (s : State) (d : Die) (q : Nat) (r : MirrorRec) (t : Step) (res : Result) (k : Nat),
      let next := duplex s = true ∧ s.sw.gap = none ∧ mirrorNext s = some r ∧ r.arrived = true
      next ∧ standbyDie s = some d ∧ r.body = .commit k ∧ stepOf s k = some t ∧ t.mark = none ∧ t.result = some res ∧ res.effects = [] ∧
          t.seq = some q) ∧
    (∃ (s : State) (d : Die) (q : Nat) (r : MirrorRec),
      let next := duplex s = true ∧ s.sw.gap = none ∧ mirrorNext s = some r ∧ r.arrived = true
      next ∧ standbyDie s = some d ∧ r.body = .commitOwn q) ∧
    (∃ (s : State) (d : Die) (q ring idx : Nat) (r : MirrorRec),
      let next := duplex s = true ∧ s.sw.gap = none ∧ mirrorNext s = some r ∧ r.arrived = true
      next ∧ standbyDie s = some d ∧ r.body = .delivered ring idx q) ∧
    (∃ (s : State) (n : Nat) (r : MirrorRec), mirrorRec s n = some r ∧ r.applied = true ∧ isAdmit r.body = true) ∧
    (∃ (s : State) (n q : Nat) (r : MirrorRec), mirrorRec s n = some r ∧ r.applied = true ∧ r.body = .commitOwn q) ∧
    (∃ (s : State) (d : Die) (q : Nat) (r : MirrorRec), activeDie s = some d ∧ joiningDie s = some (otherDie d) ∧
        (dieOf s (otherDie d)).inService = true ∧ mirrorNext s = some r ∧ r.arrived = true ∧ r.body = .catchup q) ∧
    (∃ (s : State) (d : Die), activeDie s = some d ∧ joiningDie s = some (otherDie d) ∧ s.sw.gap = none ∧ catchupSent s = false ∧
        s.sw.creditWithdrawn = true) := by
  refine ⟨?_, ?_, ?_, ?_, ?_, ?_, ?_, ?_, ?_, ?_, ?_, ?_⟩
  · refine ⟨lt (rs (.journal jb)), .d1, 1, rec_ 4 (.journal jb), jb, ?_⟩
    dsimp only
    decide +kernel
  · refine ⟨{k0 with sw := { k0.sw with half0Up := false, recs := [dn, rec_ 5 (.commitOwn 8)]}}, .d0, 4, 1, dn, ?_⟩
    decide +kernel
  · refine ⟨lt {k0 with die1 := {inService := true, joining := true}, mram1 := {}, sw := { k0.sw with recs := []}}, .d0, ?_⟩
    decide +kernel
  · refine ⟨lt (rs (.admission [24])), .d1, rec_ 4 (.admission [24]), ?_⟩
    dsimp only
    decide +kernel
  · refine ⟨lt (rs (.frame 0)), .d1, rec_ 4 (.frame 0), y0, 0, ?_⟩
    dsimp only
    decide +kernel
  · refine ⟨lt (rs (.commit 24)), .d1, 9, rec_ 4 (.commit 24), t0, rok, 24, ?_⟩
    dsimp only
    decide +kernel
  · refine ⟨lt (rs (.commitOwn 9)), .d1, 9, rec_ 4 (.commitOwn 9), ?_⟩
    dsimp only
    decide +kernel
  · refine ⟨lt (rs (.delivered 40 0 5)), .d1, 5, 40, 0, rec_ 4 (.delivered 40 0 5), ?_⟩
    dsimp only
    decide +kernel
  · refine ⟨lt {k0 with sw := { k0.sw with recs := [ap, rec_ 5 (.commitOwn 8)]}}, 4, ap, ?_⟩
    decide +kernel
  · refine ⟨lt {k0 with sw := { k0.sw with recs := [aq, rec_ 5 (.commitOwn 8)]}}, 4, 5, aq, ?_⟩
    decide +kernel
  · refine ⟨lt {k0 with die1 := {inService := true, joining := true}, mram1 := {}, sw := { k0.sw with recs := [ca]}}, .d0, 5, ca, ?_⟩
    decide +kernel
  · refine ⟨cdt true, .d0, ?_⟩
    decide +kernel

/-- States and operands that meet the hypotheses of each clause of `Obligations.HeartbeatsAndDeclarations`. -/
theorem meets_HeartbeatsAndDeclarations :
    (∃ (s : State) (d x : Die) (half count state : Nat) (pathQ : Bool), half < 2 ∧
      let t := timerOf s half x
      beats s x half = true ∧ (dieOf s x).stopped = false ∧ follows (if pathQ then t.countQ else t.countP) (if pathQ then t.missQ else t.missP) count = true ∧ state ≠ 1 ∧ activeDie s = some d ∧ duplex s = true ∧ s.sw.gap = none ∧ (dieOf s d).declaredFatal = some count ∧ count ≠ 8 ∧ dieSilent s d = false ∧ dieSilent s (otherDie d) = false) ∧
    (∃ (s : State) (x : Die) (half count : Nat), half < 2 ∧
      let t := timerOf s half x
      t.countP = some count) ∧
    (∃ (s : State) (d : Die) (half : Nat), half < 2 ∧ activeDie s = some d ∧ duplex s = true ∧ s.sw.gap = none ∧ dieSilent s d = true ∧
        bothSilent s d = true ∧ s.sw.hold = false) ∧
    (∃ (s : State) (d : Die) (half : Nat), half < 2 ∧ activeDie s = some d ∧ duplex s = true ∧ s.sw.gap = none ∧ dieSilent s d = true ∧
        bothSilent s d = true ∧ s.sw.hold = true) ∧
    (∃ (s : State) (d : Die) (half : Nat), half < 2 ∧ activeDie s = some d ∧ duplex s = true ∧ s.sw.gap = none ∧ dieSilent s d = true ∧
        bothSilent s d = false ∧ s.sw.hold = false) ∧
    (∃ (s : State) (half cycles : Nat) (g : Gap), half < 2 ∧ s.sw.gap = some g ∧ 8000 < cycles) ∧
    (∃ (s : State) (d : Die) (half cycles : Nat) (g : Gap), half < 2 ∧ s.sw.gap = some g ∧ activeDie s = some d ∧ cycles ≤ 8000) := by
  refine ⟨?_, ?_, ?_, ?_, ?_, ?_, ?_⟩
  · refine ⟨fatal (tm []), .d0, .d0, 0, 2, 0, false, ?_⟩
    dsimp only
    decide +kernel
  · refine ⟨tm [(0, { missP := 3, missQ := 0, countP := some 3, countQ := some 15})], .d0, 0, 3, ?_⟩
    dsimp only
    decide +kernel
  · refine ⟨tm [(0, sl), (2, sl)], .d0, 0, ?_⟩
    decide +kernel
  · refine ⟨{tm [(0, sl), (2, sl)] with sw := {(tm [(0, sl), (2, sl)]).sw with hold := true}}, .d0, 0, ?_⟩
    decide +kernel
  · refine ⟨tm [(0, sl), (2, {sl with silent := false})], .d0, 0, ?_⟩
    decide +kernel
  · refine ⟨ng (tm []), 0, 8001, gp, ?_⟩
    decide +kernel
  · refine ⟨ng (tm []), .d1, 0, 8000, gp, ?_⟩
    decide +kernel

/-- States and operands that meet the hypotheses of each clause of `Obligations.SwitchCommands`. -/
theorem meets_SwitchCommands :
    (∃ (s : State) (who : Party) (d : Die),
      let ok := duplex s = true ∧ s.sw.hold = false ∧ s.sw.gap = none
      activeDie s = some d ∧ GuardedOpen s who ∧ (¬ok) ∧ (s.sw.hold = false ∨ duplex s = false ∨ s.sw.gap ≠ none) ∧
          (dieOf s (otherDie d)).inService = false ∧ s.sw.planned = false ∧ s.supply.vin = true ∧ mayStartDie s (otherDie d) = true) ∧
    (∃ (s : State) (who : Party) (d : Die), activeDie s = some d ∧ GuardedOpen s who ∧ (dieOf s (otherDie d)).inService = true ∧
        s.sw.planned = true ∧ s.sw.gap = none ∧ duplex s = true ∧ journalDrained s = true) ∧
    (∃ (s : State) (who : Party) (d : Die),
      let ok := duplex s = true ∧ s.sw.hold = false ∧ s.sw.gap = none
      activeDie s = some d ∧ GuardedOpen s who ∧ ok ∧ s.sw.planned = false) ∧
    (∃ (s : State) (who : Party) (d : Die), activeDie s = some d ∧ GuardedOpen s who ∧ s.sw.hold = true ∧ duplex s = true ∧ s.sw.gap = none) := by
  refine ⟨?_, ?_, ?_, ?_⟩
  · refine ⟨sx1 (tm []), .portA, .d0, ?_⟩
    dsimp only [GuardedOpen, BaseOpen]
    decide +kernel
  · refine ⟨{ k0 with sw := { k0.sw with planned := true, plannedNt := 77 } }, .portA, .d0, ?_⟩
    dsimp only [GuardedOpen, BaseOpen]
    decide +kernel
  · refine ⟨tm [], .portA, .d0, ?_⟩
    dsimp only [GuardedOpen, BaseOpen]
    decide +kernel
  · refine ⟨hd (tm []), .portA, .d0, ?_⟩
    dsimp only [GuardedOpen, BaseOpen]
    decide +kernel


end Mirror

/-! ### Network time and the Levee -/

namespace Time

def a0 : State := { guarded with rings := [(40, r0)], rng0 := { seeds := [zeros 48] } }
def n0 : NtUnit := { ns := 100000000000, refOk := true }
def nt (n : NtUnit) : State := { a0 with nt := n, sems := [(0, {holder := some .portA, leaseEnd := 101000000000})] }
def A : Nat := 100500000000
def la (l : Nat) : Label := ⟨l, 100100000000⟩
def nn (l : Nat) (g : Nat) : NtUnit := { n0 with armed := some (la l), goodRun := g, lastEdge := some 99500000000 }
def dp : DetPair := { aNow := true, aloneNt := some 40 }
def lv (l : Levee) : State := { a0 with lev := l }

/-- States and operands that meet the hypotheses of each clause of `Obligations.NetworkTime`. -/
theorem meets_NetworkTime :
    (∃ (s : State) (who : Party) (ctl : Word), s.supply.alwaysOn = true ∧ s.nt.refOk = true ∧ GuardedOpen s who ∧ bitOf ctl 1 = true ∧
        s.nt.trust = .holdover ∧ s.nt.ns % 1000000000 ≠ 0) ∧
    (∃ (s : State) (at_ t : Nat), s.supply.alwaysOn = true ∧
      let now := max s.nt.ns at_
      s.nt.lastEdge = some t ∧ now < t + 500000000 ∧ t ≤ now ∧ s.nt.trust = .locked) ∧
    (∃ (s : State) (at_ : Nat) (l : Label), s.supply.alwaysOn = true ∧
      let now := max s.nt.ns at_
      let e : Int := (now : Int) - l.label
      let late := s.nt.lastEdge.all (fun x => decide (x + 500000000 ≤ now)) = true
      let hosted := late ∧ s.nt.trust = .untrusted ∧ s.nt.armed = some l ∧ l.at_ + 10000000 ≤ now
      hosted ∧ e.natAbs ≤ 1000000 ∧ s.nt.trust = .untrusted) ∧
    (∃ (s : State) (at_ : Nat) (l : Label), s.supply.alwaysOn = true ∧
      let now := max s.nt.ns at_
      let e : Int := (now : Int) - l.label
      let late := s.nt.lastEdge.all (fun x => decide (x + 500000000 ≤ now)) = true
      let hosted := late ∧ s.nt.trust = .untrusted ∧ s.nt.armed = some l ∧ l.at_ + 10000000 ≤ now
      hosted ∧ 1000000 < e ∧ backAllowed s = false) ∧
    (∃ (s : State) (at_ : Nat) (l : Label), s.supply.alwaysOn = true ∧
      let now := max s.nt.ns at_
      let e : Int := (now : Int) - l.label
      let late := s.nt.lastEdge.all (fun x => decide (x + 500000000 ≤ now)) = true
      let hosted := late ∧ s.nt.trust = .untrusted ∧ s.nt.armed = some l ∧ l.at_ + 10000000 ≤ now
      hosted ∧ 1000000 < e.natAbs ∧ (e < 0 ∨ backAllowed s = true)) ∧
    (∃ (s : State) (at_ t : Nat), s.supply.alwaysOn = true ∧
      let now := max s.nt.ns at_
      let late := s.nt.lastEdge.all (fun x => decide (x + 500000000 ≤ now)) = true
      late ∧ s.nt.trust = .locked ∧ s.nt.armed = none ∧ s.nt.lastLabel = some t ∧ 1000 < ((now : Int) - (t + 1000000000)).natAbs) ∧
    (∃ (s : State) (t : Nat), s.supply.alwaysOn = true ∧ s.nt.trust = .locked ∧ s.nt.lastLabelled = some t) := by
  refine ⟨?_, ?_, ?_, ?_, ?_, ?_, ?_⟩
  · refine ⟨nt {n0 with trust := .holdover, lastEdge := some 5, lastLabelled := some 5, ns := 100000000001}, .portA, 6, ?_⟩
    dsimp only [GuardedOpen, BaseOpen]
    decide +kernel
  · refine ⟨nt {n0 with lastEdge := some A, trust := .locked}, A, A, ?_⟩
    dsimp only
    decide +kernel
  · refine ⟨nt (nn (A+1000) 7), A, la (A+1000), ?_⟩
    dsimp only
    decide +kernel
  · refine ⟨nt (nn (A-1000001) 7), A, la (A-1000001), ?_⟩
    dsimp only
    decide +kernel
  · refine ⟨nt {nn (A-1000001) 7 with allowBack := true}, A, la (A-1000001), ?_⟩
    dsimp only
    decide +kernel
  · refine ⟨nt {n0 with trust := .locked, outlierRun := 1, lastLabel := some (A-1000000000-1001)}, A, A-1000000000-1001, ?_⟩
    dsimp only
    decide +kernel
  · refine ⟨nt {n0 with trust := .locked, lastEdge := some 5, lastLabelled := some 5}, 5, ?_⟩
    decide +kernel

/-- States and operands that meet the hypotheses of each clause of `Obligations.LeveeHazards`. -/
theorem meets_LeveeHazards :
    (∃ (s : State) (who : Party) (h p n : Nat) (site : Site) (t : Nat) (w : Word) (x : DetPair), hazPair h = some p ∧ pairOf s p = x ∧
        sensed s h site = true ∧ onBattery s = false ∧ h ≠ 0x09 ∧ h ≠ 0x0C ∧ x.aFailed = false ∧ x.bFailed = false ∧ x.aloneNt = some t ∧
        x.noted = false ∧ x.aNow = true ∧ x.bNow = false ∧ s.lev.due = [(h, n, 2)] ∧ s.lev.halted = false ∧ s.vault.lev.escalate = 0 ∧
        (activeDie s).isSome = true ∧ s.conf.steps = [] ∧ s.conf.refused = [] ∧ s.kst.marks = [] ∧ s.lev.brownDue = false ∧ GuardedOpen s who ∧
        s.life.state = .owned ∧ levCtlLoose s.vault.lev (levCtlNew s.vault.lev w) = true ∧ s.gauge.owedFlags.contains h = false) ∧
    (∃ (s : State) (who : Party) (h p : Nat) (site : Site) (w : Word) (x : DetPair), hazPair h = some p ∧ pairOf s p = x ∧ sensed s h site = false ∧
        s.lev.due = [] ∧ GuardedOpen s who ∧ (s.life.state = .owned → levCtlLoose s.vault.lev (levCtlNew s.vault.lev w) = false)) ∧
    (∃ (s : State) (h p n t : Nat) (x : DetPair), hazPair h = some p ∧ pairOf s p = x ∧ s.lev.due = [(h, n, 1)] ∧ s.lev.halted = false ∧
        s.lev.throttleEnd = some t) ∧
    (∃ (s : State) (h p : Nat) (x : DetPair), hazPair h = some p ∧ pairOf s p = x ∧ s.lev.brownDue = true ∧ s.supply.vin = true ∧
        s.supply.downEnd = none) ∧
    (∃ (s : State) (h p n : Nat) (x : DetPair), hazPair h = some p ∧ pairOf s p = x ∧ s.lev.due = [(h, n, 3)] ∧ s.lev.halted = false) ∧
    (∃ (s : State) (h p : Nat) (x : DetPair), hazPair h = some p ∧ pairOf s p = x ∧ s.lev.halted = false ∧ (activeDie s).isSome = true ∧
        s.gauge.owedFlags.contains h = true) ∧
    (∃ (s : State) (h p : Nat) (x : DetPair), hazPair h = some p ∧ pairOf s p = x ∧ (s.lev.halted = true ∨ activeDie s = none)) := by
  refine ⟨?_, ?_, ?_, ?_, ?_, ?_, ?_⟩
  · refine ⟨{lv { due := [(2,1,2)], pairs := [(1,dp)] } with vault := {ownerRoot := some [], lev := { escalate := 0}}}, .portA, 2, 1, 1, .base, 40,
        0, dp, ?_⟩
    dsimp only [GuardedOpen, BaseOpen]
    decide +kernel
  · refine ⟨{lv { flags := [2, 3] } with life := { a0.life with state := .raw}}, .portA, 0xF, 10, .base, 0x7D001, {}, ?_⟩
    dsimp only [GuardedOpen, BaseOpen]
    decide +kernel
  · refine ⟨lv { due := [(2,1,1)], throttleEnd := some 9 }, 2, 1, 1, 9, {}, ?_⟩
    decide +kernel
  · refine ⟨lv { due := [(2,1,2)], pairs := [(1,dp)], brownDue := true }, 2, 1, dp, ?_⟩
    decide +kernel
  · refine ⟨lv { due := [(2,1,3)], pairs := [(1,dp)] }, 2, 1, 1, dp, ?_⟩
    decide +kernel
  · refine ⟨{lv { flags := [2, 3] } with gauge := { a0.gauge with owedFlags := [2] }}, 2, 1, {}, ?_⟩
    decide +kernel
  · refine ⟨lv { flags := [2, 3], halted := true }, 2, 1, {}, ?_⟩
    decide +kernel


end Time

/-! ### Noise, memories and units -/

namespace Units

def a0 : State := { guarded with rings := [(40, r0)], rng0 := { seeds := [zeros 48] } , nt := {ns := 10000000000}, sems := [(0, { holder := some .portA, leaseEnd := 20000000000 })] }
def fl (n : Nat) : List Nat := (List.range n).map (fun i => 9999999000 + i)
def rg (r : Rng) : State := { a0 with rng0 := r }
def gb (j : Nat) : List Byte := (List.range 128).map (fun i => BitVec.ofNat 8 ((i * 73 + j * 31 + i * i * 7) % 251))
def gl : List Bool := (List.range 1024).map (fun i => i % 3 == 0)
def tx : Step := stp (.executing 3)
def sx : State := { a0 with conf := { steps := [(24, tx)], ctxs := [(3,5)], notes := { cap := 9, items := [(7, zeros 48), (8, List.replicate 48 1)] } }, cores := [(3, {exec := some 24})], rings := [(40, {r0 with fetch := some { descs := [zeros 128], port := .a } })] }
def bk (b : Bank) : State := { sx with banks := [(2, b)] }
def fg : Flit := { addr := 5, tag := 6, data := [1,2,3], code := BitVec.ofNat 16 (flitCode { addr := 5, tag := 6, data := [1,2,3], code := 0 }) }
def fx : Flit := { fg with code := fg.code + 1 }
def by1 : Bytes := [1,2,3,4,5,6,7,8]
def by2 : Bytes := [9,2,3,4,5,6,7,8]
def thd : Step := { stp (.inEddy 3 1) with result := some { status := stOk, cycles := 9 } }
def mx1 : State := { sx with rules := [(3, { set0 := List.replicate 16 7 })] }
def mx2 : State := { sx with conf := { sx.conf with steps := [(24, thd)] }, cores := [(3, { eddy := [{}, ⟨.held, 24⟩, {}, {}] })] }
def tcl : Step := { stp .parked with cells := [9] }
def mx3 : State := { sx with conf := { sx.conf with steps := [(24, tcl)] }, cores := [], die1 := {}, sw := { sx.sw with half0Up := false, half1Up := false } }
def dq (n : Nat) (s : State) : State := wr s (pgPol .d0 + 0x118) (BitVec.ofNat 64 n)
def it1 : Bytes := zeros 40 ++ [1,2,3,4,5,6,7,8]
def jb : List (Nat × Bytes) := [(7, it1), (8, zeros 48)]
def dd (f sp : List (Nat × Nat)) (s : State) : State := { s with die0 := { s.die0 with failed := f, spares := sp } }
def sup (f : Supply → Supply) (s : State) : State := { s with supply := f s.supply }

/-- States and operands that meet the hypotheses of each clause of `Obligations.NoiseSources`. -/
theorem meets_NoiseSources :
    (∃ (s : State) (who : Party) (d : Die) (i : Nat) (rct apt : Bool) (v : Word) (l : List Bool), i < 2 ∧ (dieOf s d).inService = true ∧
        l.length = 1024 ∧
      let r := rngOf s d
      let x := sourceOf s d i
      r.ctlNext = none ∧ (rct = true ∨ apt = true) ∧ x.mode = .raw ∧ feeding r = none ∧ GuardedOpen s who ∧ windowUp s (pgRng d 0) = true ∧
          r.rawState = 2 ∧ r.rawSource = i ∧
      let row := pgRng d 0 + 0x1A8
      arrives s who = true ∧ s.lev.halted = false ∧ route s row = .at_ ⟨.rng, 0, dieNo d + 1⟩ (pgRng d 0) ∧ r.rawBuf[r.readSoFar / 64]? = some v ∧
          r.readSoFar + 64 < r.rawCount) ∧
    (∃ (s : State) (d : Die) (i : Nat) (rct apt : Bool) (blocks : List (List Byte)), i < 2 ∧ (dieOf s d).inService = true ∧
      let r := rngOf s d
      let x := sourceOf s d i
      let fails := recentFails x.fails s.nt.ns ++ [s.nt.ns]
      r.ctlNext = none ∧ (rct = true ∨ apt = true) ∧ (x.mode = .running ∨ x.mode = .startup) ∧ fails.length < 4 ∧
      let gained := fun (c : Word) => (((blocks.map samplesOf).filter blockPasses).map (debias (bitOf c 1))).flatten
      let all := (if r.bitsSource = i then r.bits else []) ++ gained r.ctl
      feeding r = some i ∧ (all.length < 1024 ∨ 64 ≤ r.seeds.length)) ∧
    (∃ (s : State) (d : Die) (i : Nat) (rct apt : Bool) (blocks : List (List Byte)), i < 2 ∧ (dieOf s d).inService = true ∧
      let r := rngOf s d
      let x := sourceOf s d i
      let fails := recentFails x.fails s.nt.ns ++ [s.nt.ns]
      r.ctlNext = none ∧ (rct = true ∨ apt = true) ∧ (x.mode = .running ∨ x.mode = .startup) ∧ 4 ≤ fails.length ∧
          (sourceOf s d (1 - i)).mode ≠ .fatal ∧
      let gained := fun (c : Word) => (((blocks.map samplesOf).filter blockPasses).map (debias (bitOf c 1))).flatten
      let all := (if r.bitsSource = i then r.bits else []) ++ gained r.ctl
      feeding r = some i ∧ 1024 ≤ all.length ∧ r.seeds.length < 64 ∧ (dieOf s d).failed.contains (7, 2) = false) ∧
    (∃ (s : State) (d : Die) (i : Nat) (rct apt : Bool), i < 2 ∧ (dieOf s d).inService = true ∧
      let r := rngOf s d
      let x := sourceOf s d i
      let fails := recentFails x.fails s.nt.ns ++ [s.nt.ns]
      r.ctlNext = none ∧ (rct = true ∨ apt = true) ∧ (x.mode = .running ∨ x.mode = .startup) ∧ 4 ≤ fails.length ∧
          (sourceOf s d (1 - i)).mode = .fatal ∧ activeDie s = some d ∧ duplex s = true ∧ (dieOf s d).declaredFatal = none ∧ x.mode = .startup) ∧
    (∃ (s : State) (d : Die) (i : Nat), i < 2 ∧ (dieOf s d).inService = true ∧
      let x := sourceOf s d i
      x.mode = .restarting) ∧
    (∃ (s : State) (d : Die) (i : Nat) (w : Word) (blocks : List (List Byte)), i < 2 ∧ (dieOf s d).inService = true ∧
      let r := rngOf s d
      let gained := fun (c : Word) => (((blocks.map samplesOf).filter blockPasses).map (debias (bitOf c 1))).flatten
      r.ctlNext = some w ∧ feeding { r with ctl := w } = some i ∧ (gained w).length < 1024) ∧
    (∃ (s : State) (d : Die) (i : Nat) (blocks : List (List Byte)), i < 2 ∧ (dieOf s d).inService = true ∧
      let r := rngOf s d
      let taken := (r.rawBits ++ rawTaken r blocks).take r.rawCount
      r.rawState = 1 ∧ taken.length < r.rawCount) ∧
    (∃ (s : State) (d : Die) (i : Nat) (blocks : List (List Byte)), i < 2 ∧ (dieOf s d).inService = true ∧
      let r := rngOf s d
      let taken := (r.rawBits ++ rawTaken r blocks).take r.rawCount
      r.rawState = 1 ∧ taken.length = r.rawCount) ∧
    (∃ (s : State) (who : Party) (d : Die) (i : Nat) (v : Word), i < 2 ∧ (dieOf s d).inService = true ∧
      let r := rngOf s d
      let row := pgRng d 0 + 0x1A8
      arrives s who = true ∧ s.lev.halted = false ∧ route s row = .at_ ⟨.rng, 0, dieNo d + 1⟩ (pgRng d 0) ∧ r.rawState = 2 ∧
          r.rawBuf[r.readSoFar / 64]? = some v ∧ r.rawCount = r.readSoFar + 64) := by
  refine ⟨?_, ?_, ?_, ?_, ?_, ?_, ?_, ?_, ?_⟩
  · refine ⟨rg { lns := { mode := .raw}, rawState := 2, rawCount := 192, rawBuf := [1,2,3], readSoFar := 64 }, .portA, .d0, 0, true, true, 2, gl, ?_⟩
    dsimp only [GuardedOpen, BaseOpen]
    decide +kernel
  · refine ⟨rg { lns := { mode := .running, fails := 5 :: fl 2 }, seeds := [] }, .d0, 0, true, false, [gb 0], ?_⟩
    dsimp only
    decide +kernel
  · refine ⟨rg { lns := { mode := .running, fails := 5 :: fl 3 }, seeds := [] }, .d0, 0, false, true, [gb 0, gb 1], ?_⟩
    dsimp only
    decide +kernel
  · refine ⟨rg { lns := { mode := .startup, fails := 5 :: fl 3 }, jns := { mode := .fatal }, seeds := [] }, .d0, 0, true, true, ?_⟩
    dsimp only
    decide +kernel
  · refine ⟨rg { lns := { mode := .raw, fails := 5 :: fl 3 }, jns := { mode := .restarting, holdEnd := 10000010000 }, seeds := [] }, .d0, 1, ?_⟩
    dsimp only
    decide +kernel
  · refine ⟨rg { lns := { mode := .startup, fails := 5 :: fl 3 }, jns := { mode := .running}, ctlNext := some 1, seeds := [[]] }, .d0, 1, 1, [gb 0],
        ?_⟩
    dsimp only
    decide +kernel
  · refine ⟨rg { lns := { mode := .raw}, rawState := 1, rawCount := 2048 }, .d0, 1, [gb 0], ?_⟩
    dsimp only
    decide +kernel
  · refine ⟨rg { lns := { mode := .raw}, rawState := 1, rawCount := 2048 }, .d0, 1, [gb 0, gb 1, gb 2], ?_⟩
    dsimp only
    decide +kernel
  · refine ⟨rg { lns := { mode := .raw}, rawState := 2, rawCount := 192, rawBuf := [1,2,3], readSoFar := 128 }, .portB, .d0, 0, 3, ?_⟩
    dsimp only
    decide +kernel

/-- States and operands that meet the hypotheses of each clause of `Obligations.MemoryErrors`. -/
theorem meets_MemoryErrors :
    (∃ (s : State) (d : Die) (a k c kind p q : Nat) (t : Step) (b1 b2 : List Byte) (f : Flit), (dieOf s d).inService = true ∧
      let plain := a % 8 = 0 ∧ (regionAt a = .scratch ∨ regionAt a = .firmware ∨ regionAt a = .streams)
      plain ∧ b1.length = 8 ∧ b2.length = 8 ∧ p < q ∧ q < 4 ∧ p ≠ 1 ∧ q ≠ 1 ∧ a < 0x8000000 ∧ regionAt a = .firmware ∧
          (dieOf s d).declaredFatal = none ∧ serving s = true ∧ activeDie s = some d ∧ coreRunning s k = some c ∧ stepOf s k = some t ∧
          t.ending = none ∧ c < 288 ∧ (kind = 0 ∨ kind = 1 ∨ kind = 3) ∧ (t.ahead = true → t.guardOk = none ∧ (entryOf s k).isSome = true) ∧
          (coreOf s c).buffer = [] ∧ ruleAllows (if (rulesOf s c).active = 0 then (rulesOf s c).set0 else (rulesOf s c).set1) a true = false ∧
          flitPasses f = false) ∧
    (∃ (s : State) (d : Die) (a k c : Nat) (t : Step) (b1 : List Byte) (f : Flit), (dieOf s d).inService = true ∧
      let plain := a % 8 = 0 ∧ (regionAt a = .scratch ∨ regionAt a = .firmware ∨ regionAt a = .streams)
      plain ∧ b1.length = 8 ∧ coreMay s d ⟨2 + c % 2, some c, a, 8, none⟩ = true ∧ (coreOf s c).buffer = [] ∧
      let runs := stepOf s k = some t ∧ t.seq = none ∧ (sliceOf s t.sliceNo).mode ≠ .squashing ∧ activeDie s = some d ∧ s.sw.gap = none
      runs ∧ regionAt a = .scratch ∧ (coreOf s ((a - 0x5000000) / 0x8000)).exec = some k ∧ t.phase = .executing c ∧ serving s = true ∧
          activeDie s = some d ∧ coreRunning s k = some c ∧ stepOf s k = some t ∧ t.ending = none ∧ c < 288 ∧ a < 0x8000000 ∧
          ruleAllows (if (rulesOf s c).active = 0 then (rulesOf s c).set0 else (rulesOf s c).set1) a true = true ∧ flitPasses f = true) ∧
    (∃ (s : State) (d : Die) (bank row n : Nat), (dieOf s d).inService = true ∧ bank < 64 ∧ (bankOf s d bank).marked.contains row = true ∧
        (bankOf s d bank).used.length = 8 ∧ row < 8192 ∧ (bankOf s d bank).used.getD (groupAt row) 0 = n ∧ n < 2) ∧
    (∃ (s : State) (d : Die) (bank row n : Nat), (dieOf s d).inService = true ∧ bank < 64 ∧ (bankOf s d bank).marked.contains row = true ∧
        (bankOf s d bank).used.length = 8 ∧ row < 8192 ∧ (bankOf s d bank).used.getD (groupAt row) 0 = n ∧ 2 ≤ n) ∧
    (∃ (s : State) (d : Die) (k c n : Nat) (t : Step), (dieOf s d).inService = true ∧
      let runs := stepOf s k = some t ∧ t.seq = none ∧ (sliceOf s t.sliceNo).mode ≠ .squashing ∧ activeDie s = some d ∧ s.sw.gap = none
      runs ∧ t.phase = .inEddy c n ∧ n < 4 ∧ (coreOf s c).eddy[n]? = some ⟨.held, k⟩) ∧
    (∃ (s : State) (d : Die) (a : Nat), (dieOf s d).inService = true ∧ regionAt a = .pool ∧ a % 64 < 48 ∧
        (poolQueue s d 25).items.any (fun e => e.1 == a / 64) = true) ∧
    (∃ (s : State) (d : Die) (a k : Nat) (t : Step), (dieOf s d).inService = true ∧
      let runs := stepOf s k = some t ∧ t.seq = none ∧ (sliceOf s t.sliceNo).mode ≠ .squashing ∧ activeDie s = some d ∧ s.sw.gap = none
      regionAt a = .pool ∧ a % 64 < 48 ∧ runs ∧ duplex s = false ∧ t.phase = .parked ∧ t.cells.contains (a / 64) = true) ∧
    (∃ (s : State) (d : Die) (a : Nat), (dieOf s d).inService = true ∧ regionAt a = .pool ∧ 48 ≤ a % 64) := by
  refine ⟨?_, ?_, ?_, ?_, ?_, ?_, ?_, ?_⟩
  · refine ⟨sx, .d0, 0x5F00010, 24, 3, 0, 0, 2, tx, by1, by2, fx, ?_⟩
    dsimp only
    decide +kernel
  · refine ⟨mx1, .d0, 0x5000010 + 3*0x8000, 24, 3, tx, by1, fg, ?_⟩
    dsimp only
    decide +kernel
  · refine ⟨bk { marked := [7, 9], used := [1,0,0,0,0,0,0,0] }, .d0, 2, 7, 1, ?_⟩
    decide +kernel
  · refine ⟨bk { marked := [7, 9], used := [2,0,0,0,0,0,0,0] }, .d0, 2, 7, 2, ?_⟩
    decide +kernel
  · refine ⟨mx2, .d0, 24, 3, 1, thd, ?_⟩
    dsimp only
    decide +kernel
  · refine ⟨mx3, .d0, 64*7, ?_⟩
    decide +kernel
  · refine ⟨mx3, .d0, 64*9, 24, tcl, ?_⟩
    dsimp only
    decide +kernel
  · refine ⟨mx3, .d0, 64*7+48, ?_⟩
    decide +kernel

/-- States and operands that meet the hypotheses of each clause of `Obligations.UnitsQueuesAndGovernor`. -/
theorem meets_UnitsQueuesAndGovernor :
    (∃ (s : State) (who : Party) (d : Die) (kind inst mv q : Nat) (lid temp : Int) (item : Nat × List Byte) (rest : List (Nat × List Byte)),
        mayTest s d kind inst = true ∧ 1 ≤ kind ∧ kind ≤ 3 ∧
      let x := dieOf s d
      x.inService = true ∧ inst < unitCount kind ∧ x.failed.contains (kind, inst) = false ∧ inst < 16 ∧ x.failed.contains (4, inst) = false ∧
          mayReplace inst = true ∧ x.failed.contains (6, inst) = false ∧ arrives s who = true ∧ s.lev.halted = false ∧
          route s (pgPol d + 0x140) = .at_ ⟨.pol, 0, dieNo d + 1⟩ (pgPol d) ∧ qsel s d = q ∧ (q = 24 ∨ q = 25) ∧
          (poolQueue s d q).items = item :: rest ∧ GuardedOpen s who ∧ windowUp s (pgPol d) = true ∧ (poolQueue s d q).items ≠ [] ∧
      let y := s.supply
      wardenUp s = true ∧ y.capped = false ∧ y.emergency = false ∧ temp < 1760 ∧ lid < 1520 ∧ 0 < y.clockStep + y.bnlStep ∧
          (y.vaux = false ∨ y.batteryLow = true ∨ 2700 ≤ mv)) ∧
    (∃ (s : State) (mv : Nat) (lid temp : Int),
      let y := s.supply
      wardenUp s = true ∧ y.capped = false ∧ y.emergency = false ∧ temp < 1760 ∧ 1520 ≤ lid ∧ y.vaux = true ∧ y.batteryLow = false ∧ mv < 2700) ∧
    (∃ (s : State) (d : Die) (kind : Nat) (lid temp : Int) (e : Nat × Nat),
      let x := dieOf s d
      x.inService = true ∧ 1 ≤ kind ∧ kind ≤ 3 ∧ x.spares.find? (fun z => z.1 == kind) = some e ∧ unitsUp x kind < unitNominal kind ∧
          s.conf.steps = [] ∧ s.conf.refused = [] ∧ s.kst.marks = [] ∧
      let y := s.supply
      wardenUp s = true ∧ y.capped = false ∧ y.emergency = false ∧ 1760 ≤ temp ∧ lid < 1520) ∧
    (∃ (s : State) (power : Nat) (lid temp : Int),
      let y := s.supply
      wardenUp s = true ∧ y.capped = true ∧ y.emergency = false ∧ temp < 1760 ∧ 1360 < lid ∧ 850 < power ∧ y.bnlStep < 6) ∧
    (∃ (s : State) (who : Party) (d : Die) (q : Nat), arrives s who = true ∧ s.lev.halted = false ∧ route s (pgPol d + 0x140) = .at_ ⟨.pol, 0,
        dieNo d + 1⟩ (pgPol d) ∧ qsel s d = q ∧ (q = 24 ∨ q = 25) ∧ (poolQueue s d q).items = []) ∧
    (∃ (s : State) (d : Die) (e : Nat × Nat),
      let x := dieOf s d
      x.inService = true ∧ x.failed.find? (fun z => z.1 == 6) = some e ∧ sectorsUsed s d < 32768) := by
  refine ⟨?_, ?_, ?_, ?_, ?_, ?_⟩
  · refine ⟨sup (fun y => { y with clockStep := 0, bnlStep := 2 }) {dq 24 sx with conf := { sx.conf with trace := {cap := 9, items := jb} }, die0 := { sx.die0 with latched := some (24, [1,2,3,4,5]) }}, .portA, .d0, 2, 2, 2700, 24, 1361, 1759, (7, it1), [(8, zeros 48)], ?_⟩
    dsimp only [GuardedOpen, BaseOpen]
    decide +kernel
  · refine ⟨sx, 2699, 1520, 20, ?_⟩
    dsimp only
    decide +kernel
  · refine ⟨dd [(3,1)] [(1,270), (3,4)] a0, .d0, 3, 1519, 1760, (3,4), ?_⟩
    dsimp only
    decide +kernel
  · refine ⟨sup (fun y => { y with capped := true }) {dq 25 sx with conf := { sx.conf with notes := {cap := 9, items := jb} }}, 851, 1361, 1759, ?_⟩
    dsimp only
    decide +kernel
  · refine ⟨sup (fun y => { y with clockStep := 1, bnlStep := 2, vaux := false }) (dq 25 { sx with conf := { sx.conf with notes := {cap := 9} } }),
        .portA, .d0, 25, ?_⟩
    decide +kernel
  · refine ⟨dd [(6, 6)] [] sx, .d0, (6, 6), ?_⟩
    dsimp only
    decide +kernel


end Units

/-! ### Supply, starts, firmware, life cycle and the Gauge -/

namespace Supply

def tx : Step := stp (.executing 3)
def a0 : State := { guarded with rings := [(40, r0)], rng0 := { seeds := [zeros 48] } , nt := {ns := 10000000000}, sems := [(0, { holder := some .portA, leaseEnd := 20000000000 })], conf := { steps := [(24, tx)], ctxs := [(3,5)] }, cores := [(3, {exec := some 24})] }
def sp (f : Supply → Supply) : State := { a0 with supply := f a0.supply }
def q0 (f : Starts → Starts) : State := { a0 with starts := f a0.starts }
def dueN (n : Nat) : State := q0 (fun x => {x with due := some n, quiesced := true})
def calm (s : State) : State := { s with conf := {}, rings := [] }
def tr : BootRec := { slot := 1, trial := true, prevSlot := 0 }
def fwv : Vault := { ownerRoot := some [], fwPhase := 1, activatedNt := 9000000000, boot0 := tr, boot1 := tr }
def fw (f : FwSlot) : State := { a0 with mram0 := { slotB := f } }
def lf (l : LifeState) (f : LifeCtl → LifeCtl) : State := { a0 with life := f { a0.life with state := l } }
def md (f : LifeState) (t : LifeState) (p : Nat) : LifeMark := ⟨p, f, t⟩
def wd (s : State) : State := { s with sems := [(0, { holder := some .warden })] }
def tokH : List Nat := let h := (hash .sha384 (zeros 32 ++ moduleSerial a0)).take 9; (List.range 3).map (fun j => (h.drop (3 * j)).take 3 |>.foldl (fun a b => a * 256 + b.toNat) 0)
def tok (f : State → State) : State := f (wd (lf .test (fun l => {l with busy := true, target := 2, decided := (List.range 3).map (fun j => (32 + j, tokH.getD j 0, 0))})))
def lm (m : LifeMark) : State := wd { lf m.from_ id with vault := { a0.vault with lifeMark := some m } }
def gs (g : Gauge) : State := { a0 with gauge := g }
def ev : JEvent := jev 0x0101 2 3 (zeros 28)
def low (s : State) : State := { s with regs := [(pgPol .d0 + 0x108, 0x7FFFF)] }

/-- States and operands that meet the hypotheses of each clause of `Obligations.PowerSupply`. -/
theorem meets_PowerSupply :
    (∃ (s : State), s.supply.alwaysOn = s.supply.vaux ∧
      let y := s.supply
      y.vin = true ∧ y.vaux = true ∧ y.downEnd = none) ∧
    (∃ (s : State), s.supply.alwaysOn = s.supply.vaux ∧
      let y := s.supply
      y.vin = false ∧ (y.vaux = false ∨ y.downEnd ≠ none) ∧ y.vaux = false) ∧
    (∃ (s : State), s.supply.alwaysOn = s.supply.vaux ∧
      let y := s.supply
      y.vin = true ∧ (y.vaux = false ∨ y.downEnd ≠ none) ∧ y.downEnd ≠ none ∧ y.vaux = true ∧ (y.vin = false ∨ y.downEnd ≠ none)) ∧
    (∃ (s : State), s.supply.alwaysOn = s.supply.vaux ∧
      let y := s.supply
      y.vin = false ∧ y.vaux = true ∧ y.downEnd = none) ∧
    (∃ (s : State), s.supply.alwaysOn = s.supply.vaux ∧
      let y := s.supply
      y.downEnd ≠ none ∧ (y.vin = false ∨ y.vaux = false)) := by
  refine ⟨?_, ?_, ?_, ?_, ?_⟩
  · refine ⟨a0, ?_⟩
    dsimp only
    decide +kernel
  · refine ⟨sp (fun y => {y with vin := false, vaux := false, alwaysOn := false}), ?_⟩
    dsimp only
    decide +kernel
  · refine ⟨sp (fun y => {y with downEnd := some 7}), ?_⟩
    dsimp only
    decide +kernel
  · refine ⟨sp (fun y => {y with vin := false}), ?_⟩
    dsimp only
    decide +kernel
  · refine ⟨sp (fun y => {y with vin := false, downEnd := some 7}), ?_⟩
    dsimp only
    decide +kernel

/-- States and operands that meet the hypotheses of each clause of `Obligations.Starts`. -/
theorem meets_Starts :
    (∃ (s : State) (who : Party), wardenUp s = true ∧ s.starts.due = some 0 ∧ (warmReady s = false ∨ s.starts.due = none ∨ s.starts.due = some 0) ∧
        s.starts.quiesceEnd = none ∧ s.starts.failing = none ∧ (activeDie s).isSome = true ∧ GuardedOpen s who ∧ s.starts.due.isSome = true ∧
        mayConfirm s = false) ∧
    (∃ (s : State) (who : Party) (k : Nat), warmReady s = true ∧ s.starts.due = some k ∧ 1 ≤ k ∧ (wardenUp s = false ∨ s.starts.due ≠ some 0) ∧
      let recovery := arrives s who = true ∧ s.lev.halted = false ∧ (semOf s 0).holder = some who ∧ s.vault.recovery = true
      recovery ∧ (s.vault.recoveryKept = true ∨ s.starts.due.isSome = true)) ∧
    (∃ (s : State) (who : Party) (t : Nat), s.starts.quiesceEnd = some t ∧ s.conf.steps.all (fun e => isCommitted e.2) = true ∧ GuardedOpen s who ∧
        s.starts.due = none) ∧
    (∃ (s : State) (k c t : Nat) (x : Step), s.starts.quiesceEnd = some t ∧ stepOf s k = some x ∧ x.phase = .executing c ∧ x.seq = none ∧
        x.ending = none) ∧
    (∃ (s : State) (c : Nat), s.starts.failing = some c) ∧
    (∃ (s : State) (who : Party),
      let recovery := arrives s who = true ∧ s.lev.halted = false ∧ (semOf s 0).holder = some who ∧ s.vault.recovery = true
      recovery ∧ s.vault.recoveryKept = false ∧ s.starts.due = none) ∧
    (∃ (s : State) (who : Party), GuardedOpen s who ∧ mayConfirm s = true) := by
  refine ⟨?_, ?_, ?_, ?_, ?_, ?_, ?_⟩
  · refine ⟨q0 (fun x => {x with due := some 0}), .portA, ?_⟩
    dsimp only [GuardedOpen, BaseOpen]
    decide +kernel
  · refine ⟨{calm (dueN 2) with vault := { a0.vault with recovery := true }}, .portA, 2, ?_⟩
    dsimp only
    decide +kernel
  · refine ⟨{q0 (fun x => {x with due := none, quiesceEnd := some 99}) with conf := {}}, .portA, 99, ?_⟩
    dsimp only [GuardedOpen, BaseOpen]
    decide +kernel
  · refine ⟨q0 (fun x => {x with due := none, quiesceEnd := some 99}), 24, 3, 99, tx, ?_⟩
    decide +kernel
  · refine ⟨q0 (fun x => {x with due := none, failing := some 4}), 4, ?_⟩
    decide +kernel
  · refine ⟨{a0 with vault := {recovery := true}}, .portA, ?_⟩
    dsimp only
    decide +kernel
  · refine ⟨{a0 with vault := fwv, die0 := { a0.die0 with bootSlot := some 1 }, die1 := { a0.die1 with bootSlot := some 1 }}, .portA, ?_⟩
    dsimp only [GuardedOpen, BaseOpen]
    decide +kernel

/-- States and operands that meet the hypotheses of each clause of `Obligations.FirmwareSlots`. -/
theorem meets_FirmwareSlots :
    (∃ (s : State) (who : Party) (d : Die) (len : Nat),
      let up := GuardedOpen s who ∧ windowUp s (pgFwu d) = true
      let legal := len % 8 = 0 ∧ 8192 ≤ len ∧ len ≤ 134217728
      up ∧ verifying s d = false ∧ legal ∧
      let f := target s d
      (f.length ≤ 8 * f.words.length ∨ 2 ≤ f.stage) ∧ (f.stage ≠ 1 ∨ 8 * f.words.length ≠ f.length) ∧ f.stage ≠ 2 ∧
          ((dieOf s d).inService = false ∨ f.stage ≠ 3) ∧ s.vault.fwPhase ≠ 1 ∧
      let count := rollbackCounter s
      s.vault.fwPhase = 2 ∧ wardenUp s = true ∧ 4 ≤ s.starts.step ∧ count < min 64 s.vault.burnTarget) ∧
    (∃ (s : State) (who : Party) (d : Die),
      let up := GuardedOpen s who ∧ windowUp s (pgFwu d) = true
      up ∧ verifying s d = true ∧
      let f := target s d
      (dieOf s d).inService = true ∧ f.stage = 3) ∧
    (∃ (s : State) (n : Nat), s.vault.fwPhase = 1 ∧ wardenUp s = true ∧ s.starts.step ≠ 0 ∧ s.starts.trialLost = n + 1 ∧ s.vault.trialFails = 0) ∧
    (∃ (s : State) (who : Party) (d : Die) (len : Nat),
      let up := GuardedOpen s who ∧ windowUp s (pgFwu d) = true
      let legal := len % 8 = 0 ∧ 8192 ≤ len ∧ len ≤ 134217728
      up ∧ verifying s d = false ∧ (¬ legal)) ∧
    (∃ (s : State) (who : Party) (d : Die),
      let f := target s d
      let up := GuardedOpen s who ∧ windowUp s (pgFwu d) = true
      up ∧ 8 * f.words.length < f.length ∧ f.stage < 2) ∧
    (∃ (s : State) (who : Party) (d : Die),
      let f := target s d
      let up := GuardedOpen s who ∧ windowUp s (pgFwu d) = true
      up ∧ f.stage = 1 ∧ 8 * f.words.length = f.length) ∧
    (∃ (s : State) (who : Party) (d : Die),
      let f := target s d
      let up := GuardedOpen s who ∧ windowUp s (pgFwu d) = true
      up ∧ f.stage = 2) ∧
    (∃ (s : State) (n : Nat), s.vault.fwPhase = 1 ∧ s.starts.trialLost = n + 1 ∧ 1 ≤ s.vault.trialFails) ∧
    (∃ (s : State),
      let count := rollbackCounter s
      s.vault.fwPhase = 2 ∧ wardenUp s = true ∧ 4 ≤ s.starts.step ∧ min 64 s.vault.burnTarget ≤ count) := by
  refine ⟨?_, ?_, ?_, ?_, ?_, ?_, ?_, ?_, ?_⟩
  · refine ⟨{a0 with vault := {fwv with fwPhase := 2, burnTarget := 1}}, .portA, .d1, 8192, ?_⟩
    dsimp only [GuardedOpen, BaseOpen]
    decide +kernel
  · refine ⟨fw {length := 16, words := [1,2], stage := 3}, .portA, .d0, ?_⟩
    dsimp only [GuardedOpen, BaseOpen]
    decide +kernel
  · refine ⟨{a0 with vault := fwv, starts := { a0.starts with trialLost := 3 }}, 2, ?_⟩
    decide +kernel
  · refine ⟨fw {}, .portA, .d0, 8193, ?_⟩
    dsimp only [GuardedOpen, BaseOpen]
    decide +kernel
  · refine ⟨fw {length := 16, words := [1], stage := 1}, .portA, .d0, ?_⟩
    dsimp only [GuardedOpen, BaseOpen]
    decide +kernel
  · refine ⟨fw {length := 16, words := [1,2], stage := 1}, .portA, .d0, ?_⟩
    dsimp only [GuardedOpen, BaseOpen]
    decide +kernel
  · refine ⟨fw {length := 16, words := [1,2], stage := 2}, .portA, .d0, ?_⟩
    dsimp only [GuardedOpen, BaseOpen]
    decide +kernel
  · refine ⟨{a0 with vault := {fwv with trialFails := 1}, starts := { a0.starts with trialLost := 3 }}, 2, ?_⟩
    decide +kernel
  · refine ⟨{a0 with vault := {fwv with fwPhase := 2, burnTarget := 0}}, ?_⟩
    dsimp only
    decide +kernel

/-- States and operands that meet the hypotheses of each clause of `Obligations.LifeCycleAndFuses`. -/
theorem meets_LifeCycleAndFuses :
    (∃ (s : State) (who : Party) (w data : Word) (temp : Int) (m : LifeMark),
      let up := GuardedOpen s who
      let idle := up ∧ s.life.busy = false
      idle ∧ lccPair s (getF data 0 8) = false ∧ wardenUp s = true ∧ s.lev.halted = false ∧ s.vault.lifeMark = some m ∧ up ∧
          ((s.life.state ≠ .factory ∧ s.life.state ≠ .shipped) ∨ 32 ≤ getF w 0 24 ∨ freePolicyWord s = none) ∧ s.starts.step ≠ 0 ∧
      let moved := 320 < temp - s.life.senseTemp ∨ 320 < s.life.senseTemp - temp ∨ s.life.sensing = true
      s.life.burning = false ∧ moved ∧ s.vault.fuseMark = none ∧ (s.life.rewrites = [] ∨ transitionBurns s = true)) ∧
    (∃ (s : State) (n : Nat) (temp : Int), n < 4 ∧ s.life.busy = true ∧ s.vault.lifeMark = none ∧ wardenUp s = true ∧ s.lev.halted = false ∧
        s.starts.step ≠ 0 ∧
      let moved := 320 < temp - s.life.senseTemp ∨ 320 < s.life.senseTemp - temp ∨ s.life.sensing = true
      (s.life.burning = true ∨ ¬ moved)) ∧
    (∃ (s : State) (who : Party) (data : Word) (n : Nat),
      let up := GuardedOpen s who
      let idle := up ∧ s.life.busy = false
      idle ∧ n < 4 ∧ lccPair s (getF data 0 8) = true) ∧
    (∃ (s : State) (n v : Nat), wardenUp s = true ∧ s.vault.fuseMark = some (n, v)) ∧
    (∃ (s : State) (n : Nat) (rest : List Nat), wardenUp s = true ∧ s.vault.fuseMark = none ∧ s.life.rewrites = n :: rest ∧
        transitionBurns s = false) ∧
    (∃ (s : State), s.life.busy = true ∧ s.vault.lifeMark = none ∧ wardenUp s = true ∧ s.lev.halted = false ∧ wardenHas s = true ∧ lccCheck s ≠ 1) ∧
    (∃ (s : State), s.life.busy = true ∧ s.vault.lifeMark = none ∧ wardenUp s = true ∧ s.lev.halted = false ∧ wardenHas s = true ∧ lccCheck s = 1 ∧
        s.life.target ≠ 2 ∧ s.life.state ≠ .testOpen) ∧
    (∃ (s : State), s.life.busy = true ∧ s.vault.lifeMark = none ∧ wardenUp s = true ∧ s.lev.halted = false ∧ wardenHas s = true ∧ lccCheck s = 1 ∧
        s.life.state = .testOpen ∧ s.life.target ≠ 2) ∧
    (∃ (s : State), s.life.busy = true ∧ s.vault.lifeMark = none ∧ wardenUp s = true ∧ s.lev.halted = false ∧ wardenHas s = true ∧ lccCheck s = 1 ∧
        s.life.target = 2) ∧
    (∃ (s : State) (who : Party) (w : Word) (n : Nat),
      let up := GuardedOpen s who
      up ∧ (s.life.state = .factory ∨ s.life.state = .shipped) ∧ getF w 0 24 < 32 ∧ freePolicyWord s = some n) ∧
    (∃ (s : State) (m : LifeMark), wardenUp s = true ∧ s.lev.halted = false ∧ s.vault.lifeMark = some m ∧ wardenHas s = true ∧ m.phase = 1 ∧
        m.target ≠ .owned ∧ ((activeDie s).isSome = true → drained s = true)) ∧
    (∃ (s : State) (m : LifeMark), wardenUp s = true ∧ s.lev.halted = false ∧ s.vault.lifeMark = some m ∧ wardenHas s = true ∧ m.phase = 1 ∧
        (activeDie s).isSome = true ∧ drained s = false) ∧
    (∃ (s : State) (m : LifeMark), wardenUp s = true ∧ s.lev.halted = false ∧ s.vault.lifeMark = some m ∧ wardenHas s = true ∧ m.phase = 2 ∧
        m.target ≠ .owned ∧ m.target ≠ .analysis) ∧
    (∃ (s : State) (m : LifeMark), wardenUp s = true ∧ s.lev.halted = false ∧ s.vault.lifeMark = some m ∧ wardenHas s = true ∧ m.phase = 2 ∧
        m.target = .owned) ∧
    (∃ (s : State) (m : LifeMark), wardenUp s = true ∧ s.lev.halted = false ∧ s.vault.lifeMark = some m ∧ wardenHas s = true ∧ m.phase = 2 ∧
        m.target = .analysis) ∧
    (∃ (s : State) (m : LifeMark), wardenUp s = true ∧ s.lev.halted = false ∧ s.vault.lifeMark = some m ∧ wardenHas s = true ∧ m.phase = 3 ∧
        m.target = .analysis) := by
  refine ⟨?_, ?_, ?_, ?_, ?_, ?_, ?_, ?_, ?_, ?_, ?_, ?_, ?_, ?_, ?_, ?_⟩
  · refine ⟨{lm (md .owned .scrap 1) with sems := a0.sems}, .portA, 31, 6, -321, md .owned .scrap 1, ?_⟩
    dsimp only [GuardedOpen, BaseOpen]
    decide +kernel
  · refine ⟨lf .shipped (fun l => {l with busy := true, target := 7}), 3, 320, ?_⟩
    dsimp only
    decide +kernel
  · refine ⟨lf .shipped id, .portA, 7, 3, ?_⟩
    dsimp only [GuardedOpen, BaseOpen]
    decide +kernel
  · refine ⟨{a0 with vault := { a0.vault with fuseMark := some (9, 77) }}, 9, 77, ?_⟩
    decide +kernel
  · refine ⟨lf .owned (fun l => {l with rewrites := [9, 10]}), 9, [10], ?_⟩
    decide +kernel
  · refine ⟨wd (lf .shipped (fun l => {l with busy := true, target := 7})), ?_⟩
    decide +kernel
  · refine ⟨wd (lf .raw (fun l => {l with busy := true, target := 7})), ?_⟩
    decide +kernel
  · refine ⟨wd (lf .testOpen (fun l => {l with busy := true, target := 1})), ?_⟩
    decide +kernel
  · refine ⟨{tok id with sram0 := [(4, 7)]}, ?_⟩
    decide +kernel
  · refine ⟨lf .factory (fun l => l), .portA, 31, 144, ?_⟩
    dsimp only [GuardedOpen, BaseOpen]
    decide +kernel
  · refine ⟨{lm (md .owned .scrap 1) with conf := {}}, md .owned .scrap 1, ?_⟩
    decide +kernel
  · refine ⟨lm (md .owned .scrap 1), md .owned .scrap 1, ?_⟩
    decide +kernel
  · refine ⟨{lm (md .owned .scrap 2) with conf := {}}, md .owned .scrap 2, ?_⟩
    decide +kernel
  · refine ⟨lm (md .shipped .owned 2), md .shipped .owned 2, ?_⟩
    decide +kernel
  · refine ⟨{lm (md .owned .analysis 2) with conf := {}}, md .owned .analysis 2, ?_⟩
    decide +kernel
  · refine ⟨{lm (md .owned .analysis 3) with conf := {}}, md .owned .analysis 3, ?_⟩
    decide +kernel

/-- States and operands that meet the hypotheses of each clause of `Obligations.GaugeRecords`. -/
theorem meets_GaugeRecords :
    (∃ (s : State) (code severity : Nat),
      let g := s.gauge
      let stages := journalHeld s = false ∧ 0 < code ∧ severity ≤ 3
      stages ∧ poolTight s = false ∧ g.q = {} ∧ g.own = [] ∧ g.writing = none ∧ g.nextRec % 65536 ≠ 0 ∧ (g.writing = none ∨ journalSent s = true) ∧
          gaugeRuns s = true ∧ s.supply.vin = true ∧ s.supply.vaux = true ∧ (serving s = false ∨ g.replay.state ≠ 1)) ∧
    (∃ (s : State) (code severity : Nat) (e : JEvent),
      let g := s.gauge
      journalHeld s = true ∧ 0 < code ∧ severity ≤ 3 ∧ g.buf.staged.length < 16 ∧ g.writing = some e ∧ journalSent s = false ∧ gaugeRuns s = false) ∧
    (∃ (s : State) (code severity : Nat), (code = 0 ∨ 3 < severity) ∧ (s.supply.vin = false ∨ s.supply.vaux = false) ∧
      let g := s.gauge
      serving s = true ∧ g.replay.state = 1) ∧
    (∃ (s : State) (code severity : Nat) (e : JEvent),
      let g := s.gauge
      let stages := journalHeld s = false ∧ 0 < code ∧ severity ≤ 3
      let full := poolTight s = true ∨ 16 ≤ g.q.staged.length
      stages ∧ g.writing = some e ∧ e.code ≠ code ∧ (¬ full)) ∧
    (∃ (s : State) (code severity : Nat) (e : JEvent),
      let g := s.gauge
      let stages := journalHeld s = false ∧ 0 < code ∧ severity ≤ 3
      let full := poolTight s = true ∨ 16 ≤ g.q.staged.length
      stages ∧ g.writing = some e ∧ e.code ≠ code ∧ full ∧ severity ≤ 1) ∧
    (∃ (s : State) (code severity : Nat) (e : JEvent),
      let g := s.gauge
      let stages := journalHeld s = false ∧ 0 < code ∧ severity ≤ 3
      stages ∧ g.writing = some e ∧ e.code = code ∧ severity < 3 ∧ g.q.cont = none) := by
  refine ⟨?_, ?_, ?_, ?_, ?_, ?_⟩
  · refine ⟨gs {nextRec := 7}, 0x0102, 3, ?_⟩
    dsimp only
    decide +kernel
  · refine ⟨{gs {nextRec := 7, writing := some ev} with lev := { a0.lev with halted := true }}, 0x0101, 1, ev, ?_⟩
    dsimp only
    decide +kernel
  · refine ⟨{gs {nextRec := 7, replay := { state := 1, ends := 5}} with supply := {vin := false}}, 0x0102, 4, ?_⟩
    dsimp only
    decide +kernel
  · refine ⟨gs {nextRec := 7, writing := some ev, q := { staged := [{ ev with cell := some 0 }] }}, 0x0102, 3, ev, ?_⟩
    dsimp only
    decide +kernel
  · refine ⟨low (gs {nextRec := 7, writing := some ev}), 0x0102, 1, ev, ?_⟩
    dsimp only
    decide +kernel
  · refine ⟨gs {nextRec := 7, writing := some ev}, 0x0101, 1, ev, ?_⟩
    dsimp only
    decide +kernel


end Supply

end Sys2Proof.Tests
end

section
/-!
PROOFS. Module and flow (R24 to R37): readiness, acknowledgements, commit records, mirror records, and the supply.
-/
namespace Sys2Proof.ModuleAndFlow

open Sys2Proof.Machine Sys2Proof.Safety Sys2Proof.Laws

variable {s m u : State} {k q : Nat}

/-! ### Folds, steps and dies -/

/-- What every turn of a fold keeps, the fold keeps. -/
theorem foldl_keeps {α β γ : Type} (f : α → γ) {g : α → β → α} (h : ∀ a b, f (g a b) = f a) (l : List β) (a : α) :
    f (l.foldl g a) = f a := by
  induction l generalizing a with
  | nil => rfl
  | cons b l ih => exact (ih (g a b)).trans (h a b)

theorem foldl_unchanged {ps : List Part} {β : Type} {g : State → β → State} (h : ∀ s b, Unchanged ps s (g s b)) (l : List β) (s : State) :
    Unchanged ps s (l.foldl g s) := by
  induction l generalizing s with
  | nil => exact .refl _ _
  | cons b l ih => exact (h s b).trans (ih _)

theorem stepOf_setStep (s : State) (k j : Nat) (t : Step) : stepOf (setStep s k t) j = if k = j then some t else stepOf s j :=
  mget_mput _ _ _ _

theorem ringOf_setRing (s : State) (n p i j : Nat) (x : Ring) :
    ringOf (setRing s n p x) i j = if ringKey n p = ringKey i j then x else ringOf s i j := sget_sset _ _ _ _ _

theorem mramOf_setMram (s : State) (d e : Die) (v : Mram) : mramOf (setMram s d v) e = if d = e then v else mramOf s e := by
  cases d <;> cases e <;> rfl

theorem activeDie_of_no_token (h : s.sw.token = none) : activeDie s = none := by simp [activeDie, h]

/-- Without an active die nothing moves by itself. -/
theorem settle_of_no_token (h : s.sw.token = none) : settle s = s := by simp [settle, serving, activeDie_of_no_token h]

/-! ### What a commit frees: core, Eddy entry and lane -/

/-- The state without cores, cipher lanes and words of the shared SRAM. -/
def withoutCores (s : State) : State := { s with cores := [], lanes := [], sram0 := [], sram1 := [] }

/-- States that agree but for cores, lanes and SRAM words have every other part alike. -/
theorem unchanged_of_withoutCores (h : withoutCores u = withoutCores s) : Unchanged [.cores, .engines, .sram] s u := by
  have fwd : Unchanged [.cores, .engines, .sram] s (withoutCores s) := by
    intro p hp; have h := same_refl p s; cases p <;> first | exact absurd (by decide) hp | exact h
  have bwd : Unchanged [.cores, .engines, .sram] (withoutCores u) u := by
    intro p hp; have h := same_refl p u; cases p <;> first | exact absurd (by decide) hp | exact h
  exact (h ▸ fwd).trans bwd

@[simp] theorem withoutCores_setCore (s : State) (c : Nat) (x : Core) : withoutCores (setCore s c x) = withoutCores s := rfl

@[simp] theorem withoutCores_clearLane (s : State) (c : Nat) : withoutCores (clearLane s c) = withoutCores s := by
  unfold clearLane
  cases curDie s <;> rfl

@[simp] theorem withoutCores_dropLane (s : State) (c k : Nat) : withoutCores (dropLane s c k) = withoutCores s := by
  simp only [dropLane, apply_ite withoutCores, withoutCores_clearLane, ite_self]

@[simp] theorem withoutCores_moveEntry (s : State) (k : Nat) (x : EddyMode) : withoutCores (moveEntry s k x) = withoutCores s := by
  unfold moveEntry
  split
  · exact withoutCores_setCore _ _ _
  · rfl

@[simp] theorem withoutCores_leaveCore (s : State) (k : Nat) : withoutCores (leaveCore s k) = withoutCores s := by
  refine foldl_keeps withoutCores (fun s e => ?_) s.cores s
  simp only [apply_ite withoutCores, withoutCores_setCore, withoutCores_clearLane, ite_self]

/-- R354, R367. -/
@[simp] theorem withoutCores_retire (s : State) (k : Nat) : withoutCores (retire s k) = withoutCores s := by
  unfold retire
  split
  · rw [withoutCores_dropLane, withoutCores_moveEntry]
  · exact withoutCores_leaveCore s k

theorem retire_unchanged (s : State) (k : Nat) : Unchanged [.cores, .engines, .sram] s (retire s k) :=
  unchanged_of_withoutCores (withoutCores_retire s k)

theorem hasPass_retire (s : State) (k j : Nat) : hasPass (retire s k) j = hasPass s j := by
  have passes := congrArg State.passes (withoutCores_retire s k)
  exact congrArg (·.any fun p => p.step == j) passes

/-! ### Records of the mirror link -/

theorem mirrorDone_unchanged (s : State) (n : Nat) : Unchanged [.switch] s (mirrorDone s n) := by
  intro p hp; have h := same_refl p s; cases p <;> first | exact absurd (by decide) hp | exact h

@[simp] theorem stepOf_mirrorDone (s : State) (n k : Nat) : stepOf (mirrorDone s n) k = stepOf s k := rfl

/-- The sender forgets an acknowledged record, also where more than the link has changed since. -/
theorem mirrorRec_of_mirrorDone {n : Nat} (h : u.sw = (mirrorDone s n).sw) : mirrorRec u n = none := by
  simp [mirrorRec, h, mirrorDone, List.find?_filter]

/-! ### The acknowledgement of an admission (R33) -/

theorem admitAcked_cons (s : State) (k : Nat) (ks : List Nat) :
    admitAcked s (.admission (k :: ks)) = admitAcked (admitAcked s (.admission [k])) (.admission ks) := rfl

theorem admitAcked_one {t : Step} (h : stepOf s k = some t) : admitAcked s (.admission [k]) = setStep s k { t with admAcked := true } := by
  simp [admitAcked, h]

theorem admitAcked_one_of_absent (h : stepOf s k = none) : admitAcked s (.admission [k]) = s := by
  simp [admitAcked, h]

theorem stepOf_admitAcked_one (s : State) (k j : Nat) :
    stepOf (admitAcked s (.admission [k])) j = (stepOf s j).map (fun t => if j = k then { t with admAcked := true } else t) := by
  cases h : stepOf s k with
  | none =>
    rw [admitAcked_one_of_absent h]
    by_cases e : j = k
    · subst e; simp [h]
    · simp [e]
  | some t =>
    rw [admitAcked_one h, stepOf_setStep]
    by_cases e : j = k
    · subst e; simp [h]
    · simp [e, Ne.symm e]

/-- Condition (a) holds for every step that the record names, and no other step changes. -/
theorem stepOf_admitAcked (s : State) (ks : List Nat) (j : Nat) :
    stepOf (admitAcked s (.admission ks)) j = (stepOf s j).map (fun t => if j ∈ ks then { t with admAcked := true } else t) := by
  induction ks generalizing s with
  | nil => simp [admitAcked]
  | cons k ks ih =>
    rw [admitAcked_cons, ih, stepOf_admitAcked_one, Option.map_map]
    congr 1
    funext t
    by_cases hk : j = k <;> by_cases hks : j ∈ ks <;> simp [hk, hks]

theorem admitAcked_one_unchanged (s : State) (k : Nat) : Unchanged [.confluence] s (admitAcked s (.admission [k])) := by
  cases h : stepOf s k with
  | none => rw [admitAcked_one_of_absent h]; exact .refl _ _
  | some t => rw [admitAcked_one h]; exact setStep_unchanged _ _

theorem admitAcked_unchanged (s : State) (ks : List Nat) : Unchanged [.confluence] s (admitAcked s (.admission ks)) := by
  induction ks generalizing s with
  | nil => exact .refl _ _
  | cons k ks ih => exact (admitAcked_one_unchanged s k).trans (ih _)

theorem admitAck_of_applied {n : Nat} {x : MirrorRec} {ks : List Nat} (hx : mirrorRec s n = some x) (ha : x.applied = true)
    (hb : x.body = .admission ks) : admitAck n s = settle (admitAcked (mirrorDone s n) (.admission ks)) := by
  simp [admitAck, hx, ha, hb, isAdmit]

/-! ### The acknowledgement of a commit (R33) -/

theorem owe_unchanged (s : State) (n p : Nat) (o : Owed) : Unchanged [.rings] s (owe s n p o) := setRing_unchanged _ _ _

theorem owe_ringsBut (s : State) (n p : Nat) (o : Owed) : RingsBut n p s (owe s n p o) := fun i j h => by
  rw [owe, ringOf_setRing, if_neg (Ne.symm h)]

theorem owed_owe (s : State) (n p : Nat) (o : Owed) : (ringOf (owe s n p o) n p).owed = insertOwed (ringOf s n p).owed o := by
  rw [owe, ringOf_setRing, if_pos rfl]

theorem dropPass_of_no_pass (h : hasPass s k = false) : dropPass s k = s := by
  have : s.passes.find? (fun p => p.step == k) = none := by simpa [hasPass] using h
  simp [dropPass, this]

/-- A committed step without a data pass leaves its slots, and its completion is owed. -/
theorem oweStep_of_no_pass {t : Step} {r : Result} (ht : stepOf s k = some t) (hr : t.result = some r) (hq : t.seq = some q)
    (hc : t.phase = .committed) (hp : hasPass s k = false) :
    oweStep s k = owe (retire s k) t.sliceNo t.pair (owedOf k t r t.final q) := by
  have hret : hasPass (retire s k) k = false := (hasPass_retire s k k).trans hp
  simp [oweStep, ht, hr, hq, isCommitted, hc, hret, dropPass_of_no_pass hret]

theorem commitAck_of_applied {n : Nat} {x : MirrorRec} {t : Step} (hx : mirrorRec s n = some x) (ha : x.applied = true)
    (hb : x.body = .commit k) (ht : stepOf s k = some t) (hm : t.mark = none) : commitAck n s = settle (oweStep (mirrorDone s n) k) := by
  simp [commitAck, commitAcked, hx, ha, hb, hm, isCommit, ht]

/-- Settles O32: what an acknowledgement does is one fold over the named steps, or one completion owed; no other part is in play. -/
theorem acknowledgements : Obligations.Acknowledgements := by
  intro s n k q ks t r x hx hk
  have hdone := mirrorDone_unchanged s n
  refine ⟨fun ha hb hmem => ?_, fun ha hb hr hq hc hm hp => ?_, fun ha => ⟨?_, ?_⟩⟩
  · have hacked := admitAcked_unchanged (mirrorDone s n) ks
    refine givesThen_intro (congrArg (endWith s) (admitAck_of_applied hx ha hb)) ((hdone.mono (by decide)).trans (hacked.mono (by decide)))
      ⟨?_, mirrorRec_of_mirrorDone (hacked .switch (by decide)), fun j _ hj => ?_⟩
    · simp [stepOf_admitAcked, hk, hmem]
    · simp [stepOf_admitAcked, hj]
  · have howe : oweStep (mirrorDone s n) k = owe (retire (mirrorDone s n) k) t.sliceNo t.pair (owedOf k t r t.final q) :=
      oweStep_of_no_pass hk hr hq hc hp
    have hret := retire_unchanged (mirrorDone s n) k
    have hrings : ∀ i j, ringOf (retire (mirrorDone s n) k) i j = ringOf s i j := hret .rings (by decide)
    have hafter : Unchanged [.rings, .cores, .engines, .sram] (mirrorDone s n) (oweStep (mirrorDone s n) k) :=
      (hret.mono (by decide)).trans (howe ▸ (owe_unchanged _ _ _ _).mono (by decide))
    have hconf : (oweStep (mirrorDone s n) k).conf = s.conf := hafter .confluence (by decide)
    refine givesThen_intro (congrArg (endWith s) (commitAck_of_applied hx ha hb hk hm)) ((hdone.mono (by decide)).trans (hafter.mono (by decide)))
      ⟨mirrorRec_of_mirrorDone (hafter .switch (by decide)), fun i j h => ?_, ?_, ?_⟩
    · rw [howe, owe_ringsBut _ _ _ _ i j h, hrings]
    · rw [howe, owed_owe, hrings]
    · rw [stepOf, hconf]; exact hk
  · exact gives_nothing (congrArg (endWith s) (by simp [admitAck, hx, ha]))
  · exact gives_nothing (congrArg (endWith s) (by simp [commitAck, hx, ha]))

/-! ### Readiness where the table of cores lists a core twice -/

/-- A step on core 3 that runs ahead, its function done and its guard not yet committed. -/
def aheadStep : Step :=
  { desc := [], sg := [], sliceNo := 5, pair := 0, sqPos := 0, entry := 0, admNt := 0, level := 0, charge := 0, index := 1, last := 1, chain := 3
    sequential := false, admitSeq := 1, phase := .executing 3, ahead := true, result := some { status := stOk } }

/-- Core 3 is listed twice: a read finds the first listing, which uses no Eddy entry, and the search for the step's entry finds
the second. -/
def coreListedTwice : State :=
  { conf := { steps := [(24, aheadStep)] }, cores := [(3, { exec := some 24 }), (3, { eddy := [{}, ⟨.ahead, 24⟩, {}, {}] })] }

/-- The freed core reads as an idle one, so that both of its listings go, and the step finds no entry to move to. -/
theorem stepReady_coreListedTwice : stepOf (stepReady 24 coreListedTwice) 24 = some aheadStep := by decide +kernel

/-- Refutes O30: nothing asks that a core is listed once. Where core 3 is listed twice, a step that runs ahead loses its entry
as it leaves the core, and stays executing instead of standing in HELD. -/
theorem not_readiness : ¬ Obligations.Readiness := by
  intro h
  obtain ⟨-, -, hahead⟩ := h coreListedTwice 24 3 3 1 aheadStep { status := stOk } (by decide) rfl rfl (by decide)
  obtain ⟨hheld, -⟩ := hahead rfl (by decide) rfl
  obtain ⟨m, t, hexec, hm, ⟨-, hstep, -⟩, ht⟩ := hheld rfl
  have hidle : settle m = m := settle_of_no_token (congrArg Switch.token (hm .switch (by decide)))
  have hconf : t.conf = m.conf := hidle ▸ ht .confluence (by decide)
  have hstays : stepOf t 24 = some aheadStep := by cases hexec; exact stepReady_coreListedTwice
  rw [stepOf, hconf, ← stepOf, hstep] at hstays
  exact absurd (congrArg (Option.map Step.phase) hstays) (by decide)

/-! ### A commit record under the mark of another step -/

/-- A step that is ready to commit under progress mark 0, and has bound slot 7. -/
def markedStep : Step :=
  { desc := [], sg := [], sliceNo := 5, pair := 0, sqPos := 0, entry := 0, admNt := 0, level := 0, charge := 0, index := 0, last := 0, chain := 3
    sequential := false, admitSeq := 1, phase := .ended, admAcked := true, result := some { status := stOk }, mark := some 0
    bound := [{ pos := 0, slot := 7, gen := 1 }] }

/-- Duplex running, where mark 0 is of step 32 and empties slot 7. -/
def markOfOther : State :=
  { die0 := { inService := true }, die1 := { inService := true }, sw := { token := some .d0 }, conf := { steps := [(24, markedStep)] }
    kst := { marks := [(0, { kind := .step 32, sliceNo := 5, slot := 7, clientSeq := 0, framesHeld := true
                             writes := [{ slot := 7, oldDir := {}, newDir := {}, place := 0, frame := {} }] })] } }

/-- The numbering of the mark notes in the step itself that its key is gone (R360). -/
theorem sendStep_markOfOther :
    (stepOf (sendStep markOfOther 24) 24).map (·.bound) = some [{ pos := 0, slot := 7, gen := 1, lost := some stKeyNotFound }] := by
  decide +kernel

/-- Refutes O46: nothing asks that the mark of a step is that step's own. Under the mark of another step the number that the step
takes also changes its bound positions, which the statement leaves as they were. -/
theorem not_commitRecords : ¬ Obligations.CommitRecords := by
  intro h
  obtain ⟨hduplex, -⟩ := h markOfOther 24 24 markedStep { status := stOk } (by decide) rfl (by decide)
  obtain ⟨-, -, hstep, -⟩ := hduplex (by decide)
  have hbound := sendStep_markOfOther
  rw [hstep] at hbound
  exact absurd hbound (by decide)

/-! ### The commit record of a failed CEREMONY_CLOSE -/

/-- A CEREMONY_CLOSE that has its number and fails. -/
def failedClose : Step :=
  { desc := padTo 128 (leBytes 2 0x0803), sg := [], sliceNo := 5, pair := 0, sqPos := 0, entry := 0, admNt := 0, level := 0, charge := 0, index := 0
    last := 0, chain := 3, sequential := false, admitSeq := 1, phase := .ended, admAcked := true, result := some { status := stCeremonyState }
    seq := some 1 }

/-- Its COMMIT record. -/
def closeRecord : MirrorRec := { seq := 0, half := 0, sentNt := 0, body := .commit 24 }

/-- Duplex running, the record arrived, and the ceremony still in APPLYING for the close. -/
def closeFails : State :=
  { die0 := { inService := true }, die1 := { inService := true }, conf := { steps := [(24, failedClose)], commitSeq := 1 }
    sw := { token := some .d0, recs := [closeRecord], nextSeq := 1 }
    cer := [(0, { domain := 6, action := 0x10, mode := .applying, nonce := [], digest := [], params := [], keyPriv := [], keyPub := []
                  expires := 10, closer := some 24 })] }

/-- The commit point of the failed close cancels the ceremony, and the vault keeps the outcome (R309, R311). -/
theorem outcomes_closeFails : (applyNext isCommit closeFails).vault.outcomes.length = 1 := by decide +kernel

/-- Refutes O48: the commit of a CEREMONY_CLOSE that fails adds an outcome to the vault, a part that the clause on COMMIT records
does not list among those that change. -/
theorem not_mirrorRecords : ¬ Obligations.MirrorRecords := by
  intro h
  obtain ⟨hnext, -⟩ := h closeFails .d1 0 1 0 0 0 [] closeRecord [] { kind := .step 24, sliceNo := 5, slot := 7, clientSeq := 0, writes := [] }
    failedClose { status := stCeremonyState } 24 0 0 false false
  obtain ⟨-, -, -, -, -, hcommit, -⟩ := hnext (by decide) (by decide)
  obtain ⟨t, hexec, ht, -⟩ := hcommit rfl (by decide) rfl rfl rfl rfl
  have hvault : t.vault = closeFails.vault := ht .vault (by decide)
  have hgrown : t.vault.outcomes.length = 1 := by cases hexec; exact outcomes_closeFails
  rw [hvault] at hgrown
  exact absurd hgrown (by decide)

/-! ### Events and captures touch registers, ports and what goes out -/

/-- The state without registers, ports and what has left for the hosts. -/
def withoutPages (s : State) : State := { s with regs := [], portA := {}, portB := {}, out := [] }

@[simp] theorem withoutPages_wr (a : Nat) (v : Word) : withoutPages (wr s a v) = withoutPages s := rfl

@[simp] theorem withoutPages_send (o : HostOut) : withoutPages (send s o) = withoutPages s := rfl

@[simp] theorem withoutPages_setPort (x : Port) (v : PortState) : withoutPages (setPort s x v) = withoutPages s := by cases x <;> rfl

@[simp] theorem withoutPages_msixSend (x : Port) (fn vec : Nat) : withoutPages (msixSend s x fn vec) = withoutPages s := by
  simp only [msixSend, apply_ite withoutPages, withoutPages_setPort, withoutPages_send, ite_self]

@[simp] theorem withoutPages_pageIrq (pg : Nat) : withoutPages (pageIrq s pg) = withoutPages s := by
  simp only [pageIrq, apply_ite withoutPages, withoutPages_msixSend, ite_self]

@[simp] theorem withoutPages_raise (pg bit : Nat) : withoutPages (raise s pg bit) = withoutPages s := by
  simp only [raise, raiseBits, apply_ite withoutPages, withoutPages_pageIrq, withoutPages_wr, ite_self]

@[simp] theorem withoutPages_captureAt (pg : Nat) (who : Party) (c a : Nat) (n : Option Nat) :
    withoutPages (captureAt s pg who c a n) = withoutPages s := by
  simp only [captureAt, capture, apply_ite withoutPages, withoutPages_raise, withoutPages_wr, ite_self]

@[simp] theorem withoutPages_answer (who : Party) (v : Word) : withoutPages (answer s who v) = withoutPages s := by
  unfold answer
  split
  · simp only [apply_ite withoutPages, withoutPages_send, ite_self]
  · exact withoutPages_send _

@[simp] theorem withoutPages_aliasDead (e : HeldAccess) : withoutPages (aliasDead s e) = withoutPages s := by
  simp only [aliasDead, apply_ite withoutPages, withoutPages_answer, withoutPages_captureAt, ite_self]

theorem answer_unchanged (who : Party) (v : Word) : Unchanged [.out] s (answer s who v) := by
  unfold answer
  split
  · split
    · exact send_unchanged _
    · exact .refl _ _
  · exact send_unchanged _

theorem aliasDead_unchanged (e : HeldAccess) : Unchanged [.regs, .ports, .out] s (aliasDead s e) := by
  unfold aliasDead
  dsimp only
  split
  · exact captureAt_unchanged _ _ _ _ _
  · exact (captureAt_unchanged _ _ _ _ _).trans ((answer_unchanged _ _).mono (by decide))

/-! ### A journal record that is finished (R461, R509) -/

/-- A journal record stands in the journal ring alone. -/
theorem mramOf_putJournal {γ : Type} (f : Mram → γ) (h : ∀ x j, f { x with journal := j } = f x) (ds : List Die) (n : Nat) (b : List Byte) (d : Die) :
    f (mramOf (putJournal s ds n b) d) = f (mramOf s d) := by
  refine foldl_keeps (fun s => f (mramOf s d)) (fun s e => ?_) ds s
  simp only [mramOf_setMram]
  split
  · next he => subst he; exact h _ _
  · rfl

theorem putJournal_unchanged (ds : List Die) (n : Nat) (b : List Byte) : Unchanged [.stores] s (putJournal s ds n b) :=
  foldl_unchanged (fun _ _ => setMram_unchanged _ _) ds s

theorem finishRecord_unchanged (s : State) : Unchanged [.stores, .gauge] s (finishRecord s) := by
  unfold finishRecord
  split
  · exact .refl _ _
  · exact ((putJournal_unchanged _ _ _).mono (by decide)).trans ((gauge_unchanged _).mono (by decide))

theorem mramOf_finishRecord {γ : Type} (f : Mram → γ) (h : ∀ x j, f { x with journal := j } = f x) (d : Die) :
    f (mramOf (finishRecord s) d) = f (mramOf s d) := by
  unfold finishRecord
  split
  · rfl
  · exact mramOf_putJournal f h _ _ _ d

/-! ### The end of service, and the loss of the main domain (R27, R534) -/

/-- The parts in which the end of service leaves something. -/
def dieParts : List Part :=
  [.regs, .ports, .out, .slices, .rings, .dies, .switch, .confluence, .cores, .keyStore, .engines, .sram, .streams, .random, .measures,
    .gauge, .stores]

/-- The parts in which the loss of the main domain leaves something. -/
def mainParts : List Part := [.sems, .cards, .starts, .supply, .life] ++ dieParts

theorem loseDies_unchanged (s : State) : Unchanged dieParts s (loseDies s) := by
  refine ((finishRecord_unchanged s).mono (by decide)).trans (fun p hp => ?_)
  have h := same_refl p (finishRecord s)
  cases p <;> first | exact absurd (by decide) hp | exact h

theorem endService_unchanged (s : State) : Unchanged dieParts s (endService s) := by
  unfold endService
  dsimp only
  refine Unchanged.trans ?_ (foldl_unchanged (fun _ _ => (aliasDead_unchanged _).mono (by decide)) _ _)
  split
  · exact (loseDies_unchanged s).trans ((raise_unchanged _ _).mono (by decide))
  · exact loseDies_unchanged s

/-- The event of the end of service, and the held accesses that meet no die, change nothing that the dies have lost. -/
theorem withoutPages_endService (s : State) : withoutPages (endService s) = withoutPages (loseDies s) := by
  unfold endService
  dsimp only
  rw [foldl_keeps withoutPages (fun _ _ => withoutPages_aliasDead _)]
  simp only [apply_ite withoutPages, withoutPages_raise, ite_self]

theorem token_endService (s : State) : (endService s).sw.token = none := congrArg (·.sw.token) (withoutPages_endService s)

theorem mainDown_unchanged (s : State) : Unchanged mainParts s (mainDown s) := by
  refine ((endService_unchanged s).mono (by decide)).trans (fun p hp => ?_)
  have h := same_refl p (endService s)
  cases p <;> first | exact absurd (by decide) hp | exact h

/-- `u` holds nothing of what the main domain of `s` held, runs its power-down, and keeps the commit sequence and the contents of
the key store. -/
structure MainIsDown (s u : State) : Prop where
  token : u.sw.token = none
  steps : u.conf.steps = []
  seq   : u.conf.commitSeq = s.conf.commitSeq
  cache : u.kst.cache = []
  rings : u.rings = []
  sram0 : u.sram0 = []
  sram1 : u.sram1 = []
  sems  : u.sems = []
  link  : u.portA.linkUp = false
  due   : u.starts.due = none
  ends  : u.supply.downEnd = some (s.nt.ns + 5000000)
  dirs  : ∀ d, (mramOf u d).dirs = (mramOf s d).dirs
  home  : ∀ d, (mramOf u d).home = (mramOf s d).home

theorem mramOf_mainDown {γ : Type} (f : Mram → γ) (h : ∀ x j, f { x with journal := j } = f x) (d : Die) :
    f (mramOf (mainDown s) d) = f (mramOf s d) := by
  have hd : mramOf (mainDown s) d = mramOf (finishRecord s) d := by
    have lost := congrArg (fun u => mramOf u d) (withoutPages_endService s)
    cases d <;> exact lost
  rw [hd, mramOf_finishRecord f h]

theorem mainDown_isDown (s : State) : MainIsDown s (mainDown s) :=
  have lost {γ : Type} (f : State → γ) : f (withoutPages (endService s)) = f (withoutPages (loseDies s)) :=
    congrArg f (withoutPages_endService s)
  have time : (endService s).nt = s.nt := endService_unchanged s .time (by decide)
  have conf : (finishRecord s).conf = s.conf := finishRecord_unchanged s .confluence (by decide)
  { token := token_endService s
    steps := lost (·.conf.steps)
    seq := (lost (·.conf.commitSeq)).trans (by simp [withoutPages, loseDies, conf])
    cache := lost (·.kst.cache)
    rings := lost (·.rings)
    sram0 := lost (·.sram0)
    sram1 := lost (·.sram1)
    sems := rfl
    link := rfl
    due := rfl
    ends := by simp [mainDown, resetPages, time]
    dirs := mramOf_mainDown Mram.dirs (fun _ _ => rfl)
    home := mramOf_mainDown Mram.home (fun _ _ => rfl) }

theorem vin_mainDown (s : State) : (mainDown s).supply.vin = s.supply.vin := by
  have supply : (endService s).supply = s.supply := endService_unchanged s .supply (by decide)
  simp [mainDown, resetPages, governorOff, supply]

/-- What the answer of a command shows of it. -/
theorem MainIsDown.answer (h : MainIsDown s m) (n p : Nat) (q : List Instr) :
    let u := { m.canon with pending := q }
    activeDie u = none ∧ u.conf.steps = [] ∧ u.kst.cache = [] ∧ ringOf u n p = {} ∧ sramOf u .d0 = [] ∧ sramOf u .d1 = [] ∧
      u.supply.downEnd = some (s.nt.ns + 5000000) ∧ u.starts.due = none ∧ (portOf u .a).linkUp = false ∧ (semOf u 0).holder = none ∧
      u.conf.commitSeq = s.conf.commitSeq ∧
      (∀ d : Die, (mramOf u d).dirs = (mramOf s d).canon.dirs ∧ (mramOf u d).home = (mramOf s d).canon.home) := by
  refine ⟨activeDie_of_no_token h.token, h.steps, h.cache, ?_, ?_, ?_, h.ends, h.due, h.link, ?_, h.seq, fun d => ?_⟩
  · simp [ringOf, State.canon, h.rings, scanon, sget]
  · simp [sramOf, State.canon, h.sram0, scanon]
  · simp [sramOf, State.canon, h.sram1, scanon]
  · simp [semOf, State.canon, h.sems, scanon, sget]
  · have hd := h.dirs d
    have hh := h.home d
    cases d <;> exact ⟨congrArg (scanon _) hd, congrArg (scanon _) hh⟩

/-! ### VIN and the rails (R533, R534) -/

/-- The state with a change of the supply alone. -/
def supplied (s : State) (x : Supply) : State := { s with supply := x }

theorem supplied_unchanged (s : State) (x : Supply) : Unchanged [.supply] s (supplied s x) := by
  intro p hp; have h := same_refl p s; cases p <;> first | exact absurd (by decide) hp | exact h

theorem railsUp_unchanged (s : State) : Unchanged [.starts, .levee] s (railsUp s) := by
  intro p hp; have h := same_refl p s; cases p <;> first | exact absurd (by decide) hp | exact h

theorem railsUp_supplied_unchanged (s : State) (x : Supply) : Unchanged [.supply, .starts, .levee] s (railsUp (supplied s x)) :=
  ((supplied_unchanged s x).mono (by decide)).trans ((railsUp_unchanged _).mono (by decide))

theorem tryRails_up (hv : s.supply.vin = true) (ho : s.supply.alwaysOn = true) (hd : s.supply.downEnd = none) : tryRails s = railsUp s := by
  simp [tryRails, hv, ho, hd]

theorem tryRails_waits (h : s.supply.vin = false ∨ s.supply.alwaysOn = false ∨ s.supply.downEnd ≠ none) : tryRails s = s := by
  rcases h with h | h | h <;> simp [tryRails, h]

theorem vinArrival_eq (h : s.supply.vin = false) : vinArrival s = tryRails (supplied s { s.supply with vin := true }) := by
  simp [vinArrival, h, supplied]

theorem vinLoss_serving (hv : s.supply.vin = true) (ho : s.supply.alwaysOn = true) (hd : s.supply.downEnd = none) :
    vinLoss s = mainDown (supplied s { s.supply with vin := false }) := by
  simp [vinLoss, hv, ho, hd, supplied]

theorem vinLoss_down (hv : s.supply.vin = true) (h : s.supply.alwaysOn = false ∨ s.supply.downEnd ≠ none) :
    vinLoss s = supplied s { s.supply with vin := false } := by
  rcases h with h | h <;> simp [vinLoss, hv, h, supplied]

theorem powerDownDone_eq (h : s.supply.downEnd ≠ none) : powerDownDone s = tryRails (supplied s { s.supply with downEnd := none }) := by
  simp [powerDownDone, h, supplied]

/-! ### VAUX and the battery (R425, R535, R536) -/

/-- The always-on domain on the battery. -/
def onVbat (s : State) : State :=
  { s with
    supply := { s.supply with vaux := false, alwaysOn := false, batteryLow := false }
    regs := s.regs.filter (fun e => !alwaysOnPage e.1)
    lev := leveeOnBattery s.lev
    life := { s.life with staging := [], token := [0, 0, 0, 0], result := 0, target := 0, tokenIx := 0 } }

theorem onVbat_unchanged (s : State) : Unchanged [.supply, .regs, .levee, .life] s (onVbat s) := by
  intro p hp; have h := same_refl p s; cases p <;> first | exact absurd (by decide) hp | exact h

theorem MainIsDown.onVbat (h : MainIsDown s m) : MainIsDown s (onVbat m) :=
  ⟨h.token, h.steps, h.seq, h.cache, h.rings, h.sram0, h.sram1, h.sems, h.link, h.due, h.ends, h.dirs, h.home⟩

theorem vauxLoss_serving (ha : s.supply.vaux = true) (hv : s.supply.vin = true) (ho : s.supply.alwaysOn = true) (hd : s.supply.downEnd = none) :
    vauxLoss s = onVbat (mainDown s) := by
  simp [vauxLoss, ha, hv, ho, hd, onVbat]

theorem vauxLoss_down (ha : s.supply.vaux = true) (h : s.supply.vin = false ∨ s.supply.downEnd ≠ none) : vauxLoss s = onVbat s := by
  rcases h with h | h <;> simp [vauxLoss, ha, h, onVbat]

/-- The always-on domain as it starts on VAUX. -/
def onVaux (s : State) : State :=
  let t := s.vault.ntFloor + 1000000000
  { s with
    supply := { s.supply with vaux := true, alwaysOn := true, downEnd := none }
    nt := { ns := t, since := t, cause := 1 }
    lev := { s.lev with lastTest := t }
    gauge := { s.gauge with lastSecond := t } }

theorem onVaux_unchanged (s : State) : Unchanged [.supply, .time, .levee, .gauge] s (onVaux s) := by
  intro p hp; have h := same_refl p s; cases p <;> first | exact absurd (by decide) hp | exact h

theorem vauxReturn_eq (h : s.supply.vaux = false) : vauxReturn s = tryRails (onVaux s) := by simp [vauxReturn, h, onVaux]

theorem setFlags_unchanged (s : State) (hs : List Nat) : Unchanged [.levee] s (setFlags s hs) := by
  intro p hp; have h := same_refl p s; cases p <;> first | exact absurd (by decide) hp | exact h

theorem zeroiseThree_unchanged (s : State) : Unchanged (.levee :: .vault :: .cards :: dieParts) s (zeroiseThree s) := by
  refine ((endService_unchanged s).mono (by decide)).trans (fun p hp => ?_)
  have h := same_refl p (endService s)
  cases p <;> first | exact absurd (by decide) hp | exact h

theorem lostKept_unchanged (s : State) : Unchanged [.levee, .vault, .free, .keyStore] s (lostKept s) := by
  intro p hp; have h := same_refl p s; cases p <;> first | exact absurd (by decide) hp | exact h

theorem alwaysOnLost_eq (h : s.supply.vaux = false) : alwaysOnLost s = lostKept (zeroiseThree (setFlags s [0x0F])) := by
  simp [alwaysOnLost, h]

theorem alwaysOnLost_unchanged (h : s.supply.vaux = false) : Unchanged (.levee :: .vault :: .free :: mainParts) s (alwaysOnLost s) := by
  rw [alwaysOnLost_eq h]
  exact ((setFlags_unchanged _ _).mono (by decide)).trans <| ((zeroiseThree_unchanged _).mono (by decide)).trans
    ((lostKept_unchanged _).mono (by decide))

/-- Settles O56, command by command: each changes the supply and brings the rails up, takes the main domain down, or waits. -/
theorem powerSupply : Obligations.PowerSupply := by
  intro s n p hon
  dsimp only
  refine ⟨fun hv ha hd => ?vinArrives, fun hv hw => ?vinArrivesDuringPowerDown, fun hv => ?vinIsThere, fun hv ha hd => ?vinFails,
    fun hv hw => ?vinFailsDuringPowerDown, fun hv => ?vinIsAbsent, fun hd hv ha => ?powerIsDownWithVin, fun hd hw => ?powerIsDownWithoutVin,
    fun hd => ?noPowerDown, fun hv ha hd => ?vauxFails, fun hw ha => ?vauxFailsDuringPowerDown, fun ha => ?vauxIsAbsent, fun ha => ?vauxReturns,
    fun ha => ?vauxIsThere, fun ha => ?batteryFails, fun ha => ?batteryUnused⟩
  case vinArrives =>
    exact gives_intro (congrArg (endWith s) ((vinArrival_eq hv).trans (tryRails_up rfl (hon.trans ha) hd))) (railsUp_supplied_unchanged s _)
      ⟨⟨rfl, rfl, rfl⟩, rfl⟩
  case vinArrivesDuringPowerDown =>
    exact gives_intro (congrArg (endWith s) ((vinArrival_eq hv).trans (tryRails_waits (.inr (hw.imp_left hon.trans))))) (supplied_unchanged s _) rfl
  case vinIsThere => exact gives_nothing (congrArg (endWith s) (by simp [vinArrival, hv]))
  case vinFails =>
    exact gives_intro (congrArg (endWith s) (vinLoss_serving hv (hon.trans ha) hd))
      (((supplied_unchanged s _).mono (by decide)).trans ((mainDown_unchanged _).mono (by decide)))
      ⟨(mainDown_isDown _).answer n p _, vin_mainDown _⟩
  case vinFailsDuringPowerDown => exact gives_intro (congrArg (endWith s) (vinLoss_down hv (hw.imp_left hon.trans))) (supplied_unchanged s _) rfl
  case vinIsAbsent => exact gives_nothing (congrArg (endWith s) (by simp [vinLoss, hv]))
  case powerIsDownWithVin =>
    exact gives_intro (congrArg (endWith s) ((powerDownDone_eq hd).trans (tryRails_up hv (hon.trans ha) rfl))) (railsUp_supplied_unchanged s _)
      ⟨⟨rfl, rfl, rfl⟩, rfl⟩
  case powerIsDownWithoutVin =>
    exact gives_intro (congrArg (endWith s) ((powerDownDone_eq hd).trans (tryRails_waits (hw.imp_right (fun h => .inl (hon.trans h))))))
      (supplied_unchanged s _) rfl
  case noPowerDown => exact gives_nothing (congrArg (endWith s) (by simp [powerDownDone, hd]))
  case vauxFails =>
    have hlev : (mainDown s).lev = s.lev := mainDown_unchanged s .levee (by decide)
    have hflags : (mainDown s).lev.flags = s.lev.flags := by rw [hlev]
    have hhalted : (mainDown s).lev.halted = s.lev.halted := by rw [hlev]
    exact gives_intro (congrArg (endWith s) (vauxLoss_serving ha hv (hon.trans ha) hd))
      (((mainDown_unchanged s).mono (by decide)).trans ((onVbat_unchanged _).mono (by decide)))
      ⟨(mainDown_isDown s).onVbat.answer n p _, rfl, rfl, hflags, hhalted, rfl, rfl, rfl⟩
  case vauxFailsDuringPowerDown =>
    exact gives_intro (congrArg (endWith s) (vauxLoss_down ha hw)) (onVbat_unchanged s) ⟨rfl, rfl, rfl, rfl, rfl, rfl, rfl⟩
  case vauxIsAbsent => exact gives_nothing (congrArg (endWith s) (by simp [vauxLoss, ha]))
  case vauxReturns =>
    have hret := vauxReturn_eq ha
    cases hv : s.supply.vin with
    | true =>
      exact gives_intro (congrArg (endWith s) (hret.trans (tryRails_up hv rfl rfl)))
        (((onVaux_unchanged s).mono (by decide)).trans ((railsUp_unchanged _).mono (by decide))) ⟨rfl, rfl, rfl, rfl, fun _ => rfl⟩
    | false =>
      exact gives_intro (congrArg (endWith s) (hret.trans (tryRails_waits (.inl hv)))) ((onVaux_unchanged s).mono (by decide))
        ⟨rfl, rfl, rfl, rfl, fun h => absurd h (by decide)⟩
  case vauxIsThere => exact gives_nothing (congrArg (endWith s) (by simp [vauxReturn, ha]))
  case batteryFails =>
    have hm := alwaysOnLost_eq ha
    exact gives_intro (congrArg (endWith s) hm) (hm ▸ (alwaysOnLost_unchanged ha).mono (by decide))
      ⟨rfl, rfl, rfl, rfl, activeDie_of_no_token (token_endService _), rfl⟩
  case batteryUnused => exact gives_nothing (congrArg (endWith s) (by simp [alwaysOnLost, ha]))

end Sys2Proof.ModuleAndFlow
end

section
/-!
PROOFS. Tokens and bulk (R203 to R229), with the key-store opcodes (R252 to R258): the run of an opcode's function, the life of
a data pass, the sweep of the buffer translation cache, and idle streams.
-/
namespace Sys2Proof.TokensAndBulk

open Sys2Proof.Machine Sys2Proof.Safety Sys2Proof.Laws Sys2Proof.ModuleAndFlow

variable {s m u : State} {k i q op : Nat} {t : Step}

/-! ### Commands and choices -/

theorem unchanged_ite {ps : List Part} {c : Prop} [Decidable c] (h : Unchanged ps s m) (g : Unchanged ps s u) :
    Unchanged ps s (if c then m else u) := by
  split
  · exact h
  · exact g

/-- A command that gives more than is asked. -/
theorem gives_imp {c : Instr} {ps : List Part} {P Q : State → Prop} (h : Gives c s ps P) (hpq : ∀ u, P u → Q u) : Gives c s ps Q := by
  obtain ⟨u, hexec, hu, hp⟩ := h
  exact ⟨u, hexec, hu, hpq u hp⟩

/-! ### The units of a step's core (R366, R371) -/

theorem setDigest_unchanged (d : Die) (engine slot : Nat) (b : Bytes) : Unchanged [.dies] s (setDigest s d engine slot b) :=
  setDie_unchanged _ _

theorem free_unchanged (n : Nat) : Unchanged [.free] s { s with freeCount := n } := by
  intro p hp; have h := same_refl p s; cases p <;> first | exact absurd (by decide) hp | exact h

theorem runDigest_unchanged (c : Nat) (x : FnIn) : Unchanged [.regs, .dies, .free] s (runDigest s c x) := by
  have hashed : ∀ (s : State) (a n e j : Nat) (d : Die) (b : Bytes), Unchanged [.regs, .dies, .free] s (setDigest (bump s a 0 32 n) d e j b) :=
    fun s a n e j d b => ((bump_unchanged _ _ _ _).mono (by decide)).trans ((setDigest_unchanged _ _ _ _).mono (by decide))
  unfold runDigest
  dsimp only
  split
  · exact hashed _ _ _ _ _ _ _
  · refine unchanged_ite (Unchanged.trans ?_ (hashed _ _ _ _ _ _ _)) (.refl _ _)
    exact ((free_unchanged _).trans (free_unchanged _)).mono (by decide)

theorem runLane_unchanged (c k : Nat) (x : FnIn) (res : Result) : Unchanged [.regs, .engines, .ports, .out] s (runLane s c k x res).2 := by
  have counted : Unchanged [.regs, .engines, .ports, .out] s
      (bump (loadLane s c k (laneAccept [] (laneOps x res)).1) (pgLan (curDie s) c + 0x180 + 8 * (c % 16)) 0 32
        (laneCount (laneAccept [] (laneOps x res)).1)) :=
    ((setLane_unchanged _ _).mono (by decide)).trans ((bump_unchanged _ _ _ _).mono (by decide))
  unfold runLane
  dsimp only
  split
  · exact counted.trans (((bump_unchanged _ _ _ _).mono (by decide)).trans ((raise_unchanged _ _).mono (by decide)))
  · exact counted

/-- R366: the lane leaves the result, or refuses an operation. -/
theorem result_runLane (s : State) (c k : Nat) (x : FnIn) (res : Result) : (runLane s c k x res).1 = LaneResult x res := by
  unfold runLane LaneResult
  dsimp only
  split <;> rfl

theorem result_runUnits {c : Nat} (h : t.phase = .executing c) (s : State) (k : Nat) (x : FnIn) (res : Result) :
    (runUnits s k t x res).1 = LaneResult x res := by
  simp only [runUnits, h, result_runLane]

theorem runUnits_unchanged (k : Nat) (t : Step) (x : FnIn) (res : Result) :
    Unchanged [.regs, .engines, .dies, .free, .ports, .out] s (runUnits s k t x res).2 := by
  unfold runUnits
  split
  · exact ((runLane_unchanged _ _ _ _).mono (by decide)).trans ((runDigest_unchanged _ _).mono (by decide))
  · exact .refl _ _

/-! ### Draws (R387 to R389) -/

theorem drbg_vault_unchanged (l : List (Nat × Drbg)) (v : Vault) : Unchanged [.random, .vault] s { s with drbg := l, vault := v } := by
  intro p hp; have h := same_refl p s; cases p <;> first | exact absurd (by decide) hp | exact h

/-- The generator, the seeds and the instantiation count that a step's draws leave. -/
def afterDraws (s : State) (n : Nat) (r : Rnd) : State :=
  setRng { s with drbg := (match r.inst with | some x => mput s.drbg n x | none => s.drbg), vault := { s.vault with instCount := r.count } }
    (curDie s) { rngOf s (curDie s) with seeds := r.seeds }

theorem afterDraws_unchanged (n : Nat) (r : Rnd) : Unchanged [.random, .vault] s (afterDraws s n r) :=
  (drbg_vault_unchanged _ _).trans ((setRng_unchanged _ _).mono (by decide))

/-- Beside the draws themselves only the counter and the event of the seed buffer change. -/
theorem afterDraws_putRnd (n : Nat) (r : Rnd) : Unchanged [.regs, .ports, .out] (afterDraws s n r) (putRnd s n r) := by
  have counted : Unchanged [.regs, .ports, .out] (afterDraws s n r)
      (if (rngOf s (curDie s)).seeds.length = r.seeds.length then afterDraws s n r
        else bump (afterDraws s n r) (pgRng (curDie s) 0 + 0x190) 32 32 ((rngOf s (curDie s)).seeds.length - r.seeds.length)) :=
    unchanged_ite (.refl _ _) ((bump_unchanged _ _ _ _).mono (by decide))
  exact unchanged_ite (counted.trans (raise_unchanged _ _)) counted

theorem putRnd_unchanged (n : Nat) (r : Rnd) : Unchanged [.random, .vault, .regs, .ports, .out] s (putRnd s n r) :=
  ((afterDraws_unchanged n r).mono (by decide)).trans ((afterDraws_putRnd n r).mono (by decide))

theorem vault_putRnd (s : State) (n : Nat) (r : Rnd) : (putRnd s n r).vault = { s.vault with instCount := r.count } := by
  have h : (putRnd s n r).vault = (afterDraws s n r).vault := afterDraws_putRnd n r .vault (by decide)
  rw [h, afterDraws, setRng_vault]

theorem rngOf_setRng (s : State) (d : Die) (x : Rng) : rngOf (setRng s d x) d = x := by cases d <;> rfl

theorem rngOf_of_unchanged {ps : List Part} (h : Unchanged ps s u) (hr : Part.random ∉ ps) (d : Die) : rngOf u d = rngOf s d := by
  obtain ⟨h0, h1, -⟩ := h .random hr
  cases d
  · exact h0
  · exact h1

theorem seeds_putRnd (s : State) (n : Nat) (r : Rnd) : (rngOf (putRnd s n r) (curDie s)).seeds = r.seeds := by
  rw [rngOf_of_unchanged (afterDraws_putRnd n r) (by decide), afterDraws, rngOf_setRng]

/-! ### The result of a function in its step -/

/-- The step with its function's result, as the cipher lane leaves it. -/
def ranStep (s : State) (t : Step) (x : Result) (drawn : List Bytes) : Step :=
  { t with
    result := some { LaneResult (fnInOf s t) x with
      cycles := stepCycles (dOp t.desc) t.desc t.input.length (fnInOf s t).keys + (x.cycles + seedCycles s t)
      drawn := drawn, spends := spentPositions t (LaneResult (fnInOf s t) x).status }
    seedWait := none, job := if usesBnl (dOp t.desc) (LaneResult (fnInOf s t) x).status then .queued else .none }

/-- The counter of the bound key moves beyond the value that a function drew from it (R193, R222). -/
def countDraw (s : State) (t : Step) (res : Result) : State :=
  match res.keys.head?, boundAt t 0 with
  | some (.nonce slot gen v), some _ => counterDrawn s slot gen (v - 1)
  | _, _ => s

/-- The draws of counters alone change in the key-store controller. -/
theorem countDraw_eq (s : State) (t : Step) (res : Result) : ∃ l, countDraw s t res = { s with kst := { s.kst with draws := l } } := by
  unfold countDraw
  split
  · exact ⟨_, rfl⟩
  · exact ⟨s.kst.draws, rfl⟩

theorem kst_unchanged (x : KstState) : Unchanged [.keyStore] s { s with kst := x } := by
  intro p hp; have h := same_refl p s; cases p <;> first | exact absurd (by decide) hp | exact h

theorem countDraw_unchanged (t : Step) (res : Result) : Unchanged [.keyStore] s (countDraw s t res) := by
  obtain ⟨l, h⟩ := countDraw_eq s t res
  exact h ▸ kst_unchanged _

/-- A queued item stands in a ready list and nowhere else. -/
theorem queueJob_eq (s : State) (k : Nat) :
    ∃ b p, queueJob s k = { s with conf := { s.conf with bnlReady := b, pipeReady := p } } := by
  unfold queueJob
  repeat' split
  · exact ⟨s.conf.bnlReady, s.conf.pipeReady, rfl⟩
  · exact ⟨_, s.conf.pipeReady, rfl⟩
  · exact ⟨s.conf.bnlReady, _, rfl⟩
  · exact ⟨s.conf.bnlReady, s.conf.pipeReady, rfl⟩

theorem putResult_eq {c : Nat} (h : t.phase = .executing c) (x : Result) (drawn : List Bytes) (hm : m.nt = s.nt) :
    putResult m k t (fnInOf s t) x drawn =
      queueJob (countDraw (setStep (runUnits m k t (fnInOf s t) x).2 k (ranStep s t x drawn)) t (LaneResult (fnInOf s t) x)) k := by
  have hseed : seedCycles m t = seedCycles s t := by simp only [seedCycles, hm]
  unfold putResult
  dsimp only
  rw [result_runUnits h, hseed]
  rfl

theorem op_of_mayRun (h : mayRun t op = true) : dOp t.desc = op := by
  simp only [mayRun, Bool.and_eq_true, beq_iff_eq] at h
  obtain ⟨⟨⟨⟨⟨⟨hop, -⟩, -⟩, -⟩, -⟩, -⟩, -⟩ := h
  exact hop

theorem executing_of_mayRun (h : mayRun t op = true) : ∃ c, t.phase = .executing c := by
  cases hp : t.phase <;> simp [mayRun, hp] at h ⊢

theorem kst_countDraw (h : u.kst = s.kst) (t : Step) (res : Result) : (countDraw u t res).kst = (countDraw s t res).kst := by
  unfold countDraw
  split
  · simp only [counterDrawn, setDraw, drawOf, h]
  · exact h

/-- What the run of a function leaves (R103, R388): its result, in its own step alone, its draws, and the counter drawn from. -/
theorem putResult_ran {c : Nat} (hc : t.phase = .executing c) (n : Nat) (x : Result) (r : Rnd) (drawn : List Bytes) :
    Unchanged runParts s (putResult (putRnd s n r) k t (fnInOf s t) x drawn) ∧
    Ran k t x r drawn s (putResult (putRnd s n r) k t (fnInOf s t) x drawn) ∧
    (putResult (putRnd s n r) k t (fnInOf s t) x drawn).kst = (countDraw s t (LaneResult (fnInOf s t) x)).kst := by
  have hdraws := putRnd_unchanged (s := s) n r
  rw [putResult_eq hc x drawn (hdraws .time (by decide))]
  have hunits := runUnits_unchanged (s := putRnd s n r) k t (fnInOf s t) x
  generalize (runUnits (putRnd s n r) k t (fnInOf s t) x).2 = v at hunits ⊢
  have hrun := (hdraws.mono (qs := runParts) (by decide)).trans (hunits.mono (by decide))
  have hconf : v.conf = s.conf := (hunits .confluence (by decide)).trans (hdraws .confluence (by decide))
  have hkst : v.kst = s.kst := (hunits .keyStore (by decide)).trans (hdraws .keyStore (by decide))
  have hvault : v.vault = { s.vault with instCount := r.count } := (hunits .vault (by decide)).trans (vault_putRnd s n r)
  have hseeds : (rngOf v (curDie s)).seeds = r.seeds := by
    rw [rngOf_of_unchanged hunits (by decide), seeds_putRnd]
  have hset := setStep_unchanged (s := v) k (ranStep s t x drawn)
  have hsteps : ∀ j, stepOf (setStep v k (ranStep s t x drawn)) j = if k = j then some (ranStep s t x drawn) else stepOf s j := by
    intro j
    rw [stepOf_setStep, stepOf, hconf, ← stepOf]
  have hseq : (setStep v k (ranStep s t x drawn)).conf.commitSeq = s.conf.commitSeq := congrArg (·.commitSeq) hconf
  generalize setStep v k (ranStep s t x drawn) = w at hset hsteps hseq ⊢
  have hwkst : w.kst = s.kst := (hset .keyStore (by decide)).trans hkst
  have hwseeds : (rngOf w (curDie s)).seeds = r.seeds := by rw [rngOf_of_unchanged hset (by decide), hseeds]
  obtain ⟨l, hl⟩ := countDraw_eq w t (LaneResult (fnInOf s t) x)
  obtain ⟨b, p, hq⟩ := queueJob_eq (countDraw w t (LaneResult (fnInOf s t) x)) k
  rw [hq]
  refine ⟨(hrun.trans (hset.mono (by decide))).trans (((countDraw_unchanged _ _).mono (by decide)).trans ((conf_unchanged _).mono (by decide))),
    ?_, kst_countDraw hwkst _ _⟩
  rw [hl]
  exact ⟨fun j hj => (hsteps j).trans (if_neg (Ne.symm hj)), (hsteps k).trans (if_pos rfl), (hset .vault (by decide)).trans hvault, hwseeds,
    congrArg (·.marks) hwkst, congrArg (·.cache) hwkst, hseq⟩

/-! ### Rows of opcodes -/

theorem runOp_of_mayRun {f : OpFn} {x : Result} {r : Rnd} (ht : stepOf s k = some t) (hm : mayRun t op = true)
    (hx : f s t (fnInOf s t) (rndOf s (instanceOf t)) = (x, r)) (hd : r.dry = false) :
    runOp k op f s = putResult (putRnd s (instanceOf t) r) k t (fnInOf s t) x r.drawn := by
  simp [runOp, ht, hm, hx, hd]

theorem runOp_of_dry {f : OpFn} (ht : stepOf s k = some t) (hm : mayRun t op = true)
    (hd : (f s t (fnInOf s t) (rndOf s (instanceOf t))).2.dry = true) :
    runOp k op f s = setStep s k { t with seedWait := some (t.seedWait.getD s.nt.ns) } := by
  simp [runOp, ht, hm, hd]

/-- A row whose function was not left dry: its result stands in the step, and the counter that it drew from has moved. -/
theorem runOp_gives {c : Instr} {f : OpFn} {x : Result} {r : Rnd} (hc : exec c s = endWith s (runOp k op f s)) (ht : stepOf s k = some t)
    (hm : mayRun t op = true) (hx : f s t (fnInOf s t) (rndOf s (instanceOf t)) = (x, r)) (hd : r.dry = false) :
    Gives c s runParts (fun u => Ran k t x r r.drawn s u ∧ u.kst = (countDraw s t (LaneResult (fnInOf s t) x)).kst) := by
  obtain ⟨b, hphase⟩ := executing_of_mayRun hm
  obtain ⟨hu, hran, hkst⟩ := putResult_ran (s := s) (k := k) hphase (instanceOf t) x r r.drawn
  exact gives_intro (hc.trans (congrArg (endWith s) (runOp_of_mayRun ht hm hx hd))) hu ⟨hran, hkst⟩

/-- A row whose function draws no random bits is never left dry. -/
theorem runOp_gives_of_pure {c : Instr} {f : OpFn} (hc : exec c s = endWith s (runOp k op f s)) (ht : stepOf s k = some t)
    (hm : mayRun t op = true) (hf : (f s t (fnInOf s t) (rndOf s (instanceOf t))).2 = rndOf s (instanceOf t)) :
    Gives c s runParts (fun u => Ran k t (f s t (fnInOf s t) (rndOf s (instanceOf t))).1 (rndOf s (instanceOf t)) [] s u ∧
      u.kst = (countDraw s t (LaneResult (fnInOf s t) (f s t (fnInOf s t) (rndOf s (instanceOf t))).1)).kst) :=
  runOp_gives hc ht hm (x := (f s t (fnInOf s t) (rndOf s (instanceOf t))).1) (r := rndOf s (instanceOf t))
    (Prod.ext rfl hf) rfl

theorem runsPure_of_exec {c : Nat → Instr} {f : OpFn} (hc : exec (c k) s = endWith s (runOp k op f s))
    (hf : (f s t (fnInOf s t) (rndOf s (instanceOf t))).2 = rndOf s (instanceOf t)) (ht : stepOf s k = some t) : RunsPure c op f s k t :=
  fun hm => gives_imp (runOp_gives_of_pure hc ht hm hf) (fun _ h => h.1)

theorem runsOp_of_exec {c : Nat → Instr} {f : OpFn} (hc : exec (c k) s = endWith s (runOp k op f s)) (ht : stepOf s k = some t) :
    RunsOp c op f s k t := by
  refine fun hm => ⟨fun hd => gives_imp (runOp_gives hc ht hm (Prod.eta _).symm hd) (fun _ h => h.1), fun hd => ?_⟩
  exact gives_intro (hc.trans (congrArg (endWith s) (runOp_of_dry ht hm hd))) (setStep_unchanged _ _)
    ⟨fun j hj => (stepOf_setStep _ _ _ _).trans (if_neg (Ne.symm hj)), (stepOf_setStep _ _ _ _).trans (if_pos rfl)⟩

/-! ### Counters (R193, R222) -/

/-- The counter of a generation is one that serves it. -/
theorem gens_drawOf (s : State) (slot gen : Nat) : gen ∈ (drawOf s slot gen).gens := by
  unfold drawOf
  cases h : ((mget s.kst.draws slot).getD []).find? (fun c => c.gens.contains gen) with
  | none => simp
  | some c => simpa using List.find?_some h

theorem drawOf_setDraw (s : State) (slot gen : Nat) (c : CounterDraw) (h : gen ∈ c.gens) : drawOf (setDraw s slot c) slot gen = c := by
  have others : (((mget s.kst.draws slot).getD []).filter (fun x => !x.gens.any (fun g => c.gens.contains g))).find?
      (fun x => x.gens.contains gen) = none := by
    rw [List.find?_eq_none]
    intro x hx hgen
    have hapart := (List.mem_filter.mp hx).2
    simp only [Bool.not_eq_true', List.any_eq_false, List.contains_iff_mem] at hapart hgen
    exact hapart gen hgen h
  rw [drawOf, setDraw]
  simp only [mget_mput_self, Option.getD_some, List.find?_append, others]
  simp [h]

/-- A drawn value lies below every later draw of its counter. -/
theorem drawOf_counterDrawn (s : State) (slot gen v : Nat) :
    (drawOf (counterDrawn s slot gen v) slot gen).next = max (drawOf s slot gen).next (v + 1) :=
  congrArg CounterDraw.next (drawOf_setDraw s slot gen { drawOf s slot gen with next := max (drawOf s slot gen).next (v + 1) }
    (gens_drawOf s slot gen))

theorem drawOf_of_kst (h : u.kst = s.kst) (slot gen : Nat) : drawOf u slot gen = drawOf s slot gen := by
  rw [drawOf, h, ← drawOf]

theorem drawOf_le_nextCounter (s : State) (slot gen : Nat) (r : KeyRecord) : (drawOf s slot gen).next ≤ nextCounter s slot gen r :=
  Nat.le_max_left _ _

/-- The bulk opcodes use no cipher lane of their core. -/
theorem laneResult_of_bulk {x : FnIn} (hop : x.op / 256 = 4) (hbulk : 0x0410 ≤ x.op) (res : Result) : LaneResult x res = res := by
  have hlane : laneOps x res = [] := by simp [laneOps, hop, Nat.not_lt.mpr hbulk]
  simp [LaneResult, hlane, laneAccept]

theorem fnBulkOpen_rnd (s : State) (t : Step) (x : FnIn) (r : Rnd) : (fnBulkOpen s t x r).2 = r := by
  unfold fnBulkOpen
  dsimp only
  repeat' split
  all_goals rfl

theorem fnBulkSegment_rnd (s : State) (t : Step) (x : FnIn) (r : Rnd) : (fnBulkSegment s t x r).2 = r := by
  unfold fnBulkSegment
  dsimp only
  repeat' split
  all_goals rfl

theorem fnBulkClose_rnd (s : State) (t : Step) (x : FnIn) (r : Rnd) : (fnBulkClose s t x r).2 = r := by
  unfold fnBulkClose
  split <;> rfl

/-- The nonce that a BULK_OPEN draws is drawn once (R222). -/
theorem bulkOpen_draws {v slot gen : Nat} {b : Bound} (rec : KeyRecord) (ht : stepOf s k = some t) (hm : mayRun t 0x0411 = true)
    (hb : boundAt t 0 = some b) (hkeys : (fnBulkOpen s t (fnInOf s t) (rndOf s t.sliceNo)).1.keys = [.nonce slot gen (v + 1)]) :
    Gives (.bulkOpen k) s runParts (fun u =>
      (drawOf u slot gen).next = max (drawOf s slot gen).next (v + 1) ∧ v < nextCounter u slot gen rec) := by
  have hop : dOp t.desc = 0x0411 := op_of_mayRun hm
  have hinst : instanceOf t = t.sliceNo := by simp [instanceOf, hop]
  have hlane := laneResult_of_bulk (x := fnInOf s t) (by simp [fnInOf, hop]) (by simp [fnInOf, hop])
  have hgives := runOp_gives_of_pure (c := .bulkOpen k) (f := opBulkOpen) rfl ht hm (fnBulkOpen_rnd _ _ _ _)
  refine gives_imp hgives (fun u h => ?_)
  obtain ⟨-, hkst⟩ := h
  rw [hlane, hinst] at hkst
  have hcount : countDraw s t (opBulkOpen s t (fnInOf s t) (rndOf s t.sliceNo)).1 = counterDrawn s slot gen v := by
    rw [opBulkOpen, countDraw, hkeys, hb]
    rfl
  have hnext : (drawOf u slot gen).next = max (drawOf s slot gen).next (v + 1) := by
    rw [drawOf_of_kst hkst, hcount, drawOf_counterDrawn]
  have hle := drawOf_le_nextCounter u slot gen rec
  exact ⟨hnext, by omega⟩

/-- Settles O41: every row runs its function in one command, and BULK_OPEN moves the counter that it drew its nonce from. -/
theorem tokenBulkAndKeyRequests : Obligations.TokenBulkAndKeyRequests := by
  intro s k v slot gen t b rec ht
  exact ⟨bulkOpen_draws rec ht, runsPure_of_exec rfl rfl ht, runsPure_of_exec rfl rfl ht, runsPure_of_exec rfl (fnBulkOpen_rnd _ _ _ _) ht,
    runsPure_of_exec rfl (fnBulkSegment_rnd _ _ _ _) ht, runsPure_of_exec rfl (fnBulkClose_rnd _ _ _ _) ht, runsPure_of_exec rfl rfl ht,
    runsOp_of_exec rfl ht, runsPure_of_exec rfl rfl ht, runsOp_of_exec rfl ht, runsOp_of_exec rfl ht, runsPure_of_exec rfl rfl ht,
    runsPure_of_exec rfl rfl ht, runsPure_of_exec rfl rfl ht, runsPure_of_exec rfl rfl ht, runsPure_of_exec rfl rfl ht,
    runsPure_of_exec rfl rfl ht⟩

/-! ### Trace items (R340, R358) -/

/-- The Confluence without its trace queue and the low mark of the Pool. -/
def withoutTrace (c : Confluence) : Confluence := { c with trace := { cap := 0 }, poolMin := 0 }

theorem conf_raise (s : State) (pg bit : Nat) : (raise s pg bit).conf = s.conf := raise_unchanged pg bit .confluence (by decide)

theorem withoutTrace_poolWatch (n : Nat) (s : State) : withoutTrace (poolWatch n s).conf = withoutTrace s.conf := by
  have least : ∀ l, withoutTrace { s.conf with poolMin := l } = withoutTrace s.conf := fun _ => rfl
  simp only [poolWatch, apply_ite State.conf, conf_raise, ite_self, least]

theorem withoutTrace_traceWrite (s : State) (kind n : Nat) (b : Bytes) : withoutTrace (traceWrite s kind n b).conf = withoutTrace s.conf := by
  have queued : ∀ x, withoutTrace { s.conf with trace := x } = withoutTrace s.conf := fun _ => rfl
  unfold traceWrite
  dsimp only
  split
  · simp only [withoutTrace_poolWatch, apply_ite State.conf, conf_raise, bump_conf, ite_self, queued]
  · rw [bump_conf]

theorem traceStep_unchanged (k kind unit slot : Nat) : Unchanged [.confluence, .regs, .ports, .out] s (traceStep s k kind unit slot) := by
  unfold traceStep
  repeat' split
  · exact .refl _ _
  · exact (setStep_unchanged _ _).mono (by decide)
  · exact (conf_unchanged _).mono (by decide)
  · exact (traceWrite_unchanged _ _ _).mono (by decide)

/-- A change of one step that does not change it leaves every step. -/
theorem stepOf_eq_map {f : Step → Step} (h : ∀ t, stepOf s k = some t → f t = t) (j : Nat) :
    stepOf s j = (stepOf s j).map (fun t => if j = k then f t else t) := by
  cases hj : stepOf s j with
  | none => rfl
  | some t =>
    by_cases e : j = k
    · subst e; simp [h t hj]
    · simp [e]

/-- A trace item of a step is written, or held in the step itself. -/
theorem conf_traceStep (s : State) (k kind unit slot : Nat) :
    (traceStep s k kind unit slot).conf.pipeReady = s.conf.pipeReady ∧
    ∃ l, ∀ j, stepOf (traceStep s k kind unit slot) j = (stepOf s j).map (fun t => if j = k then { t with heldTrace := l } else t) := by
  have unheld : ∀ {u : State} {t : Step}, stepOf s k = some t → withoutTrace u.conf = withoutTrace s.conf →
      u.conf.pipeReady = s.conf.pipeReady ∧
        ∃ l, ∀ j, stepOf u j = (stepOf s j).map (fun t => if j = k then { t with heldTrace := l } else t) := by
    intro u t ht h
    have hlists : (withoutTrace u.conf).pipeReady = (withoutTrace s.conf).pipeReady := congrArg Confluence.pipeReady h
    have hsteps : (withoutTrace u.conf).steps = (withoutTrace s.conf).steps := congrArg Confluence.steps h
    have hsame : ∀ j, stepOf u j = stepOf s j := fun j => congrArg (mget · j) hsteps
    refine ⟨hlists, t.heldTrace, fun j => (hsame j).trans (stepOf_eq_map (fun t' ht' => ?_) j)⟩
    rw [ht] at ht'
    cases ht'
    rfl
  unfold traceStep
  cases ht : stepOf s k with
  | none => exact ⟨rfl, [], stepOf_eq_map (fun t ht' => by rw [ht] at ht'; cases ht')⟩
  | some t =>
    dsimp only
    split
    · split
      · refine ⟨rfl, t.heldTrace ++ [traceItem s k t kind unit slot], fun j => ?_⟩
        rw [stepOf_setStep]
        by_cases e : j = k
        · subst e; simp [ht]
        · simp [e, Ne.symm e]
      · exact unheld ht rfl
    · exact unheld ht (withoutTrace_traceWrite _ _ _ _)

/-! ### Pipelines (R228, R370) -/

theorem pipeOf_setPipe (s : State) (i j : Nat) (x : Pipe) : pipeOf (setPipe s i x) j = if i = j then x else pipeOf s j := sget_sset _ _ _ _ _

theorem noteSuspend_unchanged (i : Nat) : Unchanged [.regs, .ports, .out] s (noteSuspend s i) :=
  ((bump_unchanged _ _ _ _).mono (by decide)).trans (raise_unchanged _ _)

/-- A pass that a pipeline takes runs there; what ran there is suspended. -/
theorem startOn_sets (s : State) (i k : Nat) :
    ∃ l, Unchanged [.regs, .ports, .out] (setPipe s i { pipeOf s i with running := some k, suspended := l }) (startOn s i k) := by
  unfold startOn
  dsimp only
  split
  · exact ⟨(pipeOf s i).suspended, .refl _ _⟩
  · exact ⟨_, noteSuspend_unchanged i⟩

/-- A hand-over to a pipeline: the step's pass runs there, and the trace has it (R340). -/
structure HandedOver (k i : Nat) (s u : State) : Prop where
  unchanged : Unchanged [.confluence, .engines, .regs, .ports, .out] s u
  passes : u.passes = s.passes
  runs : (pipeOf u i).running = some k
  lists : u.conf.pipeReady = s.conf.pipeReady
  steps : ∃ l, ∀ j, stepOf u j = (stepOf s j).map (fun t => if j = k then { t with heldTrace := l } else t)

theorem handedOver_startOn (s : State) (i k : Nat) : HandedOver k i s (traceStep (startOn s i k) k 4 i 0) := by
  obtain ⟨l, hstart⟩ := startOn_sets s i k
  have htrace := traceStep_unchanged (s := startOn s i k) k 4 i 0
  have hconf : (startOn s i k).conf = s.conf := hstart .confluence (by decide)
  obtain ⟨hlists, held, hsteps⟩ := conf_traceStep (startOn s i k) k 4 i 0
  obtain ⟨-, hpipes, -, hpasses⟩ := (hstart.mono (qs := [.confluence, .regs, .ports, .out]) (by decide)).trans htrace .engines (by decide)
  refine ⟨?_, hpasses, ?_, by rw [hlists, hconf], held, fun j => ?_⟩
  · exact ((setPipe_unchanged _ _).mono (by decide)).trans ((hstart.mono (by decide)).trans (htrace.mono (by decide)))
  · rw [pipeOf, hpipes, ← pipeOf, pipeOf_setPipe, if_pos rfl]
  · rw [hsteps, stepOf, hconf, ← stepOf]

theorem HandedOver.others {k i j : Nat} (h : HandedOver k i s u) (hj : j ≠ k) : stepOf u j = stepOf s j := by
  obtain ⟨l, hsteps⟩ := h.steps
  simp [hsteps, hj]

theorem HandedOver.accepted {k i : Nat} (h : HandedOver k i s u) : (stepOf u k).map (·.accepted) = (stepOf s k).map (·.accepted) := by
  obtain ⟨l, hsteps⟩ := h.steps
  simp [hsteps, Function.comp_def]

theorem listOf_setPipeList (s : State) (level : Nat) (l : List Nat) : listOf (setPipeList s level l).conf.pipeReady level = l :=
  sget_sset_self _ _ _ _

theorem setPipeList_unchanged (level : Nat) (l : List Nat) : Unchanged [.confluence] s (setPipeList s level l) := conf_unchanged _

theorem passes_unchanged (l : List Pass) : Unchanged [.engines] s { s with passes := l } := by
  intro p hp; have h := same_refl p s; cases p <;> first | exact absurd (by decide) hp | exact h

/-! ### Acceptance (R228) -/

/-- The step's item leaves its pipeline ready list. -/
def offPipeList (s : State) (k : Nat) (t : Step) : State :=
  setPipeList s t.level ((listOf s.conf.pipeReady t.level).filter (fun y => y != k))

/-- The step's pass is accepted, and its step with it. -/
def acceptNew (s : State) (k i : Nat) (t : Step) (x : Port) : State :=
  setStep { offPipeList s k t with passes := s.passes ++ [passOf s k i t x] } k { t with accepted := true }

theorem not_mem_offPipeList (s : State) (k : Nat) (t : Step) : k ∉ listOf (offPipeList s k t).conf.pipeReady t.level := by
  rw [offPipeList, listOf_setPipeList]
  simp

section Accept

variable {x : Port} (hs : serving s = true) (hhead : headOfLists s.conf.pipeReady = some k) (ht : stepOf s k = some t)
  (hx : stepPort s t = some x)

include hs hhead ht hx

theorem passAccept_of_new (hp : hasPass s k = false) (hport : portTakes s x (leAt t.desc 72 8) = true) (hpipe : pipeTakes s i t.level = true) :
    passAccept i s = traceStep (startOn (acceptNew s k i t x) i k) k 4 i 0 := by
  simp only [passAccept, hs, hhead, ht, hx, hp, hport, hpipe, Bool.not_true, Bool.and_true, Bool.false_eq_true, if_false]
  rfl

theorem passAccept_of_placed (hp : hasPass s k = true) (hpipe : pipeTakes s i t.level = true) :
    passAccept i s = placeOn (offPipeList s k t) i k := by
  simp only [passAccept, hs, hhead, ht, hx, hp, hpipe, Bool.not_true, Bool.false_eq_true, if_true, if_false]
  rfl

theorem passAccept_of_full (hp : hasPass s k = false) (hport : portTakes s x (leAt t.desc 72 8) = false) : passAccept i s = s := by
  simp [passAccept, hs, hhead, ht, hx, hp, hport]

/-- A new pass is accepted with its step (R228). -/
theorem dataPassAccept_of_new (hpipe : pipeTakes s i t.level = true) (hp : hasPass s k = false)
    (hport : portTakes s x (leAt t.desc 72 8) = true) :
    Gives (.dataPassAccept i) s [.confluence, .engines, .regs, .ports, .out] (fun u => StepsBut k s u ∧
      u.passes = s.passes ++ [passOf s k i t x] ∧ (pipeOf u i).running = some k ∧ (stepOf u k).map (·.accepted) = some true ∧
      k ∉ listOf u.conf.pipeReady t.level) := by
  have hover := handedOver_startOn (acceptNew s k i t x) i k
  have hoff : Unchanged [.confluence, .engines, .regs, .ports, .out] s { offPipeList s k t with passes := s.passes ++ [passOf s k i t x] } :=
    ((setPipeList_unchanged _ _).mono (by decide)).trans ((passes_unchanged _).mono (by decide))
  refine gives_intro (congrArg (endWith s) (passAccept_of_new hs hhead ht hx hp hport hpipe))
    (hoff.trans (((setStep_unchanged _ _).mono (by decide)).trans hover.unchanged)) ⟨fun j hj => ?_, hover.passes, hover.runs, ?_, ?_⟩
  · refine (hover.others hj).trans ?_
    rw [acceptNew, stepOf_setStep, if_neg (Ne.symm hj)]
    rfl
  · refine hover.accepted.trans ?_
    rw [acceptNew, stepOf_setStep, if_pos rfl]
    rfl
  · intro hmem
    exact not_mem_offPipeList s k t (hover.lists ▸ hmem)

/-- A pass that lost its pipeline goes on (R228). -/
theorem dataPassAccept_of_placed (hpipe : pipeTakes s i t.level = true) (hp : hasPass s k = true) :
    Gives (.dataPassAccept i) s [.confluence, .engines, .regs, .ports, .out] (fun u => StepsBut k s u ∧
      u.passes = s.passes.map (fun z => if z.step = k then { z with pipe := i } else z) ∧ (pipeOf u i).running = some k ∧
      k ∉ listOf u.conf.pipeReady t.level) := by
  have hover := handedOver_startOn
    { offPipeList s k t with passes := s.passes.map (fun z => if z.step = k then { z with pipe := i } else z) } i k
  have hoff : Unchanged [.confluence, .engines, .regs, .ports, .out] s
      { offPipeList s k t with passes := s.passes.map (fun z => if z.step = k then { z with pipe := i } else z) } :=
    ((setPipeList_unchanged _ _).mono (by decide)).trans ((passes_unchanged _).mono (by decide))
  exact gives_intro (congrArg (endWith s) (passAccept_of_placed hs hhead ht hx hp hpipe)) (hoff.trans hover.unchanged)
    ⟨fun j hj => hover.others hj, hover.passes, hover.runs, fun hmem => not_mem_offPipeList s k t (hover.lists ▸ hmem)⟩

end Accept

/-! ### The end of a pass (R227, R229) -/

theorem resumePipe_unchanged (i : Nat) : Unchanged [.engines] s (resumePipe s i) := by
  unfold resumePipe
  dsimp only
  repeat' split
  · exact .refl _ _
  · exact .refl _ _
  · exact setPipe_unchanged _ _

theorem dropPass_unchanged (k : Nat) : Unchanged [.engines] s (dropPass s k) := by
  unfold dropPass
  split
  · exact .refl _ _
  · exact (passes_unchanged _).trans ((setPipe_unchanged _ _).trans (resumePipe_unchanged _))

theorem passes_resumePipe (s : State) (i : Nat) : (resumePipe s i).passes = s.passes := by
  unfold resumePipe
  dsimp only
  repeat' split
  all_goals rfl

theorem hasPass_dropPass (s : State) (k : Nat) : hasPass (dropPass s k) k = false := by
  unfold dropPass hasPass
  split
  · next h => simpa using h
  · rw [passes_resumePipe]
    simp [setPipe]

/-- The pass of a step is gone, and the step's completion is owed once. -/
def CompletionOwed (k : Nat) (t : Step) (o : Owed) (s u : State) : Prop :=
  RingsBut t.sliceNo t.pair s u ∧ hasPass u k = false ∧
    ringOf u t.sliceNo t.pair = { ringOf s t.sliceNo t.pair with owed := insertOwed (ringOf s t.sliceNo t.pair).owed o }

theorem completionOwed_owe_dropPass {ps : List Part} (h : Unchanged ps s m) (hr : Part.rings ∉ ps) (k : Nat) (t : Step) (o : Owed) :
    CompletionOwed k t o s (owe (dropPass m k) t.sliceNo t.pair o) := by
  have hrings : ∀ n p, ringOf (dropPass m k) n p = ringOf s n p := fun n p =>
    (dropPass_unchanged k .rings (by decide) n p).trans (h .rings hr n p)
  refine ⟨fun n p hne => ?_, hasPass_dropPass m k, ?_⟩
  · rw [owe_ringsBut _ _ _ _ n p hne, hrings]
  · rw [owe, ringOf_setRing, if_pos rfl, hrings]

theorem CompletionOwed.of_rings {o : Owed} (h : CompletionOwed k t o m u) (hrings : ∀ n p, ringOf m n p = ringOf s n p) :
    CompletionOwed k t o s u := by
  obtain ⟨hothers, hgone, howed⟩ := h
  exact ⟨fun n p hne => (hothers n p hne).trans (hrings n p), hgone, by rw [howed, hrings]⟩

/-- The completion of a step whose pass failed after its commit: the status, and no output (R229). -/
def failedOwed (k : Nat) (t : Step) (q : Nat) (st : Status) : Owed :=
  { seq := q, bytes := completionBytes t.desc st [] 0 q t.commitNt, ext := [], segs := [], signal := dSignal t.desc, step := some k
    entry := t.entry }

theorem faultJournal_unchanged (t : Step) (st : Status) : Unchanged [.regs, .gauge, .switch] s (faultJournal s t st) := by
  unfold faultJournal
  split
  · exact journal_unchanged _
  · exact .refl _ _

theorem abandonPass_of_started {p : Pass} (ht : stepOf s k = some t) (hp : s.passes.find? (fun z => z.step == k) = some p)
    (hstart : p.started = true) (hq : t.seq = some q) (st : Status) :
    abandonPass s k st = owe (dropPass (faultJournal s t st) k) t.sliceNo t.pair (failedOwed k t q st) := by
  simp [abandonPass, ht, hp, hq, hstart, failedOwed]

/-- A pass that waits for its commit keeps the status for its start, whether or not the step has its number. -/
theorem abandonPass_of_waiting {p : Pass} (ht : stepOf s k = some t) (hp : s.passes.find? (fun z => z.step == k) = some p)
    (hwait : p.started = false) (st : Status) :
    abandonPass s k st = { s with passes := s.passes.map (fun z => if z.step = k then { z with doom := some (z.doom.getD st) } else z) } := by
  cases hq : t.seq <;> simp [abandonPass, ht, hp, hq, hwait]

theorem abandonPass_of_started_owed {p : Pass} (ht : stepOf s k = some t) (hp : s.passes.find? (fun z => z.step == k) = some p)
    (hstart : p.started = true) (hq : t.seq = some q) (st : Status) :
    Unchanged [.engines, .rings, .regs, .gauge, .switch] s (abandonPass s k st) ∧
      CompletionOwed k t (failedOwed k t q st) s (abandonPass s k st) := by
  have hjournal := faultJournal_unchanged (s := s) t st
  rw [abandonPass_of_started ht hp hstart hq]
  exact ⟨(hjournal.mono (by decide)).trans (((dropPass_unchanged k).mono (by decide)).trans ((owe_unchanged _ _ _ _).mono (by decide))),
    completionOwed_owe_dropPass hjournal (by decide) k t _⟩

/-! ### A running pass -/

theorem passReads_unchanged (p : Pass) : Unchanged [.out] s (passReads s p) := foldl_unchanged (fun _ _ => send_unchanged _) _ _

theorem writeSegs_unchanged (x : Port) (pasid : BitVec 20) (b : Bytes) (l : List SgEntry) : Unchanged [.out] s (writeSegs s x pasid b l) := by
  induction l generalizing s b with
  | nil => exact .refl _ _
  | cons g l ih =>
    unfold writeSegs
    split
    · exact .refl _ _
    · exact (send_unchanged _).trans (ih _)

/-- A pipeline runs a step's pass: it is the first pass of the step, and its commit has started it. -/
structure PassRuns (s : State) (i k : Nat) (p : Pass) : Prop where
  running : runningPass s i = some p
  found : s.passes.find? (fun z => z.step == k) = some p

theorem PassRuns.step {p : Pass} (h : PassRuns s i k p) : p.step = k := by simpa using List.find?_some h.found

theorem PassRuns.started {p : Pass} (h : PassRuns s i k p) : p.started = true := by
  have hrun := h.running
  unfold runningPass at hrun
  split at hrun
  · cases hrun
  · obtain ⟨j, -, hfind⟩ := Option.bind_eq_some_iff.mp hrun
    have hboth := List.find?_some hfind
    simp only [Bool.and_eq_true] at hboth
    exact hboth.2

section Done

variable {p : Pass} (h : PassRuns s i k p) (hs : serving s = true)

include h hs

theorem passDone_of_portless (hless : portless s k = true) (data : Option Bytes) : passDone i data s = settle (abandonPass s k stDataFetch) := by
  simp [passDone, h.running, hs, h.step, hless]

variable (hless : portless s k = false) (hport : portMoves s p.port = true)

include hless hport

theorem passDone_of_failed : passDone i none s = settle (abandonPass (passReads s p) k stDataFetch) := by
  simp [passDone, h.running, hs, h.step, hless, hport]

theorem passDone_of_arrived (src : Bytes) : passDone i (some src) s = settle (finishPass (passReads s p) i p src) := by
  simp [passDone, h.running, hs, h.step, hless, hport]

end Done

/-- The destination of a pass, as its finish writes it. -/
def passWrites (s : State) (p : Pass) (src : Bytes) : State :=
  writeSegs s p.port (pasidOn (sliceOf s p.sliceNo) p.port) (passBytes p src) p.dst

theorem finishPass_eq {p : Pass} {r : Result} (hp : p.step = k) (ht : stepOf s k = some t) (hr : t.result = some r) (hq : t.seq = some q)
    (src : Bytes) :
    finishPass s i p src = owe (dropPass (bump (passWrites s p src) (pgStp (curDie (passWrites s p src)) i + 0x108) 0 64 p.len) k)
      t.sliceNo t.pair (owedOf k t r t.final q) := by
  simp only [finishPass, hp, ht, hr, hq]
  rfl

theorem finishPass_owed {p : Pass} {r : Result} (hp : p.step = k) (ht : stepOf s k = some t) (hr : t.result = some r) (hq : t.seq = some q)
    (src : Bytes) :
    Unchanged [.engines, .regs, .rings, .out] s (finishPass s i p src) ∧
      CompletionOwed k t (owedOf k t r t.final q) s (finishPass s i p src) ∧ (finishPass s i p src).out = (passWrites s p src).out := by
  rw [finishPass_eq hp ht hr hq]
  have hcounted := bump_unchanged (s := passWrites s p src) (pgStp (curDie (passWrites s p src)) i + 0x108) 0 64 p.len
  generalize bump (passWrites s p src) _ 0 64 p.len = m at hcounted ⊢
  have hwritten : Unchanged [.regs, .out] s m := ((writeSegs_unchanged _ _ _ _).mono (by decide)).trans (hcounted.mono (by decide))
  have hout : (dropPass m k).out = (passWrites s p src).out := (dropPass_unchanged k .out (by decide)).trans (hcounted .out (by decide))
  exact ⟨(hwritten.mono (by decide)).trans (((dropPass_unchanged k).mono (by decide)).trans ((owe_unchanged _ _ _ _).mono (by decide))),
    completionOwed_owe_dropPass hwritten (by decide) k t _, hout⟩

/-! ### Commands of the pipelines -/

/-- The parts in which the failure of a started pass leaves something. -/
def failParts : List Part := [.engines, .rings, .out, .gauge, .switch, .regs]

theorem dataPassDone_of_portless {p : Pass} (h : PassRuns s i k p) (hs : serving s = true) (ht : stepOf s k = some t) (hq : t.seq = some q)
    (hless : portless s k = true) (data : Option Bytes) :
    GivesThen (.dataPassDone i data) s settle failParts (CompletionOwed k t (failedOwed k t q stDataFetch) s) := by
  obtain ⟨hunch, howed⟩ := abandonPass_of_started_owed ht h.found h.started hq stDataFetch
  exact givesThen_intro (congrArg (endWith s) (passDone_of_portless h hs hless data)) (hunch.mono (by decide)) howed

section Moving

variable {p : Pass} (h : PassRuns s i k p) (hs : serving s = true) (ht : stepOf s k = some t) (hq : t.seq = some q)
  (hless : portless s k = false) (hport : portMoves s p.port = true)

include h hs ht hq hless hport

theorem dataPassDone_of_failed :
    GivesThen (.dataPassDone i none) s settle failParts (CompletionOwed k t (failedOwed k t q stDataFetch) s) := by
  have hreads := passReads_unchanged (s := s) p
  have hconf : (passReads s p).conf = s.conf := hreads .confluence (by decide)
  obtain ⟨-, -, -, hpasses⟩ := hreads .engines (by decide)
  have hfound : (passReads s p).passes.find? (fun z => z.step == k) = some p := by rw [hpasses]; exact h.found
  have hstep : stepOf (passReads s p) k = some t := by rw [stepOf, hconf]; exact ht
  obtain ⟨hunch, howed⟩ := abandonPass_of_started_owed hstep hfound h.started hq stDataFetch
  have hrings : ∀ n j, ringOf (passReads s p) n j = ringOf s n j := hreads .rings (by decide)
  refine givesThen_intro (congrArg (endWith s) (passDone_of_failed h hs hless hport)) ((hreads.mono (by decide)).trans (hunch.mono (by decide))) ?_
  exact howed.of_rings hrings

theorem dataPassDone_of_arrived {r : Result} (hr : t.result = some r) (src : Bytes) :
    GivesThen (.dataPassDone i (some src)) s settle [.engines, .regs, .rings, .out] (fun u =>
      CompletionOwed k t (owedOf k t r t.final q) s u ∧
      u.out = (writeSegs (passReads s p) p.port (pasidOn (sliceOf s p.sliceNo) p.port) (passBytes p src) p.dst).out) := by
  have hreads := passReads_unchanged (s := s) p
  have hconf : (passReads s p).conf = s.conf := hreads .confluence (by decide)
  have hstep : stepOf (passReads s p) k = some t := by rw [stepOf, hconf]; exact ht
  obtain ⟨hunch, howed, hout⟩ := finishPass_owed (i := i) h.step hstep hr hq src
  have hrings : ∀ n j, ringOf (passReads s p) n j = ringOf s n j := hreads .rings (by decide)
  have hslice : sliceOf (passReads s p) p.sliceNo = sliceOf s p.sliceNo := (hreads .slices (by decide)).1 _
  rw [passWrites, hslice] at hout
  exact givesThen_intro (congrArg (endWith s) (passDone_of_arrived h hs hless hport src))
    ((hreads.mono (by decide)).trans hunch) ⟨howed.of_rings hrings, hout⟩

end Moving

theorem passAbandon_of_pass {p : Pass} (ht : stepOf s k = some t) (hp : s.passes.find? (fun z => z.step == k) = some p) :
    passAbandon k s = settle (abandonPass (reach s (t.actNt + 10000000)) k stExecLimit) := by
  have hpass : hasPass s k = true := List.any_eq_true.mpr ⟨p, List.mem_of_find?_eq_some hp, by simpa using List.find?_some hp⟩
  simp [passAbandon, ht, hpass]

/-- R229: 10 ms after its step's activation a started pass is gone, and the completion owed carries ST_EXEC_LIMIT. -/
theorem dataPassAbandon_of_started {p : Pass} (ht : stepOf s k = some t) (hp : s.passes.find? (fun z => z.step == k) = some p)
    (hstart : p.started = true) (hq : t.seq = some q) :
    GivesThen (.dataPassAbandon k) s settle (.time :: failParts) (fun m =>
      CompletionOwed k t (failedOwed k t q stExecLimit) s m ∧ m.nt.ns = max s.nt.ns (t.actNt + 10000000)) := by
  obtain ⟨hunch, howed⟩ := abandonPass_of_started_owed (s := reach s (t.actNt + 10000000)) ht hp hstart hq stExecLimit
  have htime : (abandonPass (reach s (t.actNt + 10000000)) k stExecLimit).nt = (reach s (t.actNt + 10000000)).nt := hunch .time (by decide)
  exact givesThen_intro (congrArg (endWith s) (passAbandon_of_pass ht hp)) (((reach_unchanged _).mono (by decide)).trans (hunch.mono (by decide)))
    ⟨howed, congrArg (·.ns) htime⟩

theorem dataPassAbandon_of_waiting {p : Pass} (ht : stepOf s k = some t) (hp : s.passes.find? (fun z => z.step == k) = some p)
    (hwait : p.started = false) :
    GivesThen (.dataPassAbandon k) s settle [.time, .engines] (fun m =>
      m.passes = s.passes.map (fun z => if z.step = k then { z with doom := some (z.doom.getD stExecLimit) } else z) ∧
      m.nt.ns = max s.nt.ns (t.actNt + 10000000)) := by
  have hdoomed := abandonPass_of_waiting (s := reach s (t.actNt + 10000000)) ht hp hwait stExecLimit
  refine givesThen_intro (congrArg (endWith s) (passAbandon_of_pass ht hp)) ?_ ?_
  · rw [hdoomed]
    exact ((reach_unchanged _).mono (by decide)).trans ((passes_unchanged _).mono (by decide))
  · rw [hdoomed]
    exact ⟨rfl, rfl⟩

/-- R228: a running pass whose port lost its link goes on through the port that carries its pair. -/
theorem dataPassPortLoss_of_down {p : Pass} {x : Port} (hrun : runningPass s i = some p) (hp : p.step = k) (hdown : portMoves s p.port = false)
    (ht : stepOf s k = some t) (hx : stepPort s t = some x) :
    Gives (.dataPassPortLoss i) s [.engines] (fun u =>
      u.passes = s.passes.map (fun z => if z.step = k then { z with port := x } else z) ∧ pipeOf u i = pipeOf s i) := by
  have hmoved : passPortLoss i s = { s with passes := s.passes.map (fun z => if z.step = k then { z with port := x } else z) } := by
    simp [passPortLoss, hrun, hp, hdown, ht, hx]
  exact gives_intro (congrArg (endWith s) hmoved) (passes_unchanged _) ⟨rfl, rfl⟩

/-! ### Sweep and idle streams (R218, R225) -/

theorem btc_unchanged (l : List BtcPage) : Unchanged [.streams] s { s with btc := l } := by
  intro p hp; have h := same_refl p s; cases p <;> first | exact absurd (by decide) hp | exact h

theorem streams_unchanged (l : List (Nat × Stream)) : Unchanged [.streams] s { s with streams := l } := by
  intro p hp; have h := same_refl p s; cases p <;> first | exact absurd (by decide) hp | exact h

/-- The page as a sweep at an instant leaves it. -/
def sweptPage (ms : Nat) (p : BtcPage) : BtcPage := if p.filled < ms then { p with valid := false } else p

theorem filled_of_sweptPage {ms : Nat} {p : BtcPage} (h : (sweptPage ms p).valid = true) : ms ≤ (sweptPage ms p).filled := by
  unfold sweptPage at h ⊢
  split at h
  · cases h
  · next hnew => rw [if_neg hnew]; exact Nat.le_of_not_lt hnew

theorem btcSweep_gives (hs : serving s = true) (g : BtcPage) :
    Gives .btcSweep s [.streams] (fun u => u.streams = s.streams ∧
      (g ∈ u.btc → g.valid = true → s.nt.ns / 1000000 * 1000000 ≤ g.filled) ∧ u.btc.length = s.btc.length) := by
  have hswept : btcSweep s = { s with btc := s.btc.map (sweptPage (s.nt.ns / 1000000 * 1000000)) } := by
    simp only [btcSweep, hs, Bool.not_true, Bool.false_eq_true, if_false]
    rfl
  refine gives_intro (congrArg (endWith s) hswept) (btc_unchanged _) ⟨rfl, fun hg hvalid => ?_, List.length_map _⟩
  obtain ⟨p, -, rfl⟩ := List.mem_map.mp hg
  exact filled_of_sweptPage hvalid

theorem streamIdleClose_gives {y : Stream} {id : Nat} (hs : serving s = true) (hy : mget s.streams id = some y) (j : Nat) :
    Gives (.streamIdleClose id) s [.streams, .time] (fun u =>
      mget u.streams id = none ∧ (j ≠ id → mget u.streams j = mget s.streams j) ∧ u.nt.ns = max s.nt.ns (y.lastNt + 60000000000)) := by
  have hclosed : streamIdle id s = { reach s (y.lastNt + 60000000000) with streams := mdel s.streams id } := by
    simp [streamIdle, hy, hs]
  exact gives_intro (congrArg (endWith s) hclosed) (((reach_unchanged _).mono (by decide)).trans ((streams_unchanged _).mono (by decide)))
    ⟨mget_mdel_self _ _, fun hj => mget_mdel_other _ (Ne.symm hj), rfl⟩

/-- Settles O37, command by command along the life of a pass: acceptance, end, failure, abandonment and loss of the port; then the
sweep and the idle close. -/
theorem dataPasses : Obligations.DataPasses := by
  intro s k i q id j t r x p data src g y ht
  dsimp only
  refine ⟨fun hs hhead hx hpipe => ⟨fun hp hport => ?new, fun hp => ?placed, fun hp hport => ?full⟩, fun hruns hr hless hport => ?moves,
    fun hruns hless => ?portless, fun hp => ⟨fun hstart hq => ?started, fun hwait => ?waiting⟩, fun hrun hp hdown hx => ?portLoss,
    fun hs => btcSweep_gives hs g, fun hs hy => streamIdleClose_gives hs hy j⟩
  case new => exact dataPassAccept_of_new hs hhead ht hx hpipe hp hport
  case placed => exact dataPassAccept_of_placed hs hhead ht hx hpipe hp
  case full => exact gives_nothing (congrArg (endWith s) (passAccept_of_full hs hhead ht hx hp hport))
  case moves =>
    obtain ⟨hrun, hfound, hq, hs⟩ := hruns
    exact ⟨dataPassDone_of_arrived ⟨hrun, hfound⟩ hs ht hq hless hport hr src, dataPassDone_of_failed ⟨hrun, hfound⟩ hs ht hq hless hport⟩
  case portless =>
    obtain ⟨hrun, hfound, hq, hs⟩ := hruns
    exact dataPassDone_of_portless ⟨hrun, hfound⟩ hs ht hq hless data
  case started => exact dataPassAbandon_of_started ht hp hstart hq
  case waiting => exact dataPassAbandon_of_waiting ht hp hwait
  case portLoss => exact dataPassPortLoss_of_down hrun hp hdown ht hx

end Sys2Proof.TokensAndBulk
end

section
/-!
PROOFS. Public-key, attestation, digest, random, measurement and cache requests (R266 to R298, R371 to R391, R219): the job that
the run of a public-key function leaves for an engine, and the measurement registers that no run moves.
-/
namespace Sys2Proof.PublicKey

open Sys2Proof.Machine Sys2Proof.Safety Sys2Proof.Laws Sys2Proof.ModuleAndFlow Sys2Proof.TokensAndBulk

variable {s m u : State} {k : Nat} {t : Step}

/-! ### Measurement registers (R379) -/

theorem dieOf_of_unchanged {ps : List Part} (h : Unchanged ps s u) (hd : Part.dies ∉ ps) (d : Die) : dieOf u d = dieOf s d := by
  obtain ⟨h0, h1⟩ := h .dies hd
  cases d
  · exact h0
  · exact h1

/-- Two states hold the same measurement registers: the owners, and the values on both dies. -/
def SameMeasures (s u : State) : Prop := u.measOwner = s.measOwner ∧ u.die0.meas = s.die0.meas ∧ u.die1.meas = s.die1.meas

theorem SameMeasures.refl (s : State) : SameMeasures s s := ⟨rfl, rfl, rfl⟩

theorem SameMeasures.trans (h : SameMeasures s m) (g : SameMeasures m u) : SameMeasures s u := by
  obtain ⟨howner, h0, h1⟩ := h
  obtain ⟨gowner, g0, g1⟩ := g
  exact ⟨gowner.trans howner, g0.trans h0, g1.trans h1⟩

theorem sameMeasures_of_unchanged {ps : List Part} (h : Unchanged ps s u) (hd : Part.dies ∉ ps) (hm : Part.measures ∉ ps) :
    SameMeasures s u :=
  ⟨h .measures hm, congrArg (·.meas) (dieOf_of_unchanged h hd .d0), congrArg (·.meas) (dieOf_of_unchanged h hd .d1)⟩

theorem sameMeasures_setDigest (d : Die) (engine slot : Nat) (b : Bytes) : SameMeasures s (setDigest s d engine slot b) := by
  cases d <;> exact ⟨rfl, rfl, rfl⟩

/-- Hashing for a step moves the engine's slot on a die, and no measurement register. -/
theorem sameMeasures_runDigest (c : Nat) (x : FnIn) : SameMeasures s (runDigest s c x) := by
  have hashed : ∀ (s : State) (a n e j : Nat) (d : Die) (b : Bytes), SameMeasures s (setDigest (bump s a 0 32 n) d e j b) :=
    fun s a n e j d b => (sameMeasures_of_unchanged (bump_unchanged _ _ _ _) (by decide) (by decide)).trans (sameMeasures_setDigest _ _ _ _)
  unfold runDigest
  dsimp only
  split
  · exact hashed _ _ _ _ _ _ _
  · split
    · exact (sameMeasures_of_unchanged (free_unchanged _) (by decide) (by decide)).trans (hashed _ _ _ _ _ _ _)
    · exact .refl _

theorem sameMeasures_runUnits (k : Nat) (t : Step) (x : FnIn) (res : Result) : SameMeasures s (runUnits s k t x res).2 := by
  unfold runUnits
  split
  · exact (sameMeasures_of_unchanged (runLane_unchanged _ _ _ _) (by decide) (by decide)).trans (sameMeasures_runDigest _ _)
  · exact .refl _

theorem queueJob_unchanged (k : Nat) : Unchanged [.confluence] s (queueJob s k) := by
  obtain ⟨b, p, hq⟩ := queueJob_eq s k
  exact hq ▸ conf_unchanged _

/-- What a function says of a measurement register takes effect at the commit alone. -/
theorem sameMeasures_putResult {c : Nat} (hc : t.phase = .executing c) (n : Nat) (x : Result) (r : Rnd) (drawn : List Bytes) :
    SameMeasures s (putResult (putRnd s n r) k t (fnInOf s t) x drawn) := by
  have hdraws := putRnd_unchanged (s := s) n r
  rw [putResult_eq hc x drawn (hdraws .time (by decide))]
  have hunits := (sameMeasures_of_unchanged hdraws (by decide) (by decide)).trans (sameMeasures_runUnits k t (fnInOf s t) x)
  have hset := hunits.trans (sameMeasures_of_unchanged (setStep_unchanged k (ranStep s t x drawn)) (by decide) (by decide))
  have hcount := hset.trans (sameMeasures_of_unchanged (countDraw_unchanged t (LaneResult (fnInOf s t) x)) (by decide) (by decide))
  exact hcount.trans (sameMeasures_of_unchanged (queueJob_unchanged k) (by decide) (by decide))

/-! ### The job of a public-key step (R268, R269, R335) -/

theorem queueJob_of_queued (ht : stepOf s k = some t) (hj : t.job = .queued) :
    queueJob s k = setBnl s t.level (listOf s.conf.bnlReady t.level ++ [k]) := by
  simp [queueJob, ht, hj]

/-- A function that did its arithmetic leaves its step at the tail of its level's list. -/
theorem bnlReady_putResult {c : Nat} (hc : t.phase = .executing c) (n : Nat) (x : Result) (r : Rnd) (drawn : List Bytes)
    (hbnl : usesBnl (dOp t.desc) (LaneResult (fnInOf s t) x).status = true) :
    listOf (putResult (putRnd s n r) k t (fnInOf s t) x drawn).conf.bnlReady t.level = listOf s.conf.bnlReady t.level ++ [k] := by
  have hdraws := putRnd_unchanged (s := s) n r
  have hunits := runUnits_unchanged (s := putRnd s n r) k t (fnInOf s t) x
  have hconf : (runUnits (putRnd s n r) k t (fnInOf s t) x).2.conf = s.conf :=
    (hunits .confluence (by decide)).trans (hdraws .confluence (by decide))
  rw [putResult_eq hc x drawn (hdraws .time (by decide))]
  generalize (runUnits (putRnd s n r) k t (fnInOf s t) x).2 = v at hconf
  have hcount : (countDraw (setStep v k (ranStep s t x drawn)) t (LaneResult (fnInOf s t) x)).conf = (setStep v k (ranStep s t x drawn)).conf :=
    countDraw_unchanged _ _ .confluence (by decide)
  have hstep : stepOf (countDraw (setStep v k (ranStep s t x drawn)) t (LaneResult (fnInOf s t) x)) k = some (ranStep s t x drawn) := by
    rw [stepOf, hcount, ← stepOf, stepOf_setStep, if_pos rfl]
  rw [queueJob_of_queued hstep (if_pos hbnl), hcount]
  exact (sget_sset_self _ _ _ _).trans (congrArg (fun y => listOf y.bnlReady t.level ++ [k]) hconf)

/-- PK_VERIFY waits for an engine as the last of its level. -/
theorem pkVerify_queuesJob (ht : stepOf s k = some t) (hm : mayRun t 0x0602 = true)
    (hbnl : usesBnl 0x0602 (LaneResult (fnInOf s t) (fnPkVerify (fnInOf s t))).status = true) :
    Gives (.pkVerify k) s runParts (fun u =>
      (listOf u.conf.bnlReady t.level).getLast? = some k ∧ u.measOwner = s.measOwner ∧ u.die0.meas = s.die0.meas ∧ u.die1.meas = s.die1.meas) := by
  obtain ⟨c, hphase⟩ := executing_of_mayRun hm
  obtain ⟨hparts, -, -⟩ := putResult_ran (s := s) (k := k) hphase (instanceOf t) (fnPkVerify (fnInOf s t)) (rndOf s (instanceOf t)) []
  have hrun := runOp_of_mayRun (f := opPkVerify) ht hm rfl rfl
  have htail := bnlReady_putResult (k := k) hphase (instanceOf t) (fnPkVerify (fnInOf s t)) (rndOf s (instanceOf t)) []
    ((op_of_mayRun hm).symm ▸ hbnl)
  refine gives_intro (congrArg (endWith s) hrun) hparts ⟨?_, sameMeasures_putResult hphase _ _ _ _⟩
  exact (congrArg List.getLast? htail).trans List.getLast?_concat

/-! ### The opcodes -/

theorem fnDigestBlocks_rnd (s : State) (t : Step) (x : FnIn) (r : Rnd) : (fnDigestBlocks s t x r).2 = r := by
  unfold fnDigestBlocks
  dsimp only
  repeat' split
  all_goals rfl

/-- Settles O42: every row runs its function in one command, and PK_VERIFY leaves its job at the tail of its level's list. -/
theorem publicKeyDigestAndRandomRequests : Obligations.PublicKeyDigestAndRandomRequests := by
  intro s k t ht
  exact ⟨pkVerify_queuesJob ht, runsOp_of_exec rfl ht, runsPure_of_exec rfl rfl ht, runsPure_of_exec rfl rfl ht, runsOp_of_exec rfl ht,
    runsOp_of_exec rfl ht, runsPure_of_exec rfl rfl ht, runsOp_of_exec rfl ht, runsPure_of_exec rfl rfl ht, runsPure_of_exec rfl rfl ht,
    runsOp_of_exec rfl ht, runsOp_of_exec rfl ht, runsPure_of_exec rfl rfl ht, runsOp_of_exec rfl ht, runsOp_of_exec rfl ht,
    runsPure_of_exec rfl (fnDigestBlocks_rnd _ _ _ _) ht, runsOp_of_exec rfl ht, runsPure_of_exec rfl rfl ht, runsPure_of_exec rfl rfl ht,
    runsPure_of_exec rfl rfl ht⟩

end Sys2Proof.PublicKey
end

section
/-!
PROOFS. Dual control (R299 to R321): the opcodes of ceremonies and of replay, the close with the checks of its actions, card
sessions and the expiry of ceremonies.
-/
namespace Sys2Proof.DualControl

open Sys2Proof.Machine Sys2Proof.Safety Sys2Proof.Laws Sys2Proof.ModuleAndFlow Sys2Proof.TokensAndBulk

variable {s m u : State} {k id : Nat} {t : Step} {c : Ceremony} {st : Status}

/-! ### Functions that draw no random bits -/

theorem fnCeremonyApprove_rnd (s : State) (t : Step) (x : FnIn) (r : Rnd) : (fnCeremonyApprove s t x r).2 = r := by
  unfold fnCeremonyApprove
  repeat' split
  all_goals rfl

theorem fnComponentEnter_rnd (s : State) (t : Step) (x : FnIn) (r : Rnd) : (fnComponentEnter s t x r).2 = r := by
  unfold fnComponentEnter
  dsimp only
  repeat' split
  all_goals rfl

theorem fnCeremonyCancel_rnd (s : State) (t : Step) (x : FnIn) (r : Rnd) : (fnCeremonyCancel s t x r).2 = r := by
  unfold fnCeremonyCancel
  split <;> rfl

theorem fnCeremonyStatus_rnd (s : State) (t : Step) (x : FnIn) (r : Rnd) : (fnCeremonyStatus s t x r).2 = r := by
  unfold fnCeremonyStatus
  dsimp only
  repeat' split
  all_goals rfl

theorem closeIf_rnd (ok : State → Nat → Ceremony → Bool) (s : State) (t : Step) (id : Nat) (c : Ceremony) (r : Rnd) :
    (closeIf ok s t id c r).2 = r := by
  unfold closeIf
  split <;> rfl

theorem closeRestore_rnd (s : State) (t : Step) (id : Nat) (c : Ceremony) (r : Rnd) : (closeRestore s t id c r).2 = r := by
  unfold closeRestore
  dsimp only
  repeat' split
  all_goals rfl

theorem closePolicyGrant_rnd (s : State) (t : Step) (id : Nat) (c : Ceremony) (r : Rnd) : (closePolicyGrant s t id c r).2 = r := by
  unfold closePolicyGrant
  dsimp only
  repeat' split
  all_goals rfl

theorem closeComponentEntry_rnd (s : State) (t : Step) (id : Nat) (c : Ceremony) (r : Rnd) : (closeComponentEntry s t id c r).2 = r := by
  unfold closeComponentEntry
  dsimp only
  repeat' split
  all_goals rfl

theorem closeLifecycle_rnd (s : State) (t : Step) (id : Nat) (c : Ceremony) (r : Rnd) : (closeLifecycle s t id c r).2 = r := by
  unfold closeLifecycle
  dsimp only
  repeat' split
  all_goals rfl

/-! ### What the ceremony requests find (R309, R310) -/

theorem cerOf_of_cerFor (h : cerFor s t = .ok c) : cerOf s t.sliceNo (leAt t.desc 64 4) = some c := by
  unfold cerFor at h
  split at h
  · repeat' split at h
    all_goals cases h
  · next hfound =>
    repeat' split at h
    all_goals cases h
    exact hfound

/-! ### The start of a close (R309, R86) -/

/-- The ceremony is in APPLYING, taken there by the close of step `k`. -/
def enterApplying (s : State) (k id : Nat) (c : Ceremony) : State :=
  { s with cer := mput s.cer id { c with mode := .applying, closer := some k } }

theorem cer_unchanged (l : List (Nat × Ceremony)) : Unchanged [.ceremonies] s { s with cer := l } := by
  intro p hp; have h := same_refl p s; cases p <;> first | exact absurd (by decide) hp | exact h

theorem wardenWaits_unchanged (b : Bool) : Unchanged [.sems] s { s with wardenWaiting := b } := by
  intro p hp; have h := same_refl p s; cases p <;> first | exact absurd (by decide) hp | exact h

theorem semOf_setSem (s : State) (n j : Nat) (x : Sem) : semOf (setSem s n x) j = if n = j then x else semOf s j := sget_sset _ _ _ _ _

theorem wardenTake_unchanged (s : State) : Unchanged [.sems] s (wardenTake s) := by
  unfold wardenTake
  split
  · exact setSem_unchanged _ _
  · exact .refl _ _
  · exact wardenWaits_unchanged _

theorem wardenTake_takes (s : State) : (semOf (wardenTake s) 0).holder = some .warden ∨ (wardenTake s).wardenWaiting = true := by
  unfold wardenTake
  split
  · exact .inl (by rw [semOf_setSem, if_pos rfl])
  · next h => exact .inl h
  · exact .inr rfl

theorem closeStart_of_quorate (ht : stepOf s k = some t) (hm : mayRun t 0x0803 = true) (hc : cerFor s t = .ok c) (hq : c.mode = .quorate) :
    closeStart k s = if c.domain = 0 then wardenTake (enterApplying s k (leAt t.desc 64 4) c) else enterApplying s k (leAt t.desc 64 4) c := by
  simp [closeStart, ht, hm, cerOf_of_cerFor hc, hc, hq, enterApplying]

theorem closeStart_of_state (ht : stepOf s k = some t) (hm : mayRun t 0x0803 = true) (hc : cerFor s t = .ok c) (hq : c.mode ≠ .quorate)
    (ha : c.mode ≠ .applying) : closeStart k s = putResult s k t (fnInOf s t) (fails stCeremonyState) [] := by
  simp [closeStart, ht, hm, cerOf_of_cerFor hc, hc, hq, ha]

theorem closeStart_of_error (ht : stepOf s k = some t) (hm : mayRun t 0x0803 = true) (hc : cerFor s t = .error st)
    (ha : (cerOf s t.sliceNo (leAt t.desc 64 4)).map (·.mode) ≠ some .applying) :
    closeStart k s = putResult s k t (fnInOf s t) (fails st) [] := by
  cases hfound : cerOf s t.sliceNo (leAt t.desc 64 4) with
  | none => simp [closeStart, ht, hm, hfound, hc]
  | some c =>
    have hmode : c.mode ≠ .applying := by simpa [hfound] using ha
    simp [closeStart, ht, hm, hfound, hc, hmode]

theorem ceremonyClose_of_quorate (ht : stepOf s k = some t) (hm : mayRun t 0x0803 = true) (hc : cerFor s t = .ok c) (hq : c.mode = .quorate) :
    Gives (.ceremonyClose k) s [.ceremonies, .sems] (fun u =>
      mget u.cer (leAt t.desc 64 4) = some { c with mode := .applying, closer := some k } ∧
      (c.domain ≠ 0 → semOf u 0 = semOf s 0 ∧ u.wardenWaiting = s.wardenWaiting) ∧
      (c.domain = 0 → (semOf u 0).holder = some .warden ∨ u.wardenWaiting = true)) := by
  have hstart := closeStart_of_quorate ht hm hc hq
  have henter : Unchanged [.ceremonies, .sems] s (enterApplying s k (leAt t.desc 64 4) c) := (cer_unchanged _).mono (by decide)
  have hcer : mget (enterApplying s k (leAt t.desc 64 4) c).cer (leAt t.desc 64 4) = some { c with mode := .applying, closer := some k } :=
    mget_mput_self _ _ _
  by_cases hd : c.domain = 0
  · rw [if_pos hd] at hstart
    have htake := wardenTake_unchanged (enterApplying s k (leAt t.desc 64 4) c)
    refine gives_intro (congrArg (endWith s) hstart) (henter.trans (htake.mono (by decide))) ⟨?_, fun h => absurd hd h, fun _ => ?_⟩
    · exact (congrArg (mget · _) (htake .ceremonies (by decide)).1).trans hcer
    · exact (wardenTake_takes _).imp_left (congrArg Sem.holder (semOf_canon _ 0)).trans
  · rw [if_neg hd] at hstart
    exact gives_intro (congrArg (endWith s) hstart) henter ⟨hcer, fun _ => ⟨semOf_canon _ 0, rfl⟩, fun h => absurd h hd⟩

/-! ### A close that fails -/

/-- The functions of class 0x08 make no key where they fail, and so use no cipher lane. -/
theorem laneResult_fails {x : FnIn} (hop : x.op / 256 = 8) (st : Status) : LaneResult x (fails st) = fails st := by
  have hlane : laneOps x (fails st) = [] := by simp [laneOps, hop, laneCreated, fails]
  simp [LaneResult, hlane, laneAccept]

/-- Draws that use no generator and no seed. -/
def noDraws (s : State) : Rnd := { rndOf s 1024 with inst := none }

theorem setRng_self (s : State) (d : Die) : setRng s d (rngOf s d) = s := by cases d <;> rfl

theorem putRnd_noDraws (s : State) (n : Nat) : putRnd s n (noDraws s) = s := by
  have hset : afterDraws s n (noDraws s) = s := setRng_self s (curDie s)
  have hseeds : ¬ ((rngOf s (curDie s)).seeds.length ≠ 0 ∧ (noDraws s).seeds.isEmpty = true) := fun h =>
    h.1 (List.length_eq_zero_iff.mpr (List.isEmpty_iff.mp h.2))
  calc putRnd s n (noDraws s) = afterDraws s n (noDraws s) := (if_neg hseeds).trans (if_pos rfl)
    _ = s := hset

theorem ceremonyClose_of_failure (hm : mayRun t 0x0803 = true) (h : closeStart k s = putResult s k t (fnInOf s t) (fails st) []) :
    Gives (.ceremonyClose k) s runParts (fun u => StepsBut k s u ∧ u.kst.marks = s.kst.marks ∧
      (stepOf u k).map (fun v => v.result.map (·.status)) = some (some st)) := by
  obtain ⟨b, hphase⟩ := executing_of_mayRun hm
  obtain ⟨hparts, hran, -⟩ := putResult_ran (s := s) (k := k) hphase 1024 (fails st) (noDraws s) []
  rw [putRnd_noDraws] at hparts hran
  obtain ⟨hothers, hstep, -, -, hmarks, -, -⟩ := hran
  refine gives_intro (congrArg (endWith s) h) hparts ⟨hothers, hmarks, (congrArg _ hstep).trans ?_⟩
  have hlane := laneResult_fails (x := fnInOf s t) (by simp [fnInOf, op_of_mayRun hm]) st
  simp only [hlane, Option.map_some]
  rfl

/-! ### The opcodes -/

/-- REPLAY_RUN moves the counter of free values past those that its run may have read. -/
theorem replayRun_runs (ht : stepOf s k = some t) : RunsPure .replayRun 0x0901 opReplayRun s k t := by
  intro hm
  obtain ⟨b, hphase⟩ := executing_of_mayRun hm
  obtain ⟨hparts, hran, -⟩ := putResult_ran (s := s) (k := k) hphase (instanceOf t) (replayOutcome s t) (rndOf s (instanceOf t)) []
  have hrun := runOp_of_mayRun (f := opReplayRun) ht hm rfl rfl
  exact gives_intro (congrArg (fun v : State => endWith s { v with freeCount := v.freeCount + 4 }) hrun)
    (hparts.trans ((free_unchanged _).mono (by decide))) hran

/-- Settles O43: the opcodes run their functions in one command, and a close either takes its ceremony to APPLYING or fails. -/
theorem ceremonyRequests : Obligations.CeremonyRequests := by
  intro s k t c st ht
  exact ⟨fun hm _ hc hq => ceremonyClose_of_quorate ht hm hc hq,
    fun hm hc hq ha => ceremonyClose_of_failure hm (closeStart_of_state ht hm hc hq ha),
    fun hm hc ha => ceremonyClose_of_failure hm (closeStart_of_error ht hm hc ha),
    replayRun_runs ht, runsPure_of_exec rfl rfl ht, runsOp_of_exec rfl ht, runsPure_of_exec rfl (fnCeremonyApprove_rnd _ _ _ _) ht,
    runsPure_of_exec rfl (fnComponentEnter_rnd _ _ _ _) ht, runsPure_of_exec rfl (fnCeremonyCancel_rnd _ _ _ _) ht,
    runsPure_of_exec rfl (fnCeremonyStatus_rnd _ _ _ _) ht⟩

/-! ### The actions of a close (R309, R311) -/

/-- The close of step `k` runs the check of its ceremony's action: the ceremony is in APPLYING with no share to write, and the
warden holds semaphore 0 where the action is of the module domain. -/
structure Closing (s : State) (k : Nat) (t : Step) (c : Ceremony) : Prop where
  step : stepOf s k = some t
  runs : mayRun t 0x0803 = true
  found : cerOf s t.sliceNo (leAt t.desc 64 4) = some c
  mode : c.mode = .applying
  written : c.toWrite = []
  warden : c.domain = 0 → wardenHas s = true

theorem Closing.mayTake (h : Closing s k t c) : (c.domain != 0 || wardenHas s) = true := by
  by_cases hd : c.domain = 0
  · simp [h.warden hd]
  · simp [hd]

section Actions

variable {action : Nat} {f : CloseFn} {row : Nat → Instr}

theorem runClose_of_other (h : Closing s k t c) (ha : c.action ≠ action) : runClose k action f s = s := by
  simp [runClose, h.step, h.found, ha]

theorem runClose_of_dry (h : Closing s k t c) (ha : c.action = action)
    (hd : (f s t (leAt t.desc 64 4) c (rndOf s 1024)).2.dry = true) :
    runClose k action f s = setStep s k { t with seedWait := some (t.seedWait.getD s.nt.ns) } := by
  simp [runClose, h.step, h.found, h.runs, ha, h.mode, h.written, h.mayTake, hd]

theorem runClose_of_served {x : Result} {r : Rnd} (h : Closing s k t c) (ha : c.action = action)
    (hx : f s t (leAt t.desc 64 4) c (rndOf s 1024) = (x, r)) (hd : r.dry = false) :
    runClose k action f s = putResult (putRnd s 1024 r) k t (fnInOf s t) x [] := by
  simp [runClose, h.step, h.found, h.runs, ha, h.mode, h.written, h.mayTake, hx, hd]

theorem runClose_gives {i : Instr} {x : Result} {r : Rnd} (hrow : exec i s = endWith s (runClose k action f s)) (h : Closing s k t c)
    (ha : c.action = action) (hx : f s t (leAt t.desc 64 4) c (rndOf s 1024) = (x, r)) (hd : r.dry = false) :
    Gives i s runParts (Ran k t x r [] s) := by
  obtain ⟨b, hphase⟩ := executing_of_mayRun h.runs
  obtain ⟨hparts, hran, -⟩ := putResult_ran (s := s) (k := k) hphase 1024 x r []
  exact gives_intro (hrow.trans (congrArg (endWith s) (runClose_of_served h ha hx hd))) hparts hran

theorem closesOp_of_exec (hrow : exec (row k) s = endWith s (runClose k action f s)) (h : Closing s k t c) :
    ClosesOp row action f s k t c := by
  refine fun ha => ⟨fun hd => runClose_gives hrow h ha (Prod.eta _).symm hd, fun hd => ?_⟩
  exact gives_intro (hrow.trans (congrArg (endWith s) (runClose_of_dry h ha hd))) (setStep_unchanged _ _)
    ⟨fun j hj => (stepOf_setStep _ _ _ _).trans (if_neg (Ne.symm hj)), (stepOf_setStep _ _ _ _).trans (if_pos rfl)⟩

theorem closesPure_of_exec (hrow : exec (row k) s = endWith s (runClose k action f s)) (h : Closing s k t c)
    (hf : ∀ r, (f s t (leAt t.desc 64 4) c r).2 = r) : ClosesPure row action f s k t c :=
  fun ha => runClose_gives hrow h ha (Prod.ext rfl (hf _)) rfl

end Actions

/-- Settles O44: each action's row runs its check on the close, and TAKE_OWNERSHIP leaves the close of another action alone. -/
theorem ceremonyActions : Obligations.CeremonyActions := by
  intro s k t c ht hm hfound hmode hwritten hwarden
  have h : Closing s k t c := ⟨ht, hm, hfound, hmode, hwritten, hwarden⟩
  exact ⟨fun ha => gives_nothing (congrArg (endWith s) (runClose_of_other h ha)), closesOp_of_exec rfl h,
    closesPure_of_exec rfl h (closeRestore_rnd _ _ _ _), closesOp_of_exec rfl h, closesPure_of_exec rfl h (closeIf_rnd _ _ _ _ _),
    closesPure_of_exec rfl h (closeIf_rnd _ _ _ _ _), closesPure_of_exec rfl h (closeIf_rnd _ _ _ _ _),
    closesPure_of_exec rfl h (closeIf_rnd _ _ _ _ _), closesPure_of_exec rfl h (closePolicyGrant_rnd _ _ _ _),
    closesPure_of_exec rfl h (closeComponentEntry_rnd _ _ _ _), closesPure_of_exec rfl h (fun _ => rfl),
    closesPure_of_exec rfl h (closeIf_rnd _ _ _ _ _), closesPure_of_exec rfl h (closeLifecycle_rnd _ _ _ _),
    closesPure_of_exec rfl h (closeIf_rnd _ _ _ _ _), closesPure_of_exec rfl h (closeIf_rnd _ _ _ _ _)⟩

end Sys2Proof.DualControl
end

section
/-!
PROOFS. Custodian card ports and the expiry of ceremonies (R310, R314, R315, R318, R319).
-/
namespace Sys2Proof.CardPorts

open Sys2Proof.Machine Sys2Proof.Safety Sys2Proof.Laws Sys2Proof.ModuleAndFlow Sys2Proof.TokensAndBulk Sys2Proof.DualControl

variable {s m u : State} {id : Nat} {c : Ceremony}

/-! ### Ports of cards -/

@[simp] theorem cardOf_setCard_self (s : State) (p : Nat) (y : CardPort) : cardOf (setCard s p y) p = y := by
  unfold setCard cardOf
  split <;> rfl

theorem cardOf_setCard_other (s : State) {p : Nat} (hp : p < 2) (y : CardPort) : cardOf (setCard s p y) (1 - p) = cardOf s (1 - p) := by
  obtain rfl | rfl : p = 0 ∨ p = 1 := by omega
  · rfl
  · rfl

theorem setCard_unchanged (p : Nat) (y : CardPort) : Unchanged [.cards] s (setCard s p y) := by
  unfold setCard
  split <;> (intro q hq; have h := same_refl q s; cases q <;> first | exact absurd (by decide) hq | exact h)

@[simp] theorem setCard_cer (s : State) (p : Nat) (y : CardPort) : (setCard s p y).cer = s.cer :=
  (setCard_unchanged p y .ceremonies (by decide)).1

/-- A port has come to hold `y`, and the other port is as it was. -/
def Turned (p : Nat) (y : CardPort) (s u : State) : Prop := cardOf u p = y ∧ cardOf u (1 - p) = cardOf s (1 - p)

/-- A port has come to hold `y` at the end of a session, with its event set. -/
def Ended (p : Nat) (y : CardPort) (s u : State) : Prop := Turned p y s u ∧ bitOf (rd u (pgCus p + oIrqStat)) 3 = true

theorem turned_setCard {p : Nat} (hp : p < 2) (y : CardPort) : Turned p y s (setCard s p y) :=
  ⟨cardOf_setCard_self _ _ _, cardOf_setCard_other _ hp _⟩

theorem cardOf_of_unchanged {ps : List Part} (h : Unchanged ps s u) (hc : Part.cards ∉ ps) (p : Nat) : cardOf u p = cardOf s p := by
  obtain ⟨h0, h1⟩ := h .cards hc
  rw [cardOf, h0, h1, ← cardOf]

theorem Turned.keeps {ps : List Part} {p : Nat} {y : CardPort} (h : Turned p y s m) (hu : Unchanged ps m u) (hc : Part.cards ∉ ps) :
    Turned p y s u := by
  obtain ⟨hself, hother⟩ := h
  exact ⟨(cardOf_of_unchanged hu hc _).trans hself, (cardOf_of_unchanged hu hc _).trans hother⟩

theorem Turned.since {p : Nat} {y : CardPort} (h : Turned p y m u) (hother : cardOf m (1 - p) = cardOf s (1 - p)) : Turned p y s u :=
  ⟨h.1, h.2.trans hother⟩

theorem Ended.keeps {ps : List Part} {p : Nat} {y : CardPort} (h : Ended p y s m) (hu : Unchanged ps m u) (hc : Part.cards ∉ ps)
    (hr : Part.regs ∉ ps) : Ended p y s u := by
  have hreg : rd u (pgCus p + oIrqStat) = rd m (pgCus p + oIrqStat) := hu .regs hr _
  exact ⟨h.1.keeps hu hc, hreg ▸ h.2⟩

/-- The canonical form of a state holds the same ports. -/
theorem Turned.canon {p : Nat} {y : CardPort} (h : Turned p y s m) (l : List Instr) : Turned p y s { m.canon with pending := l } :=
  h.keeps (canon_unchanged m l) (by decide)

theorem Ended.canon {p : Nat} {y : CardPort} (h : Ended p y s m) (l : List Instr) : Ended p y s { m.canon with pending := l } :=
  h.keeps (canon_unchanged m l) (by decide) (by decide)

/-! ### Events of a page (R43) -/

theorem bitOf_raise_self (s : State) (pg : Nat) {bit : Nat} (h : bit < 64) : bitOf (rd (raise s pg bit) (pg + oIrqStat)) bit = true := by
  rw [rd_raise, if_pos rfl]
  simp only [bitOf, BitVec.getLsbD_or, BitVec.getLsbD_ofNat, h, Nat.testBit_shiftLeft]
  simp

theorem bitOf_raise_of_bitOf {a i : Nat} (h : bitOf (rd s a) i = true) (pg bit : Nat) : bitOf (rd (raise s pg bit) a) i = true := by
  rw [rd_raise]
  split
  · next ha => subst ha; simp only [bitOf] at h ⊢; simp [h]
  · exact h

/-! ### What has left stays out -/

theorem mem_out_send_of_mem {o : HostOut} (h : o ∈ s.out) (x : HostOut) : o ∈ (send s x).out := List.mem_append_left _ h

theorem mem_out_msixSend {o : HostOut} (h : o ∈ s.out) (x : Port) (fn vec : Nat) : o ∈ (msixSend s x fn vec).out := by
  unfold msixSend
  dsimp only
  repeat' split
  · cases x <;> exact h
  · exact mem_out_send_of_mem h _
  all_goals exact h

theorem mem_out_pageIrq {o : HostOut} (h : o ∈ s.out) (pg : Nat) : o ∈ (pageIrq s pg).out := by
  have port : ∀ (b : Bool) (u : State) (x : Port) (fn v : Nat), o ∈ u.out → o ∈ (if b = true then msixSend u x fn v else u).out := by
    intro b u x fn v hu
    cases b
    · exact hu
    · exact mem_out_msixSend hu _ _ _
  exact port _ _ .b _ _ (port _ s .a _ _ h)

theorem mem_out_raise {o : HostOut} (h : o ∈ s.out) (pg bit : Nat) : o ∈ (raise s pg bit).out := by
  unfold raise raiseBits
  dsimp only
  split
  · exact mem_out_pageIrq (s := wr s _ _) h _
  · exact h

/-! ### The end of a session (R315) -/

/-- The state in which the end of a session is shown and counted, before its event. -/
def sessionCounted (s : State) (p code cause : Nat) : State :=
  bump (setCard s p { cardOf s p with session := code, cause := cause }) (pgCus p + 0x110) (if code = 2 then 0 else 16) 16 1

theorem endSession_eq (s : State) (p code cause : Nat) : endSession s p code cause = raise (sessionCounted s p code cause) (pgCus p) 3 := by
  unfold endSession sessionCounted
  split <;> rfl

theorem endSession_unchanged (p code cause : Nat) : Unchanged [.cards, .regs, .ports, .out] s (endSession s p code cause) := by
  rw [endSession_eq]
  exact ((setCard_unchanged _ _).mono (by decide)).trans (((bump_unchanged _ _ _ _).mono (by decide)).trans ((raise_unchanged _ _).mono (by decide)))

theorem ended_endSession {p : Nat} (hp : p < 2) (code cause : Nat) :
    Ended p { cardOf s p with session := code, cause := cause } s (endSession s p code cause) := by
  rw [endSession_eq]
  refine ⟨?_, bitOf_raise_self _ _ (by decide)⟩
  exact ((turned_setCard hp _).keeps (bump_unchanged _ _ _ _) (by decide)).keeps (raise_unchanged _ _) (by decide)

/-- The end of a session after a change that has moved no port. -/
theorem ended_endSession_of_cards {ps : List Part} (h : Unchanged ps s m) (hc : Part.cards ∉ ps) {p : Nat} (hp : p < 2) (code cause : Nat) :
    Ended p { cardOf s p with session := code, cause := cause } s (endSession m p code cause) := by
  obtain ⟨hturned, hevent⟩ := ended_endSession (s := m) hp code cause
  rw [cardOf_of_unchanged h hc p] at hturned
  exact ⟨hturned.since (cardOf_of_unchanged h hc _), hevent⟩

/-- A session's end sets no bit of the status register but its own. -/
theorem bitOf_endSession_of_bitOf {p i : Nat} (h : bitOf (rd s (pgCus p + oIrqStat)) i = true) (code cause : Nat) :
    bitOf (rd (endSession s p code cause) (pgCus p + oIrqStat)) i = true := by
  have hcount : rd (sessionCounted s p code cause) (pgCus p + oIrqStat) = rd s (pgCus p + oIrqStat) :=
    (rd_wr_other (a := pgCus p + 0x110) _ (by simp [oIrqStat])).trans (setCard_unchanged _ _ .regs (by decide) _)
  rw [endSession_eq]
  exact bitOf_raise_of_bitOf (hcount.symm ▸ h) _ _

theorem mem_out_endSession {o : HostOut} (h : o ∈ s.out) (p code cause : Nat) : o ∈ (endSession s p code cause).out := by
  rw [endSession_eq]
  refine mem_out_raise ?_ _ _
  have hout : (sessionCounted s p code cause).out = s.out :=
    ((setCard_unchanged _ _).mono (qs := [.cards, .regs]) (by decide)).trans ((bump_unchanged _ _ _ _).mono (by decide)) .out (by decide)
  exact hout.symm ▸ h

theorem gives_ended {i : Instr} {p : Nat} {y : CardPort} {ps : List Part} (h : exec i s = endWith s m) (hu : Unchanged ps s m)
    (he : Ended p y s m) : Gives i s ps (Ended p y s) :=
  gives_intro h hu (he.canon _)

/-! ### The start of a session (R315) -/

theorem windowUp_pgCus {p : Nat} (hp : p < 2) : windowUp s (pgCus p) = true := by
  obtain rfl | rfl : p = 0 ∨ p = 1 := by omega
  · rfl
  · rfl

/-- A guarded write by the holder of semaphore 0 takes its effect (R56). -/
theorem gateWrite_of_open {who : Party} (h : GuardedOpen s who) {pg : Nat} (hw : windowUp s pg = true) (b : Block) (off : Nat)
    (f : State → State) : gateWrite s who b pg off true f = f s := by
  obtain ⟨⟨harrives, hhalted, hrecovery⟩, hholds⟩ := h
  simp [gateWrite, harrives, hw, hhalted, hrecovery, holds, hholds]

/-- The port at the start of a session. -/
def startedCard (s : State) (p op id : Nat) : CardPort :=
  { cardOf s p with session := 1, cause := 0, op := op, ceremony := id, startNt := s.nt.ns, result := none, powered := (cardOf s p).present }

section Start

variable {who : Party} {p op : Nat} (hopen : GuardedOpen s who) (hp : p < 2) (hidle : (cardOf s p).session ≠ 1)

include hopen hp hidle

theorem startSession_of_absent (hcard : (cardOf s p).present = false) :
    startSession who p op id s = endSession (setCard s p (startedCard s p op id)) p 3 1 := by
  rw [startSession, gateWrite_of_open hopen (windowUp_pgCus hp)]
  dsimp only
  rw [if_neg hidle, if_pos (by rw [hcard]; rfl)]
  rfl

theorem startSession_of_card (hcard : (cardOf s p).present = true) :
    startSession who p op id s =
      if (mget s.cer id).any (fun x => opFits x op) = true then setCard s p (startedCard s p op id)
      else endSession (setCard s p (startedCard s p op id)) p 3 7 := by
  rw [startSession, gateWrite_of_open hopen (windowUp_pgCus hp)]
  dsimp only
  rw [if_neg hidle, if_neg (by rw [hcard]; decide), setCard_cer]
  cases mget s.cer id <;> rfl

/-- The three ways in which a session starts: it runs, or it fails at once with cause 1 or 7. -/
theorem sessionStart_gives {i : Instr} (hrow : exec i s = endWith s (startSession who p op id s)) :
    ((cardOf s p).present = true → mget s.cer id = some c → opFits c op = true → Gives i s [.cards] (Turned p (startedCard s p op id) s)) ∧
    ((cardOf s p).present = false →
      Gives i s [.cards, .regs, .ports, .out] (Ended p { startedCard s p op id with session := 3, cause := 1 } s)) ∧
    ((cardOf s p).present = true → (mget s.cer id).all (fun x => !opFits x op) = true →
      Gives i s [.cards, .regs, .ports, .out] (Ended p { startedCard s p op id with session := 3, cause := 7 } s)) := by
  have hturned := turned_setCard (s := s) hp (startedCard s p op id)
  have hstart := setCard_unchanged (s := s) p (startedCard s p op id)
  have fails : ∀ cause, startSession who p op id s = endSession (setCard s p (startedCard s p op id)) p 3 cause →
      Gives i s [.cards, .regs, .ports, .out] (Ended p { startedCard s p op id with session := 3, cause := cause } s) := by
    intro cause h
    obtain ⟨hend, hevent⟩ := ended_endSession (s := setCard s p (startedCard s p op id)) hp 3 cause
    rw [cardOf_setCard_self] at hend
    exact gives_ended (hrow.trans (congrArg (endWith s) h)) ((hstart.mono (by decide)).trans (endSession_unchanged _ _ _))
      ⟨hend.since hturned.2, hevent⟩
  refine ⟨fun hcard hc hfit => ?runs, fun hcard => fails 1 (startSession_of_absent hopen hp hidle hcard), fun hcard hnone => ?unfit⟩
  case runs =>
    have h := startSession_of_card (op := op) (id := id) hopen hp hidle hcard
    rw [if_pos (by simp [hc, hfit])] at h
    exact gives_intro (hrow.trans (congrArg (endWith s) h)) hstart (hturned.canon _)
  case unfit =>
    have h := startSession_of_card (op := op) (id := id) hopen hp hidle hcard
    rw [if_neg (by simpa [Option.all_eq_true, Option.any_eq_false] using hnone)] at h
    exact fails 7 h

end Start

/-- The operands of a session's row are those of its start. -/
theorem startRow_eq {who : Party} {p op : Nat} (hp : p < 2) (hid : id < 2 ^ 32) :
    (if cardPortOk p = true then startSession who p op (id % 2 ^ 32) s else s) = startSession who p op id s := by
  rw [if_pos (by simpa [cardPortOk] using hp), Nat.mod_eq_of_lt hid]

/-! ### Commands to a card (R314) -/

theorem foldl_send (l : List (List Byte × List Byte)) (p : Nat) :
    l.foldl (fun s e => send s (.cardCommand p e.1 e.2)) s = { s with out := s.out ++ l.map (fun e => .cardCommand p e.1 e.2) } := by
  induction l generalizing s with
  | nil => simp
  | cons e l ih => rw [List.foldl_cons, ih]; simp [send]

/-- Commands leave the module, and nothing else changes. -/
theorem sendCommands_eq (s : State) (p n : Nat) : ∃ l, sendCommands s p n = { s with out := s.out ++ l } := by
  unfold sendCommands
  dsimp only
  split
  · exact ⟨[], by rw [List.append_nil]⟩
  · exact ⟨_, foldl_send _ _⟩

theorem sendCommands_unchanged (p n : Nat) : Unchanged [.out] s (sendCommands s p n) := by
  obtain ⟨l, h⟩ := sendCommands_eq s p n
  rw [h]
  intro q hq; have h := same_refl q s; cases q <;> first | exact absurd (by decide) hq | exact h

/-- The challenge goes to the card as its third command. -/
theorem cardSign_sent {p n : Nat} (hc : mget s.cer (cardOf s p).ceremony = some c) (hn : 3 ≤ n) :
    .cardCommand p (cardSign (cardOf s p).op (cardOf s p).ceremony c).1 (cardSign (cardOf s p).op (cardOf s p).ceremony c).2 ∈
      (sendCommands s p n).out := by
  obtain ⟨j, rfl⟩ := Nat.exists_eq_add_of_le' hn
  simp only [sendCommands, hc, foldl_send]
  simp [cardCommands]

theorem failedCommands_unchanged (p cause : Nat) : Unchanged [.out, .free] s (failedCommands s p cause) := by
  unfold failedCommands
  split
  · exact .refl _ _
  · split
    · exact (sendCommands_unchanged _ _).mono (by decide)
    · exact ((free_unchanged _).mono (by decide)).trans ((sendCommands_unchanged _ _).mono (by decide))

/-- A session fails with a cause once its card has received some of the commands. -/
theorem sessionFails {p : Nat} (hp : p < 2) (cause : Nat) :
    Unchanged [.cards, .regs, .ports, .out, .free] s (endSession (failedCommands s p cause) p 3 cause) ∧
      Ended p { cardOf s p with session := 3, cause := cause } s (endSession (failedCommands s p cause) p 3 cause) :=
  ⟨((failedCommands_unchanged _ _).mono (by decide)).trans ((endSession_unchanged _ _ _).mono (by decide)),
    ended_endSession_of_cards (failedCommands_unchanged _ _) (by decide) hp 3 cause⟩

/-! ### The answer of a card (R314, R315) -/

section Answer

variable {p : Nat} {point sig wrapped : List Byte} (hp : p < 2) (hrun : (cardOf s p).session = 1)

include hp hrun

theorem cardSessionDone_of_failed {cause : Nat} (hlo : 2 ≤ cause) (hhi : cause ≤ 4) :
    Gives (.cardSessionDone p cause point sig wrapped) s [.cards, .regs, .ports, .out, .free]
      (Ended p { cardOf s p with session := 3, cause := cause } s) := by
  obtain ⟨hparts, hended⟩ := sessionFails (s := s) hp cause
  have hdone : sessionDone p cause point sig wrapped s = endSession (failedCommands s p cause) p 3 cause := by
    have hne : cause ≠ 0 := by omega
    have hin : within 2 4 cause = true := by simp [within, hlo, hhi]
    simp [sessionDone, hrun, Nat.not_le.mpr hp, hne, hin]
  exact gives_ended (congrArg (endWith s) hdone) hparts hended

/-- What a card answered is held for its port. -/
def heldResult (s : State) (p : Nat) (point sig wrapped : List Byte) : CardResult :=
  ⟨(cardOf s p).ceremony, (cardOf s p).op, point, sig, if (cardOf s p).op = 1 then [] else wrapped, s.nt.ns⟩

theorem sessionDone_of_held (hop : (cardOf s p).op ≠ 3) :
    sessionDone p 0 point sig wrapped s =
      endSession (setCard (sendCommands s p 4) p { cardOf s p with result := some (heldResult s p point sig wrapped) }) p 2 0 := by
  have hnt : (sendCommands s p 4).nt = s.nt := sendCommands_unchanged p 4 .time (by decide)
  simp only [sessionDone, hrun, Nat.not_le.mpr hp, hop, hnt, heldResult]
  simp

theorem cardSessionDone_of_held (hop : (cardOf s p).op ≠ 3) :
    Gives (.cardSessionDone p 0 point sig wrapped) s [.cards, .regs, .ports, .out] (fun u =>
      Ended p { cardOf s p with session := 2, cause := 0, result := some (heldResult s p point sig wrapped) } s u ∧
      (mget s.cer (cardOf s p).ceremony = some c →
        u.out.contains (.cardCommand p (cardSign (cardOf s p).op (cardOf s p).ceremony c).1
          (cardSign (cardOf s p).op (cardOf s p).ceremony c).2) = true)) := by
  have hsent := sendCommands_unchanged (s := s) p 4
  have hheld := turned_setCard (s := sendCommands s p 4) hp { cardOf s p with result := some (heldResult s p point sig wrapped) }
  have hset := setCard_unchanged (s := sendCommands s p 4) p { cardOf s p with result := some (heldResult s p point sig wrapped) }
  obtain ⟨hend, hevent⟩ := ended_endSession
    (s := setCard (sendCommands s p 4) p { cardOf s p with result := some (heldResult s p point sig wrapped) }) hp 2 0
  rw [cardOf_setCard_self] at hend
  have hended := hend.since (hheld.2.trans (cardOf_of_unchanged hsent (by decide) _))
  have hparts := ((hsent.mono (by decide)).trans (hset.mono (by decide))).trans (endSession_unchanged p 2 0)
  refine gives_intro (congrArg (endWith s) (sessionDone_of_held hp hrun hop)) hparts
    ⟨Ended.canon ⟨hended, hevent⟩ _, fun hc => ?_⟩
  refine List.contains_iff_mem.mpr (mem_out_endSession ?_ p 2 0)
  rw [show (setCard (sendCommands s p 4) p _).out = (sendCommands s p 4).out from hset .out (by decide)]
  exact cardSign_sent hc (by decide)

end Answer

/-! ### Internal commits (R257, R315) -/

theorem takeCommit_unchanged (s : State) : Unchanged [.confluence, .gauge] s (takeCommit s).2 :=
  ((conf_unchanged { s.conf with commitSeq := s.conf.commitSeq + 1 }).mono (by decide)).trans ((gauge_unchanged _).mono (by decide))

theorem countCommit_unchanged (q : Nat) : Unchanged [.gauge, .dies] s (countCommit s q) := by
  unfold countCommit
  dsimp only
  split
  · exact ((gauge_unchanged _).mono (by decide)).trans ((setDie_unchanged _ _).mono (by decide))
  · exact (gauge_unchanged _).mono (by decide)

/-- The state after the count of an internal commit, before its record. -/
theorem internalCommit_split (s : State) :
    Unchanged [.switch] (countCommit (takeCommit s).2 (s.conf.commitSeq + 1)) (internalCommit s) := by
  unfold internalCommit
  dsimp only [takeCommit]
  split
  · exact mirrorSend_unchanged _
  · exact .refl _ _

theorem internalCommit_unchanged (s : State) : Unchanged [.confluence, .gauge, .dies, .switch] s (internalCommit s) :=
  ((takeCommit_unchanged s).mono (by decide)).trans
    (((countCommit_unchanged _).mono (by decide)).trans ((internalCommit_split s).mono (by decide)))

theorem conf_internalCommit (s : State) : (internalCommit s).conf = { s.conf with commitSeq := s.conf.commitSeq + 1 } := by
  have hcount : (countCommit (takeCommit s).2 (s.conf.commitSeq + 1)).conf = (takeCommit s).2.conf :=
    countCommit_unchanged _ .confluence (by decide)
  exact (internalCommit_split s .confluence (by decide)).trans hcount

theorem cer_internalCommit (s : State) : (internalCommit s).cer = s.cer := (internalCommit_unchanged s .ceremonies (by decide)).1

/-! ### A share goes to its custodian's card (R315, R318, R319) -/

/-- A share but the last has been written: one internal commit, and the share is no longer to be written. -/
theorem shareWritten_of_more {ix : Nat} (hc : mget s.cer id = some c) (hmore : (c.toWrite.filter (fun e => e.1 != ix)).isEmpty = false) :
    shareWritten s id ix =
      { internalCommit s with cer := mput s.cer id { c with toWrite := c.toWrite.filter (fun e => e.1 != ix) } } := by
  simp [shareWritten, hc, hmore, cer_internalCommit]

section Share

variable {p ix : Nat} {point sig share w : List Byte} (hp : p < 2) (hrun : (cardOf s p).session = 1) (hop : (cardOf s p).op = 3)
  (hc : mget s.cer (cardOf s p).ceremony = some c) (hholder : shareHolder s c point = some (ix, share))
  (hsig : cardSigned 3 (cardOf s p).ceremony c point sig = true)
  (hkey : wrapKey c.keyPriv point (cardFpOf point) (cardOf s p).ceremony 2 = some w)

/-- The commands of a PUT_SHARE have left, the wrapped share as the last. -/
def shareSent (s : State) (p : Nat) (c : Ceremony) (ix : Nat) (share w : List Byte) : State :=
  send (sendCommands s p 3) (.cardPut p (cardOf s p).ceremony c.keyPub (aesWrap w (shareContent s c ix share)))

theorem shareSent_unchanged (s : State) (p : Nat) (c : Ceremony) (ix : Nat) (share w : List Byte) :
    Unchanged [.out] s (shareSent s p c ix share w) := (sendCommands_unchanged _ _).trans (send_unchanged _)

include hp hrun hop hc hholder hsig hkey

theorem sessionDone_of_share (wrapped : List Byte) :
    sessionDone p 0 point sig wrapped s = shareWritten (endSession (shareSent s p c ix share w) p 2 0) (cardOf s p).ceremony ix := by
  have hsession : sessionDone p 0 point sig wrapped s = putShare (sendCommands s p 3) p point sig := by
    simp [sessionDone, hrun, Nat.not_le.mpr hp, hop]
  obtain ⟨l, hl⟩ := sendCommands_eq s p 3
  rw [hsession, shareSent, hl]
  generalize hm : ({ s with out := s.out ++ l } : State) = m
  have hcard : cardOf m p = cardOf s p := by rw [← hm]; rfl
  have hcer : m.cer = s.cer := by rw [← hm]
  have hholder' : shareHolder m c point = shareHolder s c point := by rw [← hm]; rfl
  have hcontent : shareContent m c ix share = shareContent s c ix share := by rw [← hm]; rfl
  simp [putShare, hcard, hcer, hc, hholder', hholder, hsig, hkey, hcontent]

theorem cardSessionDone_of_share (hmore : (c.toWrite.filter (fun e => e.1 != ix)).isEmpty = false) (wrapped : List Byte) :
    Gives (.cardSessionDone p 0 point sig wrapped) s [.cards, .regs, .ports, .out, .ceremonies, .confluence, .gauge, .dies, .switch] (fun u =>
      Ended p { cardOf s p with session := 2, cause := 0 } s u ∧ u.conf = { s.conf with commitSeq := s.conf.commitSeq + 1 } ∧
      mget u.cer (cardOf s p).ceremony = some { c with toWrite := c.toWrite.filter (fun e => e.1 != ix) } ∧
      u.out.contains (.cardPut p (cardOf s p).ceremony c.keyPub (aesWrap w (shareContent s c ix share))) = true) := by
  have hsent := shareSent_unchanged s p c ix share w
  have hended := ended_endSession_of_cards hsent (by decide) hp 2 0
  have hend := endSession_unchanged (s := shareSent s p c ix share w) p 2 0
  have hput : .cardPut p (cardOf s p).ceremony c.keyPub (aesWrap w (shareContent s c ix share)) ∈
      (endSession (shareSent s p c ix share w) p 2 0).out :=
    mem_out_endSession (List.mem_append_right _ (List.mem_singleton_self _)) _ _ _
  have hdone := sessionDone_of_share hp hrun hop hc hholder hsig hkey wrapped
  have hupto := (hsent.mono (qs := [.cards, .regs, .ports, .out]) (by decide)).trans hend
  generalize endSession (shareSent s p c ix share w) p 2 0 = m at hended hput hdone hupto
  have hcer : m.cer = s.cer := (hupto .ceremonies (by decide)).1
  have hconf : m.conf = s.conf := hupto .confluence (by decide)
  rw [shareWritten_of_more (hcer ▸ hc) hmore] at hdone
  have hcommit := internalCommit_unchanged m
  have hout : (internalCommit m).out = m.out := hcommit .out (by decide)
  have hlast := (hcommit.mono (qs := [.ceremonies, .confluence, .gauge, .dies, .switch]) (by decide)).trans
    ((cer_unchanged (mput m.cer (cardOf s p).ceremony { c with toWrite := c.toWrite.filter (fun e => e.1 != ix) })).mono (by decide))
  refine gives_intro (congrArg (endWith s) hdone) ((hupto.mono (by decide)).trans (hlast.mono (by decide)))
    ⟨(hended.keeps hlast (by decide) (by decide)).canon _, ?_, mget_mput_self _ _ _, ?_⟩
  · exact (conf_internalCommit m).trans (by rw [hconf])
  · exact List.contains_iff_mem.mpr (hout.symm ▸ hput)

end Share

/-! ### Times and presence of cards (R315) -/

section Card

variable {p : Nat} (hp : p < 2)

include hp

theorem cardSessionTimeout_gives (hrun : (cardOf s p).session = 1) :
    Gives (.cardSessionTimeout p) s [.cards, .regs, .ports, .out, .time, .free] (fun u =>
      Ended p { cardOf s p with session := 3, cause := 5 } s u ∧ u.nt = { s.nt with ns := max s.nt.ns ((cardOf s p).startNt + 2000000000) }) := by
  have hreach := reach_unchanged (s := s) ((cardOf s p).startNt + 2000000000)
  obtain ⟨hparts, hturned, hevent⟩ := sessionFails (s := reach s ((cardOf s p).startNt + 2000000000)) hp 5
  have hended : Ended p { cardOf s p with session := 3, cause := 5 } s _ := ⟨hturned.since rfl, hevent⟩
  exact gives_intro (congrArg (endWith s) (if_pos ⟨hrun, hp⟩)) ((hreach.mono (by decide)).trans (hparts.mono (by decide)))
    ⟨hended.canon _, hparts .time (by decide)⟩

theorem cardResultExpiry_gives {r : CardResult} (hr : (cardOf s p).result = some r) :
    Gives (.cardResultExpiry p) s [.cards, .time] (fun u => Turned p { cardOf s p with result := none } s u ∧
      u.nt = { s.nt with ns := max s.nt.ns (r.heldNt + 60000000000) }) := by
  have hset := setCard_unchanged (s := reach s (r.heldNt + 60000000000)) p { cardOf s p with result := none }
  have hrow : exec (.cardResultExpiry p) s = endWith s (setCard (reach s (r.heldNt + 60000000000)) p { cardOf s p with result := none }) := by
    rw [show exec (.cardResultExpiry p) s = execCardResultExpiry p s from rfl, execCardResultExpiry, hr]
  have hturned : Turned p { cardOf s p with result := none } s (setCard (reach s (r.heldNt + 60000000000)) p { cardOf s p with result := none }) :=
    (turned_setCard hp _).since rfl
  exact gives_intro hrow (((reach_unchanged _).mono (by decide)).trans (hset.mono (by decide))) ⟨hturned.canon _, hset .time (by decide)⟩

theorem cardInserted_gives (hcard : (cardOf s p).present = false) :
    Gives (.cardInserted p) s [.cards, .regs, .ports, .out] (fun u => Turned p { cardOf s p with present := true } s u ∧
      bitOf (rd u (pgCus p + oIrqStat)) 1 = true) := by
  have hraise := raise_unchanged (s := setCard s p { cardOf s p with present := true }) (pgCus p) 1
  have hturned := (turned_setCard (s := s) hp { cardOf s p with present := true }).keeps hraise (by decide)
  have hskip : ¬ (2 ≤ p ∨ (cardOf s p).present = true) := by simp [hp, hcard]
  refine gives_intro (congrArg (endWith s) (if_neg hskip)) (((setCard_unchanged _ _).mono (by decide)).trans (hraise.mono (by decide)))
    ⟨hturned.canon _, ?_⟩
  exact (congrArg (bitOf · 1) (rd_canon _ _)).trans (bitOf_raise_self _ _ (by decide))

/-- The port's card is gone, with its event. -/
def cardGone (s : State) (p : Nat) : State := raise (setCard s p { cardOf s p with present := false, powered := false }) (pgCus p) 2

theorem cardRemoved_gives (hcard : (cardOf s p).present = true) :
    Gives (.cardRemoved p) s [.cards, .regs, .ports, .out, .free] (fun u => bitOf (rd u (pgCus p + oIrqStat)) 2 = true ∧
      Turned p (if (cardOf s p).session = 1 then { cardOf s p with present := false, powered := false, session := 3, cause := 6 }
        else { cardOf s p with present := false, powered := false }) s u) := by
  have hskip : ¬ (2 ≤ p ∨ (cardOf s p).present = false) := by simp [hp, hcard]
  have hraise := raise_unchanged (s := setCard s p { cardOf s p with present := false, powered := false }) (pgCus p) 2
  have hturned : Turned p { cardOf s p with present := false, powered := false } s (cardGone s p) := (turned_setCard hp _).keeps hraise (by decide)
  have hevent : bitOf (rd (cardGone s p) (pgCus p + oIrqStat)) 2 = true := bitOf_raise_self _ _ (by decide)
  have hgone : Unchanged [.cards, .regs, .ports, .out, .free] s (cardGone s p) :=
    ((setCard_unchanged _ _).mono (by decide)).trans (hraise.mono (by decide))
  have hrow : exec (.cardRemoved p) s = endWith s (if ((cardOf s p).session == 1) = true
      then endSession (failedCommands (cardGone s p) p 6) p 3 6 else cardGone s p) := congrArg (endWith s) (if_neg hskip)
  by_cases hrun : (cardOf s p).session = 1
  · rw [if_pos (by simp [hrun])] at hrow
    obtain ⟨hparts, hfailed, -⟩ := sessionFails (s := cardGone s p) hp 6
    rw [hturned.1] at hfailed
    have hcommands := failedCommands_unchanged (s := cardGone s p) p 6
    have hevent' : bitOf (rd (failedCommands (cardGone s p) p 6) (pgCus p + oIrqStat)) 2 = true := by
      rw [hcommands .regs (by decide) (pgCus p + oIrqStat)]; exact hevent
    refine gives_intro hrow (hgone.trans hparts) ⟨(congrArg (bitOf · 2) (rd_canon _ _)).trans (bitOf_endSession_of_bitOf hevent' 3 6), ?_⟩
    rw [if_pos hrun]
    exact (hfailed.since hturned.2).canon _
  · rw [if_neg (by simp [hrun])] at hrow
    refine gives_intro hrow hgone ⟨(congrArg (bitOf · 2) (rd_canon _ _)).trans hevent, ?_⟩
    rw [if_neg hrun]
    exact hturned.canon _

end Card

/-! ### The expiry of ceremonies (R310, R318, R319) -/

/-- What is kept of a ceremony that has ended. -/
def outcomeOf (id code seq : Nat) (c : Ceremony) : CerOutcome :=
  ⟨id, c.domain, c.action, code, approvalCount c, c.components.length, c.invalid, c.expires, seq⟩

theorem vault_unchanged (v : Vault) : Unchanged [.vault] s { s with vault := v } := by
  intro p hp; have h := same_refl p s; cases p <;> first | exact absurd (by decide) hp | exact h

theorem endCeremony_eq (hc : mget s.cer id = some c) (code seq : Nat) :
    endCeremony s id code seq = { s with
      cer := mdel s.cer id
      vault := { s.vault with
        outcomes := (s.vault.outcomes ++ [outcomeOf id code seq c]).drop ((s.vault.outcomes ++ [outcomeOf id code seq c]).length - 64) } } := by
  simp only [endCeremony, hc, outcomeOf]

/-- The newest outcome is among the last 64. -/
theorem outcome_endCeremony (hc : mget s.cer id = some c) (code seq : Nat) :
    (endCeremony s id code seq).vault.outcomes.getLast? = some (outcomeOf id code seq c) := by
  rw [endCeremony_eq hc]
  dsimp only
  rw [List.getLast?_drop, if_neg (by rw [List.length_append, List.length_singleton]; omega), List.getLast?_concat]

theorem endCeremony_unchanged (hc : mget s.cer id = some c) (code seq : Nat) :
    Unchanged [.ceremonies, .vault] s (endCeremony s id code seq) := by
  rw [endCeremony_eq hc]
  exact ((cer_unchanged (mdel s.cer id)).mono (by decide)).trans ((vault_unchanged _).mono (by decide))

/-- A root whose shares are still to be written is gone with its ceremony. -/
def dropMadeRoot (s : State) (c : Ceremony) : State :=
  if c.action = 0x01 then { s with vault := { s.vault with ownerRoot := none } } else s

theorem dropMadeRoot_unchanged (c : Ceremony) : Unchanged [.vault] s (dropMadeRoot s c) := by
  unfold dropMadeRoot
  split
  · exact vault_unchanged _
  · exact .refl _ _

theorem ceremonyExpiry_of_applying (hc : mget s.cer id = some c) (ha : c.mode = .applying) (hw : c.toWrite ≠ []) :
    ceremonyExpiry id s = cerEvent (endCeremony (dropMadeRoot (internalCommit (reach s c.expires)) c) id 5 0) 3 id := by
  simp [ceremonyExpiry, hc, ha, hw, dropMadeRoot, cancelCeremony]

theorem ceremonyExpiry_of_collecting (hc : mget s.cer id = some c) (ha : c.mode ≠ .applying) :
    ceremonyExpiry id s = endCeremony (internalCommit (reach s c.expires)) id 6 0 := by
  simp [ceremonyExpiry, hc, ha]

/-- The parts in which the expiry of a ceremony leaves something. -/
def expiryParts : List Part := [.ceremonies, .time, .confluence, .gauge, .dies, .switch, .vault, .regs]

/-- A ceremony has ended at its expiry with an outcome, one internal commit has recorded it, and the owner root is `root`. -/
structure Expired (id code : Nat) (c : Ceremony) (root : Option Bytes) (s u : State) : Prop where
  parts : Unchanged expiryParts s u
  gone : mget u.cer id = none
  time : u.nt.ns = max s.nt.ns c.expires
  commit : u.conf = { s.conf with commitSeq := s.conf.commitSeq + 1 }
  outcome : u.vault.outcomes.getLast? = some (outcomeOf id code 0 c)
  root : u.vault.ownerRoot = root

/-- The ceremony ends after the internal commit, where that has been followed by a change of the vault alone. -/
theorem expired_endCeremony (hc : mget s.cer id = some c) (hm : Unchanged [.vault] (internalCommit (reach s c.expires)) m) (code : Nat) :
    Expired id code c m.vault.ownerRoot s (endCeremony m id code 0) := by
  have hcommit := internalCommit_unchanged (reach s c.expires)
  have hcer : mget m.cer id = some c := by
    rw [show m.cer = (internalCommit (reach s c.expires)).cer from (hm .ceremonies (by decide)).1, cer_internalCommit]
    exact hc
  have hend := endCeremony_unchanged hcer code 0
  have hlast := (hm.mono (qs := [.ceremonies, .vault]) (by decide)).trans hend
  have hnt : (endCeremony m id code 0).nt = (reach s c.expires).nt := (hlast .time (by decide)).trans (hcommit .time (by decide))
  refine ⟨((reach_unchanged _).mono (by decide)).trans ((hcommit.mono (by decide)).trans (hlast.mono (by decide))), ?_,
    congrArg NtUnit.ns hnt, (hlast .confluence (by decide)).trans (conf_internalCommit _), outcome_endCeremony hcer _ _, ?_⟩
  all_goals rw [endCeremony_eq hcer]
  exact mget_mdel_self _ _

/-- The event of the journal leaves the rest as it was. -/
theorem Expired.cerEvent {code : Nat} {root : Option Bytes} (h : Expired id code c root s m) (n : Nat) :
    Expired id code c root s (cerEvent m n id) := by
  have hevent : Unchanged [.regs, .gauge, .switch] m (Machine.cerEvent m n id) := journal_unchanged _
  have hvault : (Machine.cerEvent m n id).vault = m.vault := hevent .vault (by decide)
  have hcer : (Machine.cerEvent m n id).cer = m.cer := (hevent .ceremonies (by decide)).1
  have hnt : (Machine.cerEvent m n id).nt = m.nt := hevent .time (by decide)
  exact ⟨h.parts.trans (hevent.mono (by decide)), hcer.symm ▸ h.gone, hnt.symm ▸ h.time, (hevent .confluence (by decide)).trans h.commit,
    hvault.symm ▸ h.outcome, hvault.symm ▸ h.root⟩

/-- R318, R319: with the share-writing phase ends what it had made. -/
theorem expired_of_applying (hc : mget s.cer id = some c) (ha : c.mode = .applying) (hw : c.toWrite ≠ []) :
    Expired id 5 c (if c.action = 0x01 then none else s.vault.ownerRoot) s (ceremonyExpiry id s) := by
  have hvault : (internalCommit (reach s c.expires)).vault = s.vault := internalCommit_unchanged _ .vault (by decide)
  have hroot : (dropMadeRoot (internalCommit (reach s c.expires)) c).vault.ownerRoot = if c.action = 0x01 then none else s.vault.ownerRoot := by
    rw [dropMadeRoot, ← hvault]; split <;> rfl
  rw [ceremonyExpiry_of_applying hc ha hw, ← hroot]
  exact (expired_endCeremony hc (dropMadeRoot_unchanged c) 5).cerEvent 3

theorem expired_of_collecting (hc : mget s.cer id = some c) (ha : c.mode ≠ .applying) :
    Expired id 6 c s.vault.ownerRoot s (ceremonyExpiry id s) := by
  have hvault : (internalCommit (reach s c.expires)).vault = s.vault := internalCommit_unchanged _ .vault (by decide)
  rw [ceremonyExpiry_of_collecting hc ha, ← hvault]
  exact expired_endCeremony hc (.refl _ _) 6

theorem ceremonyExpiry_gives (hc : mget s.cer id = some c) (h : c.mode ≠ .applying ∨ c.toWrite ≠ []) :
    Gives (.ceremonyExpiry id) s expiryParts (fun u =>
      mget u.cer id = none ∧ u.nt.ns = max s.nt.ns c.expires ∧ u.conf = { s.conf with commitSeq := s.conf.commitSeq + 1 } ∧
      u.vault.outcomes.getLast? = some (outcomeOf id (if c.mode = .applying then 5 else 6) 0 c) ∧
      u.vault.ownerRoot = (if c.mode = .applying ∧ c.action = 0x01 then none else s.vault.ownerRoot)) := by
  by_cases ha : c.mode = .applying
  · have hover := expired_of_applying hc ha (h.resolve_left (not_not_intro ha))
    simp only [ha, true_and, if_true]
    exact gives_intro rfl hover.parts ⟨hover.gone, hover.time, hover.commit, hover.outcome, hover.root⟩
  · have hover := expired_of_collecting hc ha
    simp only [ha, false_and, if_false]
    exact gives_intro rfl hover.parts ⟨hover.gone, hover.time, hover.commit, hover.outcome, hover.root⟩

theorem ceremonyExpiry_of_closing (hc : mget s.cer id = some c) (ha : c.mode = .applying) (hw : c.toWrite = []) : ceremonyExpiry id s = s := by
  simp [ceremonyExpiry, hc, ha, hw]

/-- Settles O47, along the life of a session: its start, the card's answer, its times, the card's coming and going; then the expiry. -/
theorem cardSessions : Obligations.CardSessions := by
  intro s who p id cause ix point sig wrapped share w c r hp
  dsimp only
  refine ⟨fun hopen hid hidle => ?approve, fun hopen hid hidle => ?component, fun hopen hid hidle => ?putShare,
    fun hopen hid hidle => ?getShare, fun hrun hlo hhi => cardSessionDone_of_failed hp hrun hlo hhi,
    fun hrun hop => cardSessionDone_of_held hp hrun hop,
    fun hrun hop hc hholder hsig hkey hmore => cardSessionDone_of_share hp hrun hop hc hholder hsig hkey hmore wrapped,
    fun hrun => cardSessionTimeout_gives hp hrun, fun hr => cardResultExpiry_gives hp hr, fun hcard => cardInserted_gives hp hcard,
    fun hcard => cardRemoved_gives hp hcard, fun hc h => ceremonyExpiry_gives hc h,
    fun hc ha hw => gives_nothing (congrArg (endWith s) (ceremonyExpiry_of_closing hc ha hw))⟩
  case approve => exact sessionStart_gives hopen hp hidle (congrArg (endWith s) (startRow_eq hp hid))
  case component => exact sessionStart_gives hopen hp hidle (congrArg (endWith s) (startRow_eq hp hid))
  case putShare => exact sessionStart_gives hopen hp hidle (congrArg (endWith s) (startRow_eq hp hid))
  case getShare => exact sessionStart_gives hopen hp hidle (congrArg (endWith s) (startRow_eq hp hid))

end Sys2Proof.CardPorts
end
